-- ==== Sys2Proof/Syntax.lean ====
section
/-!
DEFINITION. The commands of the block: the operands they take, and Instr, one constructor a row of spec/opcode_table.json.
-/
namespace Sys2Proof

/-- The kinds of request on the request virtual channel (R200, R421); `reclaim` is the home's own freeing of a
directory entry (R199). -/
inductive ReqKind where
  | rdS | rdX | upg | wrl | ucRd | ucWr | reclaim
deriving DecidableEq, Repr

/-- Who makes an access (R31, Table 1-6; R188). -/
inductive Who where
  | pilot (c : Nat)
  | vec (c : Nat)
  | dma (c : Nat)
  | lookup
  | host
  | hcopy
  | weave (w : Nat)
  | warden
  | jesd
  | eth
  | sched (p : Nat)
  | queue
  | remote (chip : Nat)
deriving DecidableEq, Repr

/-- A second request that reaches a home slice in the same home cycle (R202): kind, chip, agent, data of a WRL. -/
structure HomeMate where
  kind : ReqKind
  chip : Nat
  agent : Nat
  data : List Byte
deriving DecidableEq, Repr

/-- A version of a pool row on its way between chips (R301, R308, R310): generation and bytes. -/
structure RowVer where
  gen : Nat
  data : List Byte
deriving DecidableEq, Repr

/-- A row of a table as another chip's Warden sends it (R307, R308, R310): its versions, and whether one is poisoned. -/
structure RowCopy where
  table : Nat
  row : Nat
  cur : Option RowVer
  prev : Option RowVer
  poison : Bool
deriving DecidableEq, Repr

/-- The steps of a live move (R308): freeze replacement, copy the versions in, switch the owner, release the former
owner's slots, resume replacement. -/
inductive MoveStep where
  | freeze
  | copyIn (rows : List RowCopy)
  | switch
  | release (lows : List Nat)
  | resume
deriving DecidableEq, Repr

/-- What other chips report for a skew evaluation (R307): samples of a row at a chip, and the load of each owner. -/
structure SkewReport where
  table : Nat
  row : Nat
  chip : Nat
  count : Nat
deriving DecidableEq, Repr

/-- Samples of a symbol that a failed multiblock carried (R319): slot, symbol, antenna, first sample and count. -/
structure BadSamples where
  slot : Nat
  sym : Nat
  ant : Nat
  first : Nat
  count : Nat
deriving DecidableEq, Repr

/-- A frame that the configuration readback finds (R361): plane, cell and its 16 bytes. -/
structure FrameRead where
  plane : Nat
  cell : Nat
  data : List Byte
deriving DecidableEq, Repr

/-- What a host copy channel had moved when its descriptor failed (R450): channel and bytes. -/
structure PartCopy where
  chan : Nat
  data : List Byte
deriving DecidableEq, Repr

/-- A request as its row gives it: the mailbox pair, the requesting chip on a fabric pair, SEQ, VER and the payload, without CRC;
and what host memory holds where the request names a PCIe bus address (R480). -/
structure MailReq where
  pair : Nat
  chip : Nat
  seq : Nat
  ver : Nat
  payload : List Byte
  host : List Byte
deriving DecidableEq, Repr

/-- A telemetry sample as the sensors give it (R487): input mV and mA, chip and module mW, Quarter temperatures in units of 0.1
degrees C, mW of each partition. -/
structure TelemIn where
  vin : Nat
  iin : Nat
  chip : Nat
  mod : Nat
  temps : List Int
  parts : List Nat
deriving DecidableEq, Repr

/-- How a job ends (R492, R562, R563): a flash, memory or link error during it, the elements of the request mask that a self-test
failed, and the monitor's counts of each of the 64 phase steps (disagreements, bits compared). -/
structure JobOut where
  io : Bool
  mask : Nat
  points : List (Nat × Nat)
deriving DecidableEq, Repr

/-- An error or event that a unit reports (Table 18-1). Cores, queues, objects and addresses are named by number; `other` is any event
of Table 18-4 whose unit does nothing beside reporting it. -/
inductive UnitErr where
  | tileCe (c off : Nat)
  | tileUe (c off : Nat)
  | lp5xCe (a : Nat)
  | lp5xUe (a : Nat)
  | imemCe (c off : Nat)
  | imemUe (c off : Nat)
  | vectorSlice (c reg slice : Nat)
  | pilotReg (c reg : Nat)
  | squareCe (slice set : Nat)
  | squareData (ga : Nat)
  | squareTag (ga : Nat)
  | directory (a : Nat) (readable : List Nat)
  | ringData (stop cls a n : Nat)
  | ringHeader (stop cls ga agent : Nat)
  | queueState (q : Nat)
  | syncState (n : Nat)
  | taskState (part id : Nat)
  | batchState (n : Nat)
  | channelState (ch : Nat)
  | wardenSram
  | otpKey (k : Nat)
  | otpFloor
  | other (code agent : Nat) (args : List Nat)
deriving DecidableEq, Repr

/-- What a debugger does through the test port (R99, R567): select the register, halt a core, let it run on, or raise BREAKPOINT on it. -/
inductive DebugOp where
  | select
  | halt (c : Nat)
  | resume (c : Nat)
  | breakpoint (c : Nat)
deriving DecidableEq, Repr

/-- Where a Pilot operation issues (R66): the core, and slot 1 of the bundle or slot 0. -/
structure Issue where
  core : Nat
  slot1 : Bool
deriving DecidableEq, Repr

/-- The fields of the VR layout beside FUNC (Table 4-3). -/
structure VArgs where
  ty : Nat
  vd : Nat
  vs1 : Nat
  v2 : Nat
  src : Bool
  km : Nat
  mz : Bool
deriving DecidableEq, Repr

/-- The commands: one constructor a row of spec/opcode_table.json. -/
inductive Instr where
  /-- NOP (R69). -/
  | nop (i : Issue)
  /-- HEEL (R90). -/
  | heel (i : Issue) (tag : Nat)
  /-- IFENCE (R93). -/
  | ifence (i : Issue)
  /-- FENCE_FULL (R194). -/
  | fenceFull (i : Issue)
  /-- FENCE_RELEASE (R194). -/
  | fenceRelease (i : Issue)
  /-- FENCE_ACQUIRE (R194). -/
  | fenceAcquire (i : Issue)
  /-- FENCE_DMA (R194). -/
  | fenceDma (i : Issue)
  /-- RTI (R88). -/
  | rti (i : Issue)
  /-- TRAP (R89). -/
  | trap (i : Issue) (code : Nat)
  /-- WAITI (R69). -/
  | waiti (i : Issue)
  /-- RBRK (R83). -/
  | rbrk (i : Issue)
  /-- ADD (R71). -/
  | add (i : Issue) (sat : Bool) (rd rs1 rs2 : Nat)
  /-- SUB (R71). -/
  | sub (i : Issue) (sat : Bool) (rd rs1 rs2 : Nat)
  /-- ADDU (R71). -/
  | addu (i : Issue) (sat : Bool) (rd rs1 rs2 : Nat)
  /-- SUBU (R71). -/
  | subu (i : Issue) (sat : Bool) (rd rs1 rs2 : Nat)
  /-- AND (R71). -/
  | and (i : Issue) (sat : Bool) (rd rs1 rs2 : Nat)
  /-- OR (R71). -/
  | or (i : Issue) (sat : Bool) (rd rs1 rs2 : Nat)
  /-- XOR (R71). -/
  | xor (i : Issue) (sat : Bool) (rd rs1 rs2 : Nat)
  /-- SLL (R70). -/
  | sll (i : Issue) (sat : Bool) (rd rs1 rs2 : Nat)
  /-- SRL (R70). -/
  | srl (i : Issue) (sat : Bool) (rd rs1 rs2 : Nat)
  /-- SRA (R70). -/
  | sra (i : Issue) (sat : Bool) (rd rs1 rs2 : Nat)
  /-- SLT (R71). -/
  | slt (i : Issue) (sat : Bool) (rd rs1 rs2 : Nat)
  /-- SLTU (R71). -/
  | sltu (i : Issue) (sat : Bool) (rd rs1 rs2 : Nat)
  /-- MIN (R71). -/
  | min (i : Issue) (sat : Bool) (rd rs1 rs2 : Nat)
  /-- MAX (R71). -/
  | max (i : Issue) (sat : Bool) (rd rs1 rs2 : Nat)
  /-- MINU (R71). -/
  | minu (i : Issue) (sat : Bool) (rd rs1 rs2 : Nat)
  /-- MAXU (R71). -/
  | maxu (i : Issue) (sat : Bool) (rd rs1 rs2 : Nat)
  /-- ABS (R71). -/
  | abs (i : Issue) (sat : Bool) (rd rs1 : Nat)
  /-- NEG (R71). -/
  | neg (i : Issue) (sat : Bool) (rd rs1 : Nat)
  /-- CLZ (R71). -/
  | clz (i : Issue) (sat : Bool) (rd rs1 : Nat)
  /-- MUL (R71). -/
  | mul (i : Issue) (sat : Bool) (rd rs1 rs2 : Nat)
  /-- MULH (R71). -/
  | mulh (i : Issue) (sat : Bool) (rd rs1 rs2 : Nat)
  /-- MULHU (R71). -/
  | mulhu (i : Issue) (sat : Bool) (rd rs1 rs2 : Nat)
  /-- PACKH (R71). -/
  | packh (i : Issue) (sat : Bool) (rd rs1 rs2 : Nat)
  /-- ADDI (R71). -/
  | addi (i : Issue) (sat : Bool) (rd rs1 imm : Nat)
  /-- ANDI (R71). -/
  | andi (i : Issue) (sat : Bool) (rd rs1 imm : Nat)
  /-- ORI (R71). -/
  | ori (i : Issue) (sat : Bool) (rd rs1 imm : Nat)
  /-- XORI (R71). -/
  | xori (i : Issue) (sat : Bool) (rd rs1 imm : Nat)
  /-- SLLI (R70). -/
  | slli (i : Issue) (sat : Bool) (rd rs1 imm : Nat)
  /-- SRLI (R70). -/
  | srli (i : Issue) (sat : Bool) (rd rs1 imm : Nat)
  /-- SRAI (R70). -/
  | srai (i : Issue) (sat : Bool) (rd rs1 imm : Nat)
  /-- SLTI (R71). -/
  | slti (i : Issue) (sat : Bool) (rd rs1 imm : Nat)
  /-- SLTIU (R71). -/
  | sltiu (i : Issue) (sat : Bool) (rd rs1 imm : Nat)
  /-- MINI (R71). -/
  | mini (i : Issue) (sat : Bool) (rd rs1 imm : Nat)
  /-- MAXI (R71). -/
  | maxi (i : Issue) (sat : Bool) (rd rs1 imm : Nat)
  /-- LUI (R71). -/
  | lui (i : Issue) (rd imm : Nat)
  /-- MPY (R72). -/
  | mpy (i : Issue) (sat : Bool) (rs1 rs2 acc : Nat) (q h1 h2 : Bool)
  /-- MAC (R72). -/
  | mac (i : Issue) (sat : Bool) (rs1 rs2 acc : Nat) (q h1 h2 : Bool)
  /-- MSU (R72). -/
  | msu (i : Issue) (sat : Bool) (rs1 rs2 acc : Nat) (q h1 h2 : Bool)
  /-- DMAC (R72). -/
  | dmac (i : Issue) (sat : Bool) (rs1 rs2 acc : Nat) (q : Bool)
  /-- EXT (R72). -/
  | ext (i : Issue) (sat : Bool) (rd shift acc : Nat)
  /-- EXT16 (R72). -/
  | ext16 (i : Issue) (sat : Bool) (rd shift acc : Nat)
  /-- MULQ (R72). -/
  | mulq (i : Issue) (sat : Bool) (rd rs1 rs2 : Nat)
  /-- ACLR (R72). -/
  | aclr (i : Issue) (sat : Bool) (acc : Nat)
  /-- ALD (R72). -/
  | ald (i : Issue) (sat : Bool) (rs1 acc : Nat)
  /-- AHI (R72). -/
  | ahi (i : Issue) (sat : Bool) (rd acc : Nat)
  /-- LOAD (R74). -/
  | load (i : Issue) (rd an mode size : Nat) (sg imem : Bool) (imm : Nat)
  /-- STORE (R74). -/
  | store (i : Issue) (rs an mode size : Nat) (imem : Bool) (imm : Nat)
  /-- MOVA (R75). -/
  | mova (i : Issue) (n rs1 : Nat)
  /-- MOVB (R75). -/
  | movb (i : Issue) (n rs1 : Nat)
  /-- MOVL (R75). -/
  | movl (i : Issue) (n rs1 : Nat)
  /-- MOVM (R75). -/
  | movm (i : Issue) (n rs1 : Nat)
  /-- AADDI (R75). -/
  | aaddi (i : Issue) (n imm : Nat)
  /-- AADDM (R75). -/
  | aaddm (i : Issue) (n m : Nat)
  /-- MFA (R75). -/
  | mfa (i : Issue) (rd file n : Nat)
  /-- BRANCH (R80). -/
  | branch (i : Issue) (cond rs1 rs2 off : Nat)
  /-- J (R80). -/
  | j (i : Issue) (target : Nat)
  /-- JAL (R80). -/
  | jal (i : Issue) (target : Nat)
  /-- JR (R80). -/
  | jr (i : Issue) (rs1 : Nat)
  /-- JALR (R80). -/
  | jalr (i : Issue) (rs1 : Nat)
  /-- REP (R82). -/
  | rep (i : Issue) (src : Bool) (count rs1 len : Nat)
  /-- MFS (R96). -/
  | mfs (i : Issue) (rd index : Nat)
  /-- MTS (R96). -/
  | mts (i : Issue) (rs index : Nat)
  /-- INTERRUPT_ENTRY (R86). -/
  | interruptEntry (c : Nat)
  /-- VADD (R111). -/
  | vadd (i : Issue) (a : VArgs)
  /-- VADDS (R111). -/
  | vadds (i : Issue) (a : VArgs)
  /-- VSUB (R111). -/
  | vsub (i : Issue) (a : VArgs)
  /-- VSUBS (R111). -/
  | vsubs (i : Issue) (a : VArgs)
  /-- VADDUS (R111). -/
  | vaddus (i : Issue) (a : VArgs)
  /-- VSUBUS (R111). -/
  | vsubus (i : Issue) (a : VArgs)
  /-- VMUL (R111). -/
  | vmul (i : Issue) (a : VArgs)
  /-- VMULH (R111). -/
  | vmulh (i : Issue) (a : VArgs)
  /-- VMULHU (R111). -/
  | vmulhu (i : Issue) (a : VArgs)
  /-- VMULQ (R112). -/
  | vmulq (i : Issue) (a : VArgs)
  /-- VMULQS (R112). -/
  | vmulqs (i : Issue) (a : VArgs)
  /-- VMAC (R113). -/
  | vmac (i : Issue) (a : VArgs)
  /-- VMACS (R113). -/
  | vmacs (i : Issue) (a : VArgs)
  /-- VMIN (R111). -/
  | vmin (i : Issue) (a : VArgs)
  /-- VMAX (R111). -/
  | vmax (i : Issue) (a : VArgs)
  /-- VMINU (R111). -/
  | vminu (i : Issue) (a : VArgs)
  /-- VMAXU (R111). -/
  | vmaxu (i : Issue) (a : VArgs)
  /-- VAND (R111). -/
  | vand (i : Issue) (a : VArgs)
  /-- VOR (R111). -/
  | vor (i : Issue) (a : VArgs)
  /-- VXOR (R111). -/
  | vxor (i : Issue) (a : VArgs)
  /-- VSLL (R112). -/
  | vsll (i : Issue) (a : VArgs)
  /-- VSRL (R112). -/
  | vsrl (i : Issue) (a : VArgs)
  /-- VSRA (R112). -/
  | vsra (i : Issue) (a : VArgs)
  /-- VSRAR (R111). -/
  | vsrar (i : Issue) (a : VArgs)
  /-- VABS (R112). -/
  | vabs (i : Issue) (a : VArgs)
  /-- VABSS (R112). -/
  | vabss (i : Issue) (a : VArgs)
  /-- VMOV (R111). -/
  | vmov (i : Issue) (a : VArgs)
  /-- FADD (R107). -/
  | fadd (i : Issue) (a : VArgs)
  /-- FSUB (R107). -/
  | fsub (i : Issue) (a : VArgs)
  /-- FMUL (R107). -/
  | fmul (i : Issue) (a : VArgs)
  /-- FMA (R114). -/
  | fma (i : Issue) (a : VArgs)
  /-- FMIN (R107). -/
  | fmin (i : Issue) (a : VArgs)
  /-- FMAX (R107). -/
  | fmax (i : Issue) (a : VArgs)
  /-- FABS (R111). -/
  | fabs (i : Issue) (a : VArgs)
  /-- FNEG (R111). -/
  | fneg (i : Issue) (a : VArgs)
  /-- FRCPE (R115). -/
  | frcpe (i : Issue) (a : VArgs)
  /-- FRSQE (R115). -/
  | frsqe (i : Issue) (a : VArgs)
  /-- FMOV (R111). -/
  | fmov (i : Issue) (a : VArgs)
  /-- VLD (R122). -/
  | vld (i : Issue) (vd base stride ew km : Nat) (mz : Bool)
  /-- VST (R122). -/
  | vst (i : Issue) (vs base stride ew km : Nat)
  /-- VGATHER (R123). -/
  | vgather (i : Issue) (vd base vi ew km : Nat) (mz : Bool)
  /-- VSCATTER (R123). -/
  | vscatter (i : Issue) (vs base vi ew km : Nat)
  /-- VCVT (R120). -/
  | vcvt (i : Issue) (vd vs1 srcf dstf : Nat) (sat : Bool) (part : Nat)
  /-- VCMP (R116). -/
  | vcmp (i : Issue) (kd vs1 v2 : Nat) (src : Bool) (ty cond : Nat)
  /-- VRED (R116). -/
  | vred (i : Issue) (rd vs1 km ty op : Nat)
  /-- BCAST (R116). -/
  | bcast (i : Issue) (vd r ew : Nat)
  /-- SLIDEUP (R116). -/
  | slideup (i : Issue) (vd vs1 r ew : Nat)
  /-- SLIDEDN (R116). -/
  | slidedn (i : Issue) (vd vs1 r ew : Nat)
  /-- PERM (R116). -/
  | perm (i : Issue) (vd vs1 r ew : Nat)
  /-- KAND (R116). -/
  | kand (i : Issue) (kd ka kb : Nat)
  /-- KOR (R116). -/
  | kor (i : Issue) (kd ka kb : Nat)
  /-- KXOR (R116). -/
  | kxor (i : Issue) (kd ka kb : Nat)
  /-- KANDN (R116). -/
  | kandn (i : Issue) (kd ka kb : Nat)
  /-- KPOPC (R116). -/
  | kpopc (i : Issue) (ka r : Nat)
  /-- KFIRST (R116). -/
  | kfirst (i : Issue) (ka r : Nat)
  /-- KTOS (R116). -/
  | ktos (i : Issue) (ka r part : Nat)
  /-- STOK (R116). -/
  | stok (i : Issue) (kd r part : Nat)
  /-- VMOVS (R116). -/
  | vmovs (i : Issue) (v r idx ew : Nat) (toV : Bool)
  /-- LRPASS (R144). -/
  | lrpass (i : Issue) (row rs1 rs2 rd : Nat)
  /-- DMA (R184). -/
  | dma (i : Issue) (rs1 rs2 rd : Nat)
  /-- IMLOAD (R184). -/
  | imload (i : Issue) (rs1 rs2 rd : Nat)
  /-- QSEND (R224). -/
  | qsend (i : Issue) (rs1 rs2 rd : Nat)
  /-- QRECV (R228). -/
  | qrecv (i : Issue) (rs1 rs2 rd : Nat)
  /-- SSIG (R239). -/
  | ssig (i : Issue) (rs1 rs2 rd : Nat)
  /-- SWAIT (R240). -/
  | swait (i : Issue) (rs1 rs2 rd : Nat)
  /-- WEIGHT_FILL (R147). -/
  | weightFill (c : Nat)
  /-- AVENUE_ISSUE (R137). -/
  | avenueIssue (c : Nat)
  /-- PASS_START (R149). -/
  | passStart (c : Nat)
  /-- PASS_COMPLETE (R153). -/
  | passComplete (c : Nat)
  /-- ROW_STOP (R164). -/
  | rowStop (c : Nat)
  /-- PASS_ABORT (R169). -/
  | passAbort (c cause row lane : Nat)
  /-- DMA_COMPLETE (R186). -/
  | dmaComplete (c i : Nat)
  /-- RD_S (R202). -/
  | rdS (line chip agent : Nat) (other : Option HomeMate)
  /-- RD_X (R203). -/
  | rdX (line chip agent : Nat) (other : Option HomeMate)
  /-- UPG (R202). -/
  | upg (line chip agent : Nat) (other : Option HomeMate)
  /-- WRL (R202). -/
  | wrl (line chip agent : Nat) (data : List Byte) (other : Option HomeMate)
  /-- WB (R203). -/
  | wb (line chip : Nat) (data : List Byte) (poison : Bool)
  /-- EVICT_E (R198). -/
  | evictE (line chip : Nat)
  /-- UC_RD (R421). -/
  | ucRd (chip agent ga n : Nat)
  /-- UC_WR (R421). -/
  | ucWr (chip agent ga : Nat) (d : List Byte)
  /-- SNP_INV (R206). -/
  | snpInv (line home : Nat)
  /-- SNP_FWD_S (R200). -/
  | snpFwdS (line home dest : Nat)
  /-- SNP_FWD_X (R203). -/
  | snpFwdX (line home dest : Nat)
  /-- DATA_S (R200). -/
  | dataS (line : Nat) (data : List Byte) (poison : Bool)
  /-- DATA_E (R200). -/
  | dataE (line : Nat) (data : List Byte) (poison : Bool)
  /-- DATA_M (R203). -/
  | dataM (line : Nat) (data : List Byte) (poison : Bool)
  /-- INV_ACK (R200). -/
  | invAck (line chip : Nat) (data : Option (List Byte)) (poison : Bool)
  /-- FWD_ACK (R203). -/
  | fwdAck (line chip : Nat) (data : Option (List Byte)) (poison : Bool)
  /-- WB_ACK (R200). -/
  | wbAck (line : Nat)
  /-- WB_PENDING (R206). -/
  | wbPending (line chip : Nat)
  /-- RETRY (R204). -/
  | retry (line agent : Nat)
  /-- ERR (R425). -/
  | err (ga agent : Nat)
  /-- UC_DATA (R421). -/
  | ucData (ga agent : Nat) (d : List Byte)
  /-- UC_ACK (R421). -/
  | ucAck (ga agent : Nat)
  /-- PATROL_READ (R181). -/
  | patrolRead (err : Nat)
  /-- KENNEL_ENTRY (R209). -/
  | kennelEntry (num_ : Nat) (page ue : Bool)
  /-- SEND (R222). -/
  | send (w : Who) (q off : Nat) (d : List Byte)
  /-- QUEUE_ACCEPT (R233). -/
  | queueAccept (adr : Bool)
  /-- CONSUME (R229). -/
  | consume (w : Who) (q k : Nat) (word : Bool)
  /-- MC_DELIVER (R234). -/
  | mcDeliver (ch : Nat)
  /-- QRECV_TIMEOUT (R228). -/
  | qrecvTimeout (after c : Nat)
  /-- SIGNAL (R239). -/
  | signal (w : Who) (obj k : Nat)
  /-- SYNC_RESET (R251). -/
  | syncReset (obj v : Nat)
  /-- SWAIT_TIMEOUT (R240). -/
  | swaitTimeout (after c : Nat) (slot : Option Nat)
  /-- QMSG (R224). -/
  | qmsg (chip agent dest kind : Nat) (d : List Byte)
  /-- SYNC_SIG (R239). -/
  | syncSig (chip agent obj k : Nat)
  /-- SYNC_WAIT (R242). -/
  | syncWait (chip token obj n : Nat)
  /-- SYNC_GRANT (R242). -/
  | syncGrant (chip obj token status n type : Nat)
  /-- SYNC_WITHDRAW (R248). -/
  | syncWithdraw (chip token obj : Nat)
  /-- TASK_SUBMIT (R257). -/
  | taskSubmit (w : Who) (p off : Nat) (d : List Byte)
  /-- TASK_DISPATCH (R258). -/
  | taskDispatch (p : Nat)
  /-- TASK_END (R259). -/
  | taskEnd (c : Nat)
  /-- DECISION_INSTANT (R265). -/
  | decisionInstant (after : Nat)
  /-- LEASH_EXPIRY (R267). -/
  | leashExpiry (after c : Nat)
  /-- CLAIM_YIELD (R270). -/
  | claimYield (c : Nat)
  /-- CLAIM_IMAGE_LOADED (R270). -/
  | claimImageLoaded (c : Nat)
  /-- LOOKUP (R298). -/
  | lookup (w : Who) (p off : Nat) (d : List Byte)
  /-- BIND (R295). -/
  | bind (p bslot doneSync statusGa : Nat) (doneEn : Bool)
  /-- UNBIND (R295). -/
  | unbind (p bslot doneSync statusGa : Nat) (doneEn : Bool)
  /-- LKUP_REQ (R298). -/
  | lkupReq (chip token table row gen pos fmt : Nat)
  /-- LKUP_DATA (R298). -/
  | lkupData (batch pos status total : Nat) (data : List Byte)
  /-- LOOKUP_DONE (R300). -/
  | lookupDone (batch : Nat)
  /-- SKEW_WINDOW (R305). -/
  | skewWindow
  /-- SKEW_COUNTER_READ (R305). -/
  | skewCounterRead (w : Who) (k : Nat)
  /-- SKEW_EVALUATION (R307). -/
  | skewEvaluation (peers : List SkewReport) (loads : List (Nat × Nat × Nat)) (copies : List RowCopy)
  /-- SHARD_MOVE (R308). -/
  | shardMove (table number : Nat) (isRow : Bool) (a b : Nat) (step : MoveStep)
  /-- PREV_RECLAIM (R302). -/
  | prevReclaim (lows : List Nat)
  /-- REPLICA_SCRUB (R309). -/
  | replicaScrub (owners : List RowCopy)
  /-- LANE_LOCK (R318). -/
  | laneLock (lane : Nat)
  /-- LANE_LOCK_LOSS (R318). -/
  | laneLockLoss (lane : Nat)
  /-- LINK_UP (R318). -/
  | linkUp
  /-- MULTIBLOCK (R319). -/
  | multiblock (lane : Nat) (ok : Bool) (parts : List BadSamples)
  /-- SYMBOL_LAND (R323). -/
  | symbolLand (slot j : Nat) (samples : List (List Byte))
  /-- SYMBOL_LAUNCH (R325). -/
  | symbolLaunch (slot j : Nat)
  /-- ARM (R317). -/
  | arm
  /-- SLOT_BOUNDARY (R333). -/
  | slotBoundary (after : Nat)
  /-- KSLOT_PHASE (R333). -/
  | kslotPhase (v : BitVec 32)
  /-- KMAP_REGISTER (R337). -/
  | kmapRegister (w : Who) (v : BitVec 32)
  /-- KMAP_SELECT (R338). -/
  | kmapSelect (w : Who) (v : BitVec 32)
  /-- WFALSE (R343). -/
  | wfalse (w : Who) (v : BitVec 32)
  /-- WHISPER_WINDOW (R341). -/
  | whisperWindow (channel sf first time : Nat) (samples : List Byte) (power : List Nat)
  /-- WHISPER_WAKE (R513). -/
  | whisperWake
  /-- WADJ_ADJUST (R343). -/
  | wadjAdjust
  /-- CODEWORD_DESCRIPTOR (R369). -/
  | codewordDescriptor (w : Who) (inst off : Nat) (d : List Byte)
  /-- CODEWORD_DECODE (R371). -/
  | codewordDecode (inst : Nat)
  /-- CODEWORD_END (R372). -/
  | codewordEnd (inst : Nat)
  /-- DECODE_DEADLINE (R374). -/
  | decodeDeadline (after inst rows : Nat)
  /-- WEAVE_SCRUB (R361). -/
  | weaveScrub (inst : Nat) (reads : List FrameRead)
  /-- TIME_WRAP (R380). -/
  | timeWrap
  /-- TIME_EPOCH_LATE (R382). -/
  | timeEpochLate
  /-- TIME_EPOCH (R381). -/
  | timeEpoch (v : BitVec 32)
  /-- TIME_NS (R383). -/
  | timeNs (w : Who)
  /-- TIME_INC (R387). -/
  | timeInc (v : BitVec 32)
  /-- TIME_SLEW (R387). -/
  | timeSlew (v : BitVec 32)
  /-- TIME_STEP (R389). -/
  | timeStep (v : BitVec 32)
  /-- REF_TUNE (R387). -/
  | refTune (v : BitVec 16)
  /-- HELD_APPLY (R388). -/
  | heldApply
  /-- PPS_OUT (R396). -/
  | ppsOut (after : Nat)
  /-- PPS_IN (R397). -/
  | ppsIn (falling onStep : Bool)
  /-- PPS_LOST (R397). -/
  | ppsLost (after : Nat)
  /-- TIME_CHECK_SEND (R398). -/
  | timeCheckSend (after : Nat)
  /-- TCHK (R398). -/
  | tchk (chip check corr : Nat)
  /-- TCHK_RESP (R398). -/
  | tchkResp (check t2 t3 corr : Nat) (stepped : Bool)
  /-- CHECK_LOST (R399). -/
  | checkLost (after : Nat)
  /-- TRAINING_TIMEOUT (R409). -/
  | trainingTimeout (p : Nat)
  /-- IDLE (R412). -/
  | idle (p ack : Nat)
  /-- SEQUENCED_FLIT (R415). -/
  | sequencedFlit (p : Nat) (flit : BitVec 256)
  /-- NAK (R415). -/
  | nak (p last : Nat)
  /-- CREDIT (R418). -/
  | credit (p : Nat) (counts : List Nat)
  /-- HELLO (R429). -/
  | hello (p die chip peerPort : Nat)
  /-- RETRAIN (R416). -/
  | retrain (p : Nat)
  /-- REPLAY_TIMEOUT (R415). -/
  | replayTimeout (p : Nat)
  /-- RETRAIN_TIMEOUT (R416). -/
  | retrainTimeout (after p : Nat)
  /-- DOWN_RETRY (R416). -/
  | downRetry (p : Nat)
  /-- PACKET_FORWARD (R423). -/
  | packetForward (i : Nat) (full : Bool)
  /-- E2E_ACK (R424). -/
  | e2eAck (chip vc seq : Nat)
  /-- MBOX (R479). -/
  | mbox (chip : Nat) (msg : List Byte)
  /-- MBOX_RSP (R479). -/
  | mboxRsp (chip : Nat) (msg : List Byte)
  /-- REACHABILITY (R429). -/
  | reachability (chip mask : Nat)
  /-- JOIN (R429). -/
  | join (chip die proto feats dig : Nat)
  /-- ADMIT (R429). -/
  | admitMember (chip : Nat)
  /-- COMMIT (R429). -/
  | commitMember (members minor feats mepoch gen : Nat)
  /-- LEAVE (R431). -/
  | leave (chip : Nat)
  /-- LOSS_BROADCAST (R430). -/
  | lossBroadcast (chip : Nat)
  /-- HEARTBEAT_SEND (R430). -/
  | heartbeatSend (after : Nat)
  /-- HEARTBEAT (R432). -/
  | heartbeat (chip proto mepoch dig : Nat)
  /-- PEER_LOST (R430). -/
  | peerLost (after chip : Nat)
  /-- FLR (R466). -/
  | flr (parts : List PartCopy)
  /-- PERST_N (R468). -/
  | perstN (parts : List PartCopy)
  /-- MSIX_UNMASK (R448). -/
  | msixUnmask (v : Nat)
  /-- HOST_COPY_DESCRIPTOR (R449). -/
  | hostCopyDescriptor (w : Who) (c off : Nat) (d : List Byte)
  /-- HOST_COPY_DONE (R450). -/
  | hostCopyDone (c : Nat) (came : List Byte) (ep : Bool) (err : Option Nat)
  /-- HOST_COPY_TIMEOUT (R450). -/
  | hostCopyTimeout (after c : Nat) (part : List Byte)
  /-- INBOUND_SYNC_WRITE (R451). -/
  | inboundSyncWrite (n k : Nat)
  /-- RING_TAIL (R454). -/
  | ringTail (w : Who) (p r v : Nat)
  /-- ETH_TRANSMIT (R455). -/
  | ethTransmit (p r : Nat) (own : List Byte)
  /-- ETH_RECEIVE (R456). -/
  | ethReceive (p : Nat) (frame : List Byte) (fcsOk parityOk : Bool)
  /-- ETH_NOTIFY (R457). -/
  | ethNotify (after p r : Nat)
  /-- XIP_READ (R462). -/
  | xipRead (w : Who) (dev off n : Nat) (timeout : Bool)
  /-- XSPI_CMD (R463). -/
  | xspiCmd (dev op addr : Nat) (d : List Byte)
  /-- XSPI_CMD_DONE (R463). -/
  | xspiCmdDone (dev : Nat)
  /-- REQ_TAIL (R473). -/
  | reqTail (pair chip v : Nat)
  /-- REQUEST_CONSUME (R485). -/
  | requestConsume (pair chip : Nat) (host : List Byte)
  /-- MGMT_DATAGRAM (R475). -/
  | mgmtDatagram (pair from_ : Nat) (d : List Byte)
  /-- IDENTIFY (R487). -/
  | identify (r : MailReq)
  /-- SNAPSHOT (R488). -/
  | snapshot (r : MailReq)
  /-- LOG_READ (R555). -/
  | logRead (r : MailReq)
  /-- NOTICE_CFG (R492). -/
  | noticeCfg (r : MailReq)
  /-- REG_WRITE (R489). -/
  | regWrite (r : MailReq)
  /-- REG_READ (R487). -/
  | regRead (r : MailReq)
  /-- PART_SET (R254). -/
  | partSet (r : MailReq)
  /-- PART_RESET (R532). -/
  | partReset (r : MailReq)
  /-- CHIP_RESET (R533). -/
  | chipReset (r : MailReq)
  /-- POWER_BUDGET (R515). -/
  | powerBudget (r : MailReq)
  /-- POWER_STATE (R509). -/
  | powerState (r : MailReq)
  /-- TELEMETRY (R487). -/
  | telemetry (r : MailReq)
  /-- TABLE_CREATE (R288). -/
  | tableCreate (r : MailReq)
  /-- TABLE_FILL (R490). -/
  | tableFill (r : MailReq)
  /-- TABLE_REPLACE (R301). -/
  | tableReplace (r : MailReq)
  /-- TABLE_SWAP (R304). -/
  | tableSwap (r : MailReq)
  /-- TABLE_DELETE (R487). -/
  | tableDelete (r : MailReq)
  /-- POOL_POLICY (R307). -/
  | poolPolicy (r : MailReq)
  /-- KENNEL_READ (R208). -/
  | kennelRead (r : MailReq)
  /-- KENNEL_RELEASE (R209). -/
  | kennelRelease (r : MailReq)
  /-- RADIO_START (R347). -/
  | radioStart (r : MailReq)
  /-- RADIO_STOP (R487). -/
  | radioStop (r : MailReq)
  /-- WEAVE_LOAD (R359). -/
  | weaveLoad (r : MailReq)
  /-- WEAVE_SELECT (R360). -/
  | weaveSelect (r : MailReq)
  /-- DOMAIN_CONFIG (R426). -/
  | domainConfig (r : MailReq)
  /-- DOMAIN_STATUS (R487). -/
  | domainStatus (r : MailReq)
  /-- PEER_COORD (R487). -/
  | peerCoord (r : MailReq)
  /-- FLASH_UPDATE (R490). -/
  | flashUpdate (r : MailReq)
  /-- BOOT_PREFER (R537). -/
  | bootPrefer (r : MailReq)
  /-- DEBUG_UNLOCK (R567). -/
  | debugUnlock (r : MailReq)
  /-- SEAL (R495). -/
  | seal (r : MailReq)
  /-- HEALTH (R573). -/
  | health (r : MailReq)
  /-- TEST_PRBS (R560). -/
  | testPrbs (r : MailReq)
  /-- TEST_BIST (R563). -/
  | testBist (r : MailReq)
  /-- TEST_BATHTUB (R562). -/
  | testBathtub (r : MailReq)
  /-- MGMT_SET (R475). -/
  | mgmtSet (r : MailReq)
  /-- PTP_SET (R393). -/
  | ptpSet (r : MailReq)
  /-- TIME_ADJUST (R491). -/
  | timeAdjust (r : MailReq)
  /-- JOB_DONE (R492). -/
  | jobDone (id : Nat) (o : JobOut)
  /-- WATCHDOG_RESTART (R496). -/
  | watchdogRestart
  /-- EVENT_REPORT (R554). -/
  | eventReport (e : UnitErr)
  /-- EVENT_LOG (R555). -/
  | eventLog
  /-- TELEMETRY_SAMPLE (R35). -/
  | telemetrySample (x : TelemIn)
  /-- POWER_PLAN (R516). -/
  | powerPlan
  /-- QUARTER_GATE (R518). -/
  | quarterGate (q : Nat)
  /-- LEASE_EXPIRY (R517). -/
  | leaseExpiry (after : Nat)
  /-- POWER_OVERRUN (R519). -/
  | powerOverrun (chip mod : Nat)
  /-- THERMAL_TRIP (R519). -/
  | thermalTrip (temp : Nat)
  /-- DROOP_STRETCH (R505). -/
  | droopStretch (q : Nat)
  /-- DROOP_RECOVER (R505). -/
  | droopRecover (q good : Nat)
  /-- PWRFAIL (R523). -/
  | pwrfail (t vin : Nat)
  /-- OVERCURRENT (R591). -/
  | overcurrent (t ma us : Nat)
  /-- OVERVOLTAGE (R599). -/
  | overvoltage (t vin : Nat)
  /-- SWITCH_RECLOSE (R591). -/
  | switchReclose (t : Nat)
  /-- WAKE_N (R512). -/
  | wakeN (ns err : Nat)
  /-- BROWNOUT_RESTART (R512). -/
  | brownoutRestart (t err : Nat)
  /-- REFCLK_LOSS (R528). -/
  | refclkLoss
  /-- REFCLK_RETURN (R528). -/
  | refclkReturn (err : Nat)
  /-- POWER_ON (R538). -/
  | powerOn (role : Bool) (err : Nat)
  /-- WARM_RESET (R534). -/
  | warmReset (err : Nat)
  /-- CORE_RESET (R533). -/
  | coreReset
  /-- BOOT_FALLBACK (R540). -/
  | bootFallback (err : Nat)
  /-- CHECKPOINT_EXPIRY (R545). -/
  | checkpointExpiry (after : Nat)
  /-- ROLLBACK_RAISE (R539). -/
  | rollbackRaise (after : Nat)
  /-- HOLDUP_TEST (R568). -/
  | holdupTest (i step fall se : Nat) (early steady : Bool)
  /-- HEALTH_RECORD (R572). -/
  | healthRecord (day lp5x : Nat)
  /-- HEALTH_FIT (R573). -/
  | healthFit (drift : List Int) (eye : Nat) (proj : List (Option (Nat × Nat × Nat)))
  /-- EXTEST (R564). -/
  | extest (pins : List Byte)
  /-- SAMPLE_PRELOAD (R564). -/
  | samplePreload (sampled preload : List Byte)
  /-- IDCODE (R564). -/
  | idcode
  /-- CLAMP (R564). -/
  | clamp
  /-- HIGHZ (R564). -/
  | highz
  /-- EXTEST_PULSE (R564). -/
  | extestPulse (pins : List Byte)
  /-- EXTEST_TRAIN (R564). -/
  | extestTrain (pins : List Byte)
  /-- JTAG_MBOX (R565). -/
  | jtagMbox (write pair15 : Bool) (word v : Nat)
  /-- RECOVER (R566). -/
  | recover (v : Nat)
  /-- SCAN_MODE (R567). -/
  | scanMode
  /-- DEBUG (R564). -/
  | tapDebug (op : DebugOp)
  /-- BYPASS (R564). -/
  | bypass
  /-- TAP_INSTRUCTION_REPLACED (R564). -/
  | tapInstructionReplaced (code : Nat)
  /-- REGISTER_WRITE (R444). -/
  | registerWrite (w : Who) (off : Nat) (d : List Byte)
  /-- KMAP_OPERATION_END (R336). -/
  | kmapOperationEnd
  /-- BLOCK_LOCK (R409). -/
  | blockLock (p lane : Nat)
  /-- PRBS_LOCK (R559). -/
  | prbsLock (link port lane bits errs : Nat)
  /-- PRBS_LOCK_LOSS (R559). -/
  | prbsLockLoss (link port lane : Nat)
  /-- ETH_LINK_DOWN (R467). -/
  | ethLinkDown (p : Nat)
  /-- ETH_LINK_UP (R458). -/
  | ethLinkUp (p : Nat) (an fec : Bool) (sgmii : Nat)
  /-- PCIE_LINK_DOWN (R467). -/
  | pcieLinkDown (parts : List PartCopy)
  /-- PCIE_LINK_UP (R468). -/
  | pcieLinkUp (speed width : Nat)
  /-- PLL_LOCK_LOSS (R528). -/
  | pllLockLoss
  /-- PWRFAIL_N_DEASSERT (R521). -/
  | pwrfailNDeassert (t bulk : Nat)
  /-- INPUT_SWITCH_CLOSE (R521). -/
  | inputSwitchClose (t vin : Nat)
  /-- RAILS_FALL (R523). -/
  | railsFall
  /-- INPUT_REMOVED (R591). -/
  | inputRemoved (vin : Nat)
  /-- THERM_N (R588). -/
  | thermN (q temp : Nat)
  /-- BOOT_ATTEMPTS_CLEAR (R540). -/
  | bootAttemptsClear (after : Nat)
  /-- E2E_ACK_TIMEOUT (R424). -/
  | e2eAckTimeout (chip vc : Nat)
  /-- HEARTBEAT_ANSWER (R430). -/
  | heartbeatAnswer (chip : Nat)
  /-- WINDOW_B_WRITE (R445). -/
  | windowBWrite (off : Nat) (d : List Byte) (ep : Bool)
  /-- INBOUND_MEMORY_WRITE (R451). -/
  | inboundMemoryWrite (addr : Nat) (d : List Byte) (ep : Bool)
deriving DecidableEq, Repr

end Sys2Proof
end

