-- ==== Sys2Proof/Decode.lean ====
section
/-!
DEFINITION. The command that a word spells by the bits of the operation table. The block has no instruction decoder of its own, and no
row of the table gives its command any bits; the decoder of Pilot's bundles is in Machine/PilotOp.lean.
-/
namespace Sys2Proof

/-- The command whose row's bits are `w`: no row gives bits, so no word spells one. -/
def decodeTableWord (nbits w : Nat) : Option Instr :=
  match nbits, w with
  | _, _ => none

end Sys2Proof
end

