-- ==== Sys2Proof/Config.lean ====
section
/-!
DEFINITION. Free values: what the manual leaves open. Each is a constant with no body, applied to the operands it
depends on or to the counter `State.fresh`, so that no proof can see its value. The log entry of each is named.
-/
namespace Sys2Proof

/-- CK_CORE cycles beyond one that a bundle costs where the manual gives no figure (R77, R130). Log entry 11. -/
opaque Config.freezeCycles : Nat → Nat

/-- Which remote line of a full set the pseudo-LRU replaces (R177 gives no further rule). Log entry 12. -/
opaque Config.victim : Nat → Nat

/-- The error of FRCPE (true) or FRSQE (false) for an element type and an input code: R115 bounds it and fixes nothing
more. Log entry 15. -/
opaque Config.estimateError : Bool → Nat → Nat → Nat

/-- What a discarded accumulator or sum holds (R169), by the number of the abort and its key. Log entry 16. -/
opaque Config.discarded : Nat → Nat → Nat

/-- SHA-384 of a byte string, as the number its 48 bytes spell, the first byte lowest (R427, R358). Log entry 26. -/
opaque Config.sha384 : List Byte → BitVec 384

/-- Does an ECDSA P-384 signature of a message verify against the key whose hash OTP holds (R358, R539, R567)? Log entry 26. -/
opaque Config.verify : Nat → List Byte → List Byte → Bool

/-- The FILTER field written back for a frame that no filter entry matched (R456 names no value). Log entry 28. -/
opaque Config.noFilter : Nat → Nat

/-- HMAC-SHA-256 of a message under a key, as the number its 32 bytes spell, the first byte lowest (R475). Log entry 26. -/
opaque Config.hmac : List Byte → List Byte → BitVec 256

/-- The scope that DEBUG_UNLOCK finds in a token, given DIE_ID, the OTP key hashes and their revocation bits; none where the token does
not verify (R567 gives no layout). Log entry 39. -/
opaque Config.tokenScope : List Byte → Nat → List Nat → Nat → Option (BitVec 3)

/-- FW_MINOR, FW_PATCH and BUILD of the running firmware, by its image (R487 fixes only line 4). Log entry 39. -/
opaque Config.fwMinor : Nat → BitVec 8
opaque Config.fwPatch : Nat → BitVec 16
opaque Config.fwBuild : Nat → BitVec 32

/-- The 48 bytes of a PEER_COORD response, as the number they spell (R487: content internal to the firmware). Log entry 39. -/
opaque Config.peerCoord : Nat → BitVec 384

end Sys2Proof
end

