-- ==== Sys2Proof/Machine/Tab.lean ====
section
/-!
DEFINITION. Sparse tables keyed by a number, sets of numbers, bit fields of numbers and byte order. Every named
lookup of the model goes through these.
-/
namespace Sys2Proof.Machine

/-- A sparse table: pairs of a key and a value, keys strictly rising. A key that is not listed has the value the
reader of the table supplies. -/
abbrev Tab (α : Type) := List (Nat × α)

/-- The entry listed under a key. -/
def tabFind {α : Type} : List (Nat × α) → Nat → Option α
  | [], _ => none
  | (k, v) :: t, x => if x = k then some v else if x < k then none else tabFind t x

/-- The entry under a key, or `d` where none is listed. -/
def tabGet {α : Type} (t : List (Nat × α)) (x : Nat) (d : α) : α :=
  match tabFind t x with
  | some v => v
  | none => d

/-- The table with one entry written. -/
def tabSet {α : Type} : List (Nat × α) → Nat → α → List (Nat × α)
  | [], x, w => [(x, w)]
  | (k, v) :: t, x, w =>
    if x = k then (x, w) :: t
    else if x < k then (x, w) :: (k, v) :: t
    else (k, v) :: tabSet t x w

/-- The table without one entry. -/
def tabErase {α : Type} (t : List (Nat × α)) (x : Nat) : List (Nat × α) :=
  t.filter (fun p => p.1 ≠ x)

/-- The set of numbers with one member added; members are kept in rising order. -/
def setAdd : List Nat → Nat → List Nat
  | [], x => [x]
  | k :: t, x => if x = k then k :: t else if x < k then x :: k :: t else k :: setAdd t x

/-- The set without one member. -/
def setDel (t : List Nat) (x : Nat) : List Nat := t.filter (· ≠ x)

/-- Bits [hi:lo] of a number. -/
def bitsOf (x hi lo : Nat) : Nat := x / 2 ^ lo % 2 ^ (hi + 1 - lo)

/-- Bit `i` of a number. -/
def bitOf (x i : Nat) : Bool := x / 2 ^ i % 2 = 1

/-- `x` with bits [hi:lo] replaced by the low bits of `v`. -/
def putBits (x hi lo v : Nat) : Nat :=
  x - bitsOf x hi lo * 2 ^ lo + v % 2 ^ (hi + 1 - lo) * 2 ^ lo

/-- A Boolean as the number 0 or 1. -/
def num (b : Bool) : Nat := if b then 1 else 0

/-- The number read as a two's-complement integer of `w` bits. -/
def signed (w x : Nat) : Int :=
  let y := x % 2 ^ w
  if y < 2 ^ (w - 1) then (y : Int) else (y : Int) - (2 ^ w : Nat)

/-- The two's-complement code of an integer in `w` bits. -/
def wrapTo (w : Nat) (x : Int) : Nat := (x % ((2 ^ w : Nat) : Int)).toNat

/-- The bytes of a number, least significant first (R7). -/
def bytesLE : Nat → Nat → List Byte
  | 0, _ => []
  | n + 1, x => BitVec.ofNat 8 x :: bytesLE n (x / 256)

/-- The number that bytes spell, least significant first (R7). -/
def numLE : List Byte → Nat
  | [] => 0
  | b :: t => b.toNat + 256 * numLE t

/-- `n` bytes from position `i` of a byte string; bytes past its end are zero. -/
def sliceBytes (l : List Byte) (i n : Nat) : List Byte :=
  let r := (l.drop i).take n
  r ++ List.replicate (n - r.length) 0

/-- The little-endian field of `n` bytes at byte `i` of a record. -/
def fieldLE (l : List Byte) (i n : Nat) : Nat := numLE (sliceBytes l i n)

/-- A byte string with `d` put at position `i`. -/
def putBytes (l : List Byte) (i : Nat) (d : List Byte) : List Byte :=
  l.take i ++ d ++ l.drop (i + d.length)

/-- Apply a function `n` times. -/
def times {α : Type} (f : α → α) : Nat → α → α
  | 0, x => x
  | n + 1, x => times f n (f x)

/-- Fold a state through the numbers 0 to n − 1 in rising order. -/
def forN {α : Type} (n : Nat) (f : Nat → α → α) (x : α) : α :=
  (List.range n).foldl (fun y i => f i y) x

/-- Insert into a sorted list, after the elements that `le` puts no later. -/
def insertBy {α : Type} (le : α → α → Bool) (x : α) : List α → List α
  | [] => [x]
  | y :: t => if le y x then y :: insertBy le x t else x :: y :: t

/-- Sort by `le`, keeping the order of equal elements. -/
def sortBy {α : Type} (le : α → α → Bool) (l : List α) : List α := l.foldl (fun r x => insertBy le x r) []

/-- Ceiling of a quotient. -/
def ceilDiv (a b : Nat) : Nat := (a + b - 1) / b

/-- Quotient of an integer by a positive number, rounded to nearest, ties to even. -/
def divHalfEven (a : Int) (b : Nat) : Int :=
  let q := a / (b : Int)
  let r := (a % (b : Int)).toNat
  if 2 * r < b then q else if b < 2 * r then q + 1 else if q % 2 = 0 then q else q + 1

end Sys2Proof.Machine
end

