-- ==== Sys2Proof/Machine/RegTable.lean ====
section
/-!
DEFINITION. The register tables of the manual as data, one row a field (R8, R9, R10): offset in the device register
region (R24) or INDEX in the Pilot system register space (R96), bits, access code, reset value and the events
the field is kept through. What no row names reads as zero (R8).
-/
namespace Sys2Proof.Machine

/-- The access codes of Table 0-3 (R9). -/
inductive Acc where
  | ro | rw | w1c | w1s | rwl
deriving DecidableEq, Repr

/-- The events of Table 0-4 that a field may be kept through (R10). -/
structure Kept where
  dormant : Bool
  warm : Bool
  core : Bool
  part : Bool
deriving DecidableEq, Repr

/-- One row of a register table: `count` registers `stride` apart, each an array of `count2` words `stride2`
apart. `reset` is the field's value at reset, plus `resetStep` for each further register of the array. -/
structure RegField where
  name : String
  field : String
  base : Nat
  stride : Nat
  count : Nat
  stride2 : Nat
  count2 : Nat
  hi : Nat
  lo : Nat
  acc : Acc
  reset : Nat
  resetStep : Nat
  kept : Kept
deriving DecidableEq, Repr

/-- One row, written short. `kept` is a number whose bits are D, W, C, T from the highest. -/
def f (name field : String) (base stride count stride2 count2 hi lo : Nat) (acc : Acc) (reset resetStep : Nat)
    (kept : Nat) : RegField :=
  ⟨name, field, base, stride, count, stride2, count2, hi, lo, acc, reset, resetStep,
    ⟨bitOf kept 3, bitOf kept 2, bitOf kept 1, bitOf kept 0⟩⟩

/-- A field of a register: its word and its bits. -/
structure Fld where
  off : Nat
  hi : Nat
  lo : Nat
deriving DecidableEq, Repr

/-- Table 3-9, field by field. -/
def sysT3_9 : List RegField := [
  f "PSTAT" "IE" 0x0 1 1 1 1 0 0 .rw 0 0 0,
  f "PSTAT" "EXL" 0x0 1 1 1 1 1 1 .rw 0 0 0,
  f "PSTAT" "SAT_STICKY" 0x0 1 1 1 1 2 2 .w1c 0 0 0,
  f "PSTAT" "OVF_STICKY" 0x0 1 1 1 1 3 3 .w1c 0 0 0,
  f "PSTAT" "LDEPTH" 0x0 1 1 1 1 5 4 .ro 0 0 0,
  f "EPSTAT" "PSTAT copy" 0x1 1 1 1 1 5 0 .rw 0 0 0,
  f "EPSTAT" "BDS" 0x1 1 1 1 1 7 6 .rw 0 0 0,
  f "EPSTAT" "DWB_COUNT" 0x1 1 1 1 1 10 8 .rw 0 0 0,
  f "EPC" "Return address" 0x2 1 1 1 1 31 0 .rw 0 0 0,
  f "EBT" "Pending branch target" 0x3 1 1 1 1 31 0 .rw 0 0 0,
  f "CAUSE" "CODE" 0x4 1 1 1 1 4 0 .ro 0 0 1,
  f "FAULT_ADDR" "Effective address of the" 0x5 1 1 1 1 31 0 .ro 0 0 1,
  f "VBASE" "Vector base" 0x6 1 1 1 1 31 10 .rw 0 0 0,
  f "IMASK" "Enable per interrupt cau" 0x7 1 1 1 1 22 16 .rw 3 0 0,
  f "IPEND" "Pending interrupts" 0x8 1 1 1 1 22 16 .ro 0 0 0,
  f "HEEL_TAG" "Tag of the last HEEL" 0x9 1 1 1 1 11 0 .ro 0 0 1,
  f "CYCLE" "CK_CORE cycles since the" 0xA 1 1 1 1 31 0 .ro 0 0 0,
  f "CORE_ID" "Core ID" 0xB 1 1 1 1 6 0 .ro 0 0 15,
  f "LC" "Remaining iterations" 0x10 1 3 1 1 31 0 .rw 0 0 0,
  f "LS" "Body start address" 0x14 1 3 1 1 31 0 .rw 0 0 0,
  f "LE" "Body end address" 0x18 1 3 1 1 31 0 .rw 0 0 0,
  f "DWB_n_DATA" "Value" 0x20 2 5 1 1 31 0 .rw 0 0 0,
  f "DWB_n_CTL" "Destination S register" 0x21 2 5 1 1 4 0 .rw 0 0 0,
  f "DWB_n_CTL" "Bundles remaining" 0x21 2 5 1 1 7 6 .rw 0 0 0,
  f "DWB_n_CTL" "VALID" 0x21 2 5 1 1 31 31 .rw 0 0 0,
  f "XW_w" "GA_HI" 0x30 1 15 1 1 19 0 .rw 0 0 0,
  f "XW_w" "LOCAL" 0x30 1 15 1 1 31 31 .rw 0 0 0]

/-- Table 4-1, field by field. -/
def sysT4_1 : List RegField := [
  f "VL" "COUNT" 0x40 1 1 1 1 8 0 .rw 256 0 0,
  f "VSTART" "INDEX" 0x41 1 1 1 1 7 0 .rw 0 0 0,
  f "VCTL" "QUIET" 0x42 1 1 1 1 0 0 .rw 0 0 0,
  f "VFLAG" "SAT" 0x43 1 1 1 1 0 0 .w1c 0 0 0,
  f "VFLAG" "INVALID" 0x43 1 1 1 1 1 1 .w1c 0 0 0,
  f "VFLAG" "OVERFLOW" 0x43 1 1 1 1 2 2 .w1c 0 0 0,
  f "VFLAG" "UNDERFLOW" 0x43 1 1 1 1 3 3 .w1c 0 0 0,
  f "VFLAG" "GATHER_FAULT" 0x43 1 1 1 1 4 4 .w1c 0 0 0,
  f "VFLAG" "POISON" 0x43 1 1 1 1 5 5 .w1c 0 0 0,
  f "VFAULT_IDX" "Element index of the rec" 0x44 1 1 1 1 7 0 .ro 0 0 1,
  f "VFAULT_EA" "Effective address of the" 0x45 1 1 1 1 31 0 .ro 0 0 1,
  f "VFAULT_CAUSE" "0 none" 0x46 1 1 1 1 1 0 .ro 0 0 1]

/-- Table 5-5, field by field. -/
def sysT5_5 : List RegField := [
  f "LRSTAT_r" "STATE" 0x50 1 4 1 1 1 0 .ro 0 0 0,
  f "LRSTAT_r" "CAUSE" 0x50 1 4 1 1 5 2 .ro 0 0 1,
  f "LRSTAT_r" "WORD" 0x50 1 4 1 1 14 6 .ro 0 0 0,
  f "LRSTAT_r" "ABORTED" 0x50 1 4 1 1 15 15 .w1c 0 0 1,
  f "LRSTAT_r" "SAT" 0x50 1 4 1 1 16 16 .w1c 0 0 0,
  f "LRTAG" "Tag of the last pass com" 0x54 1 1 1 1 15 0 .ro 0 0 1]

/-- Table 7-7, field by field. -/
def sysT7_7 : List RegField := [
  f "QDISP" "QID latched at the last " 0x60 1 1 1 1 9 0 .ro 0 0 0,
  f "SASTAT" "DONE per async slot" 0x61 1 1 1 1 3 0 .w1c 0 0 0,
  f "SASTAT" "ARMED" 0x61 1 1 1 1 7 4 .ro 0 0 0,
  f "SASTAT" "TIMED_OUT" 0x61 1 1 1 1 11 8 .w1c 0 0 0,
  f "SASTAT" "LOST" 0x61 1 1 1 1 15 12 .w1c 0 0 0]

/-- Table 8-3, field by field. -/
def sysT8_3 : List RegField := [
  f "TASK" "TASK_ID of the running t" 0x70 1 1 1 1 15 0 .ro 0 0 0,
  f "TASK" "CLASS" 0x70 1 1 1 1 17 16 .ro 0 0 0,
  f "TASK" "END" 0x70 1 1 1 1 31 31 .w1s 0 0 0,
  f "CLAIM" "CLAIMED" 0x71 1 1 1 1 0 0 .ro 0 0 0,
  f "CLAIM" "YIELD" 0x71 1 1 1 1 1 1 .w1s 0 0 0,
  f "CLAIM" "BORROWED" 0x71 1 1 1 1 2 2 .ro 0 0 0,
  f "CLAIM_RPC" "Address after the bundle" 0x72 1 1 1 1 31 0 .ro 0 0 0,
  f "LEASH_DL" "Deadline" 0x73 1 1 1 1 31 0 .ro 0 0 0,
  f "LEASH_CTL" "EN" 0x74 1 1 1 1 0 0 .ro 0 0 0,
  f "LEASH_CTL" "EXPIRED" 0x74 1 1 1 1 1 1 .w1c 0 0 0]

/-- Table 0-5, field by field. -/
def devT0_5 : List RegField := [
  f "DEV_ID" "VENDOR" 0x0 4 1 1 1 31 16 .ro 31260 0 15,
  f "DEV_ID" "CORES" 0x0 4 1 1 1 15 8 .ro 96 0 15,
  f "DEV_ID" "STEP_MAJOR" 0x0 4 1 1 1 7 4 .ro 1 0 15,
  f "DEV_ID" "STEP_MINOR" 0x0 4 1 1 1 3 0 .ro 1 0 15,
  f "DEV_FEATURES" "QUARTERS" 0x4 4 1 1 1 3 0 .ro 12 0 15,
  f "DEV_FEATURES" "LANE_ROWS" 0x4 4 1 1 1 7 4 .ro 4 0 15,
  f "DEV_FEATURES" "LP5X_CHANNELS" 0x4 4 1 1 1 10 8 .ro 4 0 15,
  f "DEV_FEATURES" "ADRUOTH_PORTS" 0x4 4 1 1 1 19 16 .ro 8 0 15,
  f "DEV_FEATURES" "JESD_LANES" 0x4 4 1 1 1 23 20 .ro 8 0 15,
  f "DEV_FEATURES" "WEAVE" 0x4 4 1 1 1 25 24 .ro 2 0 15,
  f "DEV_FEATURES" "SQUARE_LOG2_MIB" 0x4 4 1 1 1 28 26 .ro 5 0 15]

/-- Table 6-1, field by field. -/
def devT6_1 : List RegField := [
  f "SQ_CTL" "REMOTE_WAYS" 0x100000 4 1 1 1 4 0 .rwl 8 0 3,
  f "SQ_CTL" "PATROL_EN" 0x100000 4 1 1 1 8 8 .rwl 1 0 3,
  f "LP5X_CE_COUNT" "Corrected LP5X errors" 0x100004 4 1 1 1 31 0 .ro 0 0 3,
  f "LP5X_UE_COUNT" "Uncorrectable LP5X error" 0x100008 4 1 1 1 31 0 .ro 0 0 3,
  f "SQ_ERR_COUNT" "Corrected Square errors" 0x10000C 4 1 1 1 15 0 .ro 0 0 3,
  f "SQ_ERR_COUNT" "Uncorrectable Square err" 0x10000C 4 1 1 1 31 16 .ro 0 0 3,
  f "TM_CE_COUNT" "Corrected tile" 0x100010 4 1 1 1 31 0 .ro 0 0 3,
  f "TM_UE_COUNT" "Uncorrectable tile" 0x100014 4 1 1 1 31 0 .ro 0 0 3,
  f "KENNEL_STAT" "LP5X pages retired" 0x100018 4 1 1 1 9 0 .ro 0 0 3,
  f "KENNEL_STAT" "Tile rows retired" 0x100018 4 1 1 1 18 10 .ro 0 0 3,
  f "KENNEL_STAT" "FULL" 0x100018 4 1 1 1 31 31 .ro 0 0 3,
  f "HOME_RETRY_COUNT" "RETRY responses sent by " 0x10001C 4 1 1 1 31 0 .ro 0 0 3]

/-- Table 7-5, field by field. -/
def devT7_5 : List RegField := [
  f "QCFG_q" "MODE" 0x200000 32 1024 1 1 1 0 .rw 0 0 1,
  f "QCFG_q" "DEPTH_LOG2" 0x200000 32 1024 1 1 7 4 .rw 2 0 1,
  f "QCFG_q" "CONSUMER" 0x200000 32 1024 1 1 14 8 .rw 0 0 1,
  f "QCFG_q" "QUOTA" 0x200000 32 1024 1 1 23 16 .rw 0 0 1,
  f "QRING_LO_q" "RING_BASE" 0x200004 32 1024 1 1 31 6 .rw 0 0 1,
  f "QRING_HI_q" "RING_BASE" 0x200008 32 1024 1 1 11 0 .rw 0 0 1,
  f "QSYNC_q" "CREDIT_SYNC" 0x20000C 32 1024 1 1 13 0 .rw 0 0 1,
  f "QSYNC_q" "CREDIT_EN" 0x20000C 32 1024 1 1 15 15 .rw 0 0 1,
  f "QSYNC_q" "OVF_SYNC" 0x20000C 32 1024 1 1 29 16 .rw 0 0 1,
  f "QSYNC_q" "OVF_EN" 0x20000C 32 1024 1 1 31 31 .rw 0 0 1,
  f "QSTAT_q" "COUNT" 0x200010 32 1024 1 1 12 0 .ro 0 0 0,
  f "QSTAT_q" "OVF" 0x200010 32 1024 1 1 16 16 .w1c 0 0 0,
  f "QOVF_COUNT_q" "Messages dropped" 0x200014 32 1024 1 1 31 0 .ro 0 0 0,
  f "QPTR_q" "HEAD" 0x200018 32 1024 1 1 11 0 .ro 0 0 0,
  f "QPTR_q" "TAIL" 0x200018 32 1024 1 1 27 16 .ro 0 0 0]

/-- Table 7-6, field by field. -/
def devT7_6 : List RegField := [
  f "MC_CTL_c" "EN" 0x210000 1024 64 1 1 0 0 .rw 0 0 1,
  f "MC_SEQ_c" "Next channel SEQ" 0x210004 1024 64 1 1 15 0 .ro 0 0 0,
  f "MC_MEMBER_c_m" "Queue ID" 0x210200 1024 64 4 128 9 0 .rw 0 0 1,
  f "MC_MEMBER_c_m" "Chip ID" 0x210200 1024 64 4 128 13 10 .rw 0 0 1,
  f "MC_MEMBER_c_m" "VALID" 0x210200 1024 64 4 128 31 31 .rw 0 0 1]

/-- Table 8-1, field by field. -/
def devT8_1 : List RegField := [
  f "PART_CFG_p" "QMASK" 0x300000 64 12 1 1 11 0 .rw 0 0 1,
  f "PART_CFG_p" "MODE" 0x300000 64 12 1 1 12 12 .rw 0 0 1,
  f "PART_CFG_p" "EN" 0x300000 64 12 1 1 13 13 .rw 0 0 1,
  f "PART_CFG_p" "LEND" 0x300000 64 12 1 1 14 14 .rw 0 0 1,
  f "PART_CFG_p" "CHECKPOINT_ON_PWRFAIL" 0x300000 64 12 1 1 15 15 .rw 0 0 1,
  f "PART_CFG_p" "RADIO" 0x300000 64 12 1 1 16 16 .rw 0 0 1,
  f "PART_LEND_p" "Partitions that this par" 0x300004 64 12 1 1 11 0 .rw 0 0 1,
  f "PART_LEDGER_p" "DROOP_ALLOW" 0x300008 64 12 1 1 5 0 .rw 4 0 1,
  f "PART_LEDGER_p" "MARGIN" 0x300008 64 12 1 1 15 8 .rw 20 0 1,
  f "PART_LEDGER_p" "LEAD" 0x300008 64 12 1 1 23 16 .rw 60 0 1,
  f "PART_STAT_p" "TASKS held" 0x30000C 64 12 1 1 8 0 .ro 0 0 0,
  f "PART_STAT_p" "LENT" 0x30000C 64 12 1 1 15 9 .ro 0 0 0,
  f "PART_STAT_p" "BORROWED" 0x30000C 64 12 1 1 22 16 .ro 0 0 0,
  f "PART_EVT_p" "FALLBACKS" 0x300010 64 12 1 1 15 0 .ro 0 0 0,
  f "PART_EVT_p" "CLAIM_OVERRUNS" 0x300010 64 12 1 1 31 16 .ro 0 0 0]

/-- Table 9-1, field by field. -/
def devT9_1 : List RegField := [
  f "TD_CTL_t" "EN" 0x400000 64 64 1 1 0 0 .rw 0 0 1,
  f "TD_CTL_t" "FMT" 0x400000 64 64 1 1 1 1 .rw 0 0 1,
  f "TD_CTL_t" "DEQ_OWNER" 0x400000 64 64 1 1 2 2 .rw 0 0 1,
  f "TD_CTL_t" "WATCH" 0x400000 64 64 1 1 3 3 .rw 0 0 1,
  f "TD_CTL_t" "WSLOT" 0x400000 64 64 1 1 6 4 .rw 0 0 1,
  f "TD_CTL_t" "DIM" 0x400000 64 64 1 1 20 8 .rw 0 0 1,
  f "TD_ROWS_t" "Row count" 0x400004 64 64 1 1 24 0 .rw 0 0 1,
  f "TD_SEED_t" "Hash seed" 0x400008 64 64 1 1 31 0 .rw 0 0 1,
  f "TD_ROWB_t" "ROW_BYTES" 0x40000C 64 64 1 1 13 0 .ro 0 0 1,
  f "TD_DIR_t" "Local address of this ch" 0x400010 64 64 1 1 31 12 .rw 0 0 1,
  f "TD_DIR_t" "Local address of this ch" 0x400014 64 64 1 1 11 0 .rw 0 0 1,
  f "TD_HEAP_t" "Local address of this ch" 0x400018 64 64 1 1 31 5 .rw 0 0 1,
  f "TD_HEAP_t" "Local address of this ch" 0x40001C 64 64 1 1 11 0 .rw 0 0 1,
  f "TD_SLOTS_t" "Slots in this chip" 0x400020 64 64 1 1 23 0 .rw 0 0 1,
  f "TD_STATE_t" "STATE" 0x400024 64 64 1 1 1 0 .rw 0 0 1,
  f "TD_STATE_t" "READY_SYNC" 0x400024 64 64 1 1 29 16 .rw 0 0 1,
  f "TD_SWAP_GEN_t" "Generation of the last w" 0x400028 64 64 1 1 31 0 .rw 0 0 1]

/-- Table 9-4, field by field. -/
def devT9_4 : List RegField := [
  f "POOL_GEN" "Committed generation" 0x401000 4 1 1 1 31 0 .rw 0 0 1,
  f "LOW_GEN" "Lowest bound generation" 0x401004 4 1 1 1 31 0 .ro 0 0 1,
  f "BENIGN_DIVERGENCE" "Divergences confined to " 0x401008 4 1 1 1 31 0 .ro 0 0 1,
  f "REPLICA_MISMATCH" "Mismatches in used bits" 0x40100C 4 1 1 1 31 0 .ro 0 0 1,
  f "LOOKUP_ERR" "Rows failed" 0x401010 4 1 1 1 31 0 .ro 0 0 1,
  f "BIND_b" "GEN" 0x401100 8 64 1 1 31 0 .ro 0 0 1,
  f "BIND_CFG_b" "PART" 0x401104 8 64 1 1 3 0 .rw 0 0 1,
  f "BIND_CFG_b" "EN" 0x401104 8 64 1 1 4 4 .rw 0 0 1]

/-- Table 10-2, field by field. -/
def devT10_2 : List RegField := [
  f "JRX_CTL" "EN" 0x500000 4 1 1 1 0 0 .rw 0 0 3,
  f "JRX_CTL" "MODE" 0x500000 4 1 1 1 4 1 .rw 0 0 3,
  f "JRX_CTL" "RX_PART" 0x500000 4 1 1 1 11 8 .rw 0 0 3,
  f "JRX_DLAT" "Declared latency" 0x500004 4 1 1 1 31 0 .rw 0 0 3,
  f "JRX_FIXLAT" "Internal latency" 0x500008 4 1 1 1 31 0 .ro 0 0 3,
  f "JRX_STAT" "LANE_LOCK" 0x50000C 4 1 1 1 7 0 .ro 0 0 3,
  f "JRX_STAT" "EMB_LOCK" 0x50000C 4 1 1 1 8 8 .ro 0 0 3,
  f "JRX_STAT" "LINK_UP" 0x50000C 4 1 1 1 9 9 .ro 0 0 3,
  f "JRX_STAT" "SYSREF_ERR" 0x50000C 4 1 1 1 16 16 .w1c 0 0 3,
  f "JRX_CRC_ERR" "Multiblocks failing CRC" 0x500010 4 1 1 1 31 0 .ro 0 0 3,
  f "JRX_OVERRUN" "Receive symbols dropped" 0x500014 4 1 1 1 31 0 .ro 0 0 3,
  f "JTX_CTL" "EN" 0x500020 4 1 1 1 0 0 .rw 0 0 3,
  f "JTX_CTL" "MODE" 0x500020 4 1 1 1 4 1 .rw 0 0 3,
  f "JTX_DLAT" "Declared latency" 0x500024 4 1 1 1 31 0 .rw 0 0 3,
  f "JTX_FIXLAT" "Internal latency" 0x500028 4 1 1 1 31 0 .ro 0 0 3,
  f "JTX_UNDERRUN" "Symbols sent as zeros" 0x50002C 4 1 1 1 31 0 .ro 0 0 3,
  f "JSYSREF" "PERIODIC" 0x500030 4 1 1 1 0 0 .rw 1 0 3,
  f "JSYSREF" "ARM" 0x500030 4 1 1 1 1 1 .w1s 0 0 3,
  f "JSYSREF" "SENT" 0x500030 4 1 1 1 2 2 .ro 0 0 3,
  f "JLANE_k" "LOGICAL lane" 0x500040 4 16 1 1 2 0 .rw 0 1 3,
  f "JLANE_k" "INVERT polarity" 0x500040 4 16 1 1 3 3 .rw 0 0 3,
  f "RXB_CFG" "NBUF" 0x500080 4 1 1 1 4 0 .rw 0 0 3,
  f "RXB_SYNC" "SYM_SYNC" 0x500084 4 1 1 1 13 0 .rw 0 0 3,
  f "RXB_SYNC" "FREE_SYNC" 0x500084 4 1 1 1 29 16 .rw 0 0 3,
  f "TXB_CFG" "NBUF" 0x500088 4 1 1 1 4 0 .rw 0 0 3,
  f "TXB_SYNC" "READY_SYNC" 0x50008C 4 1 1 1 13 0 .rw 0 0 3,
  f "TXB_SYNC" "FREE_SYNC" 0x50008C 4 1 1 1 29 16 .rw 0 0 3,
  f "RXB_k" "Buffer global address" 0x500100 8 32 1 1 31 0 .rw 0 0 3,
  f "RXB_k" "Buffer global address" 0x500104 8 32 1 1 15 0 .rw 0 0 3,
  f "TXB_k" "Buffer global address" 0x500200 8 32 1 1 31 0 .rw 0 0 3,
  f "TXB_k" "Buffer global address" 0x500204 8 32 1 1 15 0 .rw 0 0 3]

/-- Table 10-11, field by field. -/
def devT10_11 : List RegField := [
  f "KCTL" "RX_EN" 0x510000 4 1 1 1 0 0 .rw 0 0 3,
  f "KCTL" "TX_EN" 0x510000 4 1 1 1 1 1 .rw 0 0 3,
  f "KCTL" "BW" 0x510000 4 1 1 1 3 2 .rw 0 0 3,
  f "KCTL" "SECTOR_ID" 0x510000 4 1 1 1 15 8 .rw 0 0 3,
  f "KSLOT_PHASE" "Time of the next slot bo" 0x510004 4 1 1 1 31 0 .rw 0 0 3,
  f "KSLOT_NUM" "Number of the current sl" 0x510008 4 1 1 1 31 0 .rw 0 0 3,
  f "KMAP_BASE" "Bits" 0x510010 4 1 1 1 27 0 .rw 0 0 3,
  f "KMAP_CUR" "Current uplink ID" 0x510014 4 1 1 1 7 0 .ro 0 0 3,
  f "KMAP_CUR" "Current downlink ID" 0x510014 4 1 1 1 15 8 .ro 0 0 3,
  f "KMAP_PEND" "ID" 0x510018 4 2 1 1 7 0 .ro 0 0 3,
  f "KMAP_PEND" "Target superframe" 0x510018 4 2 1 1 30 8 .ro 0 0 3,
  f "KMAP_PEND" "VALID" 0x510018 4 2 1 1 31 31 .ro 0 0 3,
  f "KMAP_ERR" "MAP_CORRUPT count" 0x510020 4 1 1 1 31 0 .ro 0 0 3,
  f "KMAP_VERIFIED" "Bit i" 0x510040 4 1 1 1 31 0 .ro 1 0 11,
  f "KMAP_VERIFIED" "Bit i" 0x510044 4 7 1 1 31 0 .ro 0 0 11]

/-- Table 10-14, field by field. -/
def devT10_14 : List RegField := [
  f "WCTL" "EN" 0x520000 4 1 1 1 0 0 .rw 0 0 3,
  f "WCTL" "ANT" 0x520000 4 1 1 1 3 1 .rw 0 0 3,
  f "WCTL" "H" 0x520000 4 1 1 1 7 4 .rw 6 0 3,
  f "WDET_Q" "Queue ID" 0x520004 4 1 1 1 9 0 .rw 0 0 3,
  f "WRING" "Local LP5X address of th" 0x520008 4 1 1 1 31 12 .rw 0 0 3,
  f "WRING" "Local LP5X address of th" 0x52000C 4 1 1 1 11 0 .rw 0 0 3,
  f "WRING_LOG2" "Ring bytes per channel" 0x520010 4 1 1 1 4 0 .rw 20 0 3,
  f "WFA_TARGET" "False alarms per hour" 0x520014 4 1 1 1 15 0 .rw 4 0 3,
  f "WSTAT" "OUT_OF_BAND per channel" 0x520018 4 1 1 1 15 0 .ro 0 0 3,
  f "WTHR_s" "Threshold" 0x520020 4 8 1 1 7 0 .rw 72 0 3,
  f "WCH_c" "EN" 0x520040 8 16 1 1 0 0 .rw 0 0 3,
  f "WCH_c" "BW" 0x520040 8 16 1 1 2 1 .rw 0 0 3,
  f "WCH_c" "SFMASK" 0x520040 8 16 1 1 10 3 .rw 255 0 3,
  f "WCHF_c" "Signed centre offset" 0x520044 8 16 1 1 25 0 .rw 0 0 3,
  f "WADJ_c" "Warden" 0x5200C0 4 16 1 1 7 0 .rw 0 0 3,
  f "WCNT_c" "Detections" 0x520100 8 16 1 1 31 0 .ro 0 0 3,
  f "WFCNT_c" "False alarms reported" 0x520104 8 16 1 1 31 0 .ro 0 0 3]

/-- Table 11-2, field by field. -/
def devT11_2 : List RegField := [
  f "RXG_STAGE_s" "PRESENT" 0x530000 4 16 1 1 0 0 .rw 0 0 3,
  f "RXG_STAGE_s" "FORCE_PLAIN" 0x530000 4 16 1 1 1 1 .rw 0 0 3,
  f "RXG_STAGE_s" "MODEL_ID" 0x530000 4 16 1 1 15 8 .rw 0 0 3]

/-- Table 11-5, field by field. -/
def devT11_5 : List RegField := [
  f "WV_CTL" "EN" 0x540000 256 2 1 1 0 0 .rw 0 0 3,
  f "WV_CTL" "SCRUB_EN" 0x540000 256 2 1 1 1 1 .rw 1 0 3,
  f "WV_CTL" "SEL" 0x540000 256 2 1 1 2 2 .rw 0 0 3,
  f "WV_PLANE" "IMAGE_ID loaded" 0x540004 256 2 1 1 31 0 .ro 0 0 3,
  f "WV_PLANE" "IMAGE_ID loaded" 0x540008 256 2 1 1 31 0 .ro 0 0 3,
  f "WV_PSTAT" "VALID per plane" 0x54000C 256 2 1 1 1 0 .ro 0 0 3,
  f "WV_PSTAT" "FAILED per plane" 0x54000C 256 2 1 1 3 2 .ro 0 0 3,
  f "WV_PSTAT" "BOUND" 0x54000C 256 2 1 1 4 4 .ro 0 0 3,
  f "WV_FIFO" "Descriptors held" 0x540010 256 2 1 1 8 0 .ro 0 0 3,
  f "WV_CW_COUNT" "Codewords decoded" 0x540014 256 2 1 1 31 0 .ro 0 0 3,
  f "WV_ITER_TOTAL" "Iterations run" 0x540018 256 2 1 1 31 0 .ro 0 0 3,
  f "WV_LATE" "Codewords stopped by dea" 0x54001C 256 2 1 1 31 0 .ro 0 0 3,
  f "WV_SCRUB_FIX" "Frames repaired" 0x540020 256 2 1 1 31 0 .ro 0 0 3,
  f "WV_BENIGN" "Benign divergences" 0x540024 256 2 1 1 31 0 .ro 0 0 3,
  f "WV_DROPPED" "Descriptors dropped" 0x540028 256 2 1 1 31 0 .ro 0 0 3]

/-- Table 12-5, field by field. -/
def devT12_5 : List RegField := [
  f "TIME_NS" "NS" 0x560000 4 1 1 1 31 0 .ro 0 0 11,
  f "TIME_HI" "Latched EPOCH_EFF" 0x560004 4 1 1 1 31 0 .ro 0 0 0,
  f "TIME_FRAC" "Latched FRAC" 0x560008 4 1 1 1 23 0 .ro 0 0 0,
  f "TIME_EPOCH" "EPOCH" 0x56000C 4 1 1 1 31 0 .rw 0 0 11,
  f "TIME_INC" "INC" 0x560010 4 1 1 1 31 0 .rw 68266667 0 3,
  f "TIME_SLEW" "Remaining slew" 0x560014 4 1 1 1 31 0 .rw 0 0 3,
  f "TIME_STEP" "Pending step" 0x560018 4 1 1 1 31 0 .rw 0 0 3,
  f "TIME_STAT" "WRAP_PENDING" 0x56001C 4 1 1 1 0 0 .ro 0 0 11,
  f "TIME_STAT" "HALF" 0x56001C 4 1 1 1 1 1 .ro 0 0 11,
  f "TIME_STAT" "STEP_PEND" 0x56001C 4 1 1 1 2 2 .ro 0 0 3,
  f "TIME_STAT" "SLEW_BUSY" 0x56001C 4 1 1 1 3 3 .ro 0 0 3,
  f "TIME_STAT" "VALID" 0x56001C 4 1 1 1 4 4 .rw 0 0 3,
  f "TIME_STAT" "TIME_SUSPECT" 0x56001C 4 1 1 1 5 5 .ro 0 0 0,
  f "TIME_STAT" "CHECK_LOST" 0x56001C 4 1 1 1 6 6 .ro 0 0 0,
  f "TIME_STAT" "HELD" 0x56001C 4 1 1 1 7 7 .ro 0 0 3,
  f "TIME_STAT" "EPOCH_LATE" 0x56001C 4 1 1 1 8 8 .w1c 0 0 3,
  f "TIME_STAT" "STEP_SEQ" 0x56001C 4 1 1 1 23 16 .ro 0 0 3,
  f "REF_TUNE" "Trim" 0x560020 4 1 1 1 15 0 .rw 0 0 3,
  f "PPS_OUT_NEXT" "Time of the next rise" 0x560030 4 1 1 1 31 0 .rw 0 0 3,
  f "PPS_OUT_PERIOD" "PERIOD" 0x560034 4 1 1 1 31 0 .rw 1000000000 0 3,
  f "PPS_OUT_CTL" "EN" 0x560038 4 1 1 1 0 0 .rw 0 0 3,
  f "PPS_OUT_CTL" "WIDTH" 0x560038 4 1 1 1 27 8 .rw 100000 0 3,
  f "PPS_IN_TS" "NS at the last edge" 0x560040 4 1 1 1 31 0 .ro 0 0 3,
  f "PPS_IN_HI" "EPOCH_EFF at the last ed" 0x560044 4 1 1 1 31 0 .ro 0 0 3,
  f "PPS_IN_CTL" "EN" 0x560048 4 1 1 1 0 0 .rw 0 0 3,
  f "PPS_IN_CTL" "FALLING" 0x560048 4 1 1 1 1 1 .rw 0 0 3,
  f "PPS_IN_CTL" "LOST" 0x560048 4 1 1 1 2 2 .ro 0 0 3,
  f "PPS_IN_CTL" "STEPPED" 0x560048 4 1 1 1 3 3 .ro 0 0 3,
  f "PPS_IN_CTL" "PERIOD_MS" 0x560048 4 1 1 1 31 16 .rw 1000 0 3,
  f "PPS_IN_COUNT" "Edges" 0x56004C 4 1 1 1 31 0 .ro 0 0 3,
  f "TCHK_CTL" "EN" 0x560060 4 1 1 1 0 0 .rw 1 0 3,
  f "TCHK_OFFSET" "TCHK_OFFSET" 0x560064 4 1 1 1 31 0 .ro 0 0 0,
  f "TCHK_RTT" "Round trip" 0x560068 4 1 1 1 31 0 .ro 0 0 0,
  f "TCHK_COUNT" "Checks completed" 0x56006C 4 1 1 1 15 0 .ro 0 0 0,
  f "TCHK_COUNT" "Checks lost" 0x56006C 4 1 1 1 31 16 .ro 0 0 0,
  f "ETH_RXLAT_p" "Declared receive latency" 0x560080 8 3 1 1 31 0 .rw 0 0 3,
  f "ETH_TXLAT_p" "Declared transmit latenc" 0x560084 8 3 1 1 31 0 .rw 0 0 3]

/-- Table 13-10, field by field. -/
def devT13_10 : List RegField := [
  f "ADR_PCTL_p" "EN" 0x580000 64 8 1 1 0 0 .rw 0 0 0,
  f "ADR_PCTL_p" "WIDTH_MAX" 0x580000 64 8 1 1 2 1 .rw 0 0 3,
  f "ADR_PSTAT_p" "STATE" 0x580004 64 8 1 1 2 0 .ro 0 0 0,
  f "ADR_PSTAT_p" "WIDTH" 0x580004 64 8 1 1 4 3 .ro 0 0 0,
  f "ADR_PSTAT_p" "PEER_CHIP" 0x580004 64 8 1 1 11 8 .ro 0 0 0,
  f "ADR_PSTAT_p" "PEER_PORT" 0x580004 64 8 1 1 14 12 .ro 0 0 0,
  f "ADR_PSTAT_p" "PEER_VALID" 0x580004 64 8 1 1 15 15 .ro 0 0 0,
  f "ADR_CRC_ERR_p" "Flits failing CRC" 0x580008 64 8 1 1 31 0 .ro 0 0 3,
  f "ADR_REPLAY_p" "Resends under R415" 0x58000C 64 8 1 1 31 0 .ro 0 0 3,
  f "ADR_RETRAIN_p" "Retrains" 0x580010 64 8 1 1 15 0 .ro 0 0 3,
  f "ADR_RETRAIN_p" "Falls to DOWN" 0x580010 64 8 1 1 31 16 .ro 0 0 3,
  f "ADR_CHIP" "CHIP_ID in effect" 0x580400 4 1 1 1 3 0 .ro 0 0 0,
  f "ADR_CHIP" "SELF_STATE" 0x580400 4 1 1 1 6 4 .ro 0 0 0,
  f "ADR_CHIP" "MEPOCH" 0x580400 4 1 1 1 23 8 .ro 0 0 0,
  f "ADR_MEMBERS" "Configured" 0x580404 4 1 1 1 15 0 .ro 0 0 0,
  f "ADR_MEMBERS" "Current members" 0x580404 4 1 1 1 31 16 .ro 0 0 0,
  f "ADR_PEERS" "LOST" 0x580408 4 1 1 1 15 0 .ro 0 0 0,
  f "ADR_PEERS" "QUARANTINED" 0x580408 4 1 1 1 31 16 .ro 0 0 0,
  f "ADR_LEADER" "Leader chip ID" 0x58040C 4 1 1 1 3 0 .ro 0 0 0,
  f "ADR_LEADER" "QUORUM" 0x58040C 4 1 1 1 4 4 .ro 0 0 0,
  f "ADR_LEADER" "LEADER_VALID" 0x58040C 4 1 1 1 5 5 .ro 0 0 0,
  f "ADR_PROTO" "Own PROTO" 0x580410 4 1 1 1 15 0 .ro 258 0 15,
  f "ADR_PROTO" "Domain PROTO minor in" 0x580410 4 1 1 1 31 16 .ro 0 0 0,
  f "ADR_FEAT" "Domain feature intersect" 0x580414 4 1 1 1 31 0 .ro 0 0 0,
  f "ADR_BENIGN" "Blocks with nonzero rese" 0x580418 4 1 1 1 31 0 .ro 0 0 3,
  f "ADR_BAD_PKT" "Reserved PTYPE" 0x58041C 4 1 1 1 15 0 .ro 0 0 3,
  f "ADR_BAD_PKT" "ADR_DCTL_DROP" 0x58041C 4 1 1 1 31 16 .ro 0 0 3,
  f "ADR_DIGEST" "Own digest" 0x580420 16 1 1 1 31 0 .ro 0 0 0,
  f "ADR_DIGEST" "Own digest" 0x580424 16 1 1 1 31 0 .ro 0 0 0,
  f "ADR_DIGEST" "Own digest" 0x580428 16 1 1 1 31 0 .ro 0 0 0,
  f "ADR_DIGEST" "Own digest" 0x58042C 16 1 1 1 31 0 .ro 0 0 0,
  f "ADR_ROUTE_d" "MIN_PORTS" 0x580440 4 16 1 1 7 0 .rw 0 0 0,
  f "ADR_ROUTE_d" "ESC_PORT" 0x580440 4 16 1 1 10 8 .rw 0 0 0,
  f "ADR_ROUTE_d" "ESC_VALID" 0x580440 4 16 1 1 11 11 .rw 0 0 0]

/-- Table 14-4, field by field. -/
def devT14_4 : List RegField := [
  f "HIF_CTL" "BWIN_LOCAL" 0x5A0000 4 1 1 1 0 0 .rw 1 0 3,
  f "HIF_CTL" "BWIN_CHIP" 0x5A0000 4 1 1 1 4 1 .rw 0 0 3,
  f "HIF_STAT" "LINK_UP" 0x5A0004 4 1 1 1 0 0 .ro 0 0 3,
  f "HIF_STAT" "SPEED" 0x5A0004 4 1 1 1 3 1 .ro 0 0 3,
  f "HIF_STAT" "WIDTH" 0x5A0004 4 1 1 1 7 4 .ro 0 0 3,
  f "HIF_STAT" "ROLE" 0x5A0004 4 1 1 1 8 8 .ro 0 0 3,
  f "HIF_STAT" "POOL_READY" 0x5A0004 4 1 1 1 9 9 .rw 0 0 3,
  f "HIF_STAT" "FLR_SEEN" 0x5A0004 4 1 1 1 10 10 .w1c 0 0 3,
  f "HIF_DENIED" "Host writes denied" 0x5A0008 4 1 1 1 31 0 .ro 0 0 3,
  f "HIF_CA" "Completer Aborts sent" 0x5A000C 4 1 1 1 31 0 .ro 0 0 3,
  f "HIF_POISON" "Poisoned TLPs sent or re" 0x5A0010 4 1 1 1 31 0 .ro 0 0 3,
  f "HDMA_CFG_c" "OWNER partition" 0x5A0100 4 8 1 1 3 0 .rw 0 0 3,
  f "HDMA_CFG_c" "EN" 0x5A0100 4 8 1 1 4 4 .rw 0 0 3,
  f "HDMA_STAT_c" "Descriptors held" 0x5A0140 4 8 1 1 4 0 .ro 0 0 0,
  f "HDMA_STAT_c" "DROPPED" 0x5A0140 4 8 1 1 31 16 .ro 0 0 3]

/-- Table 14-7, field by field. -/
def devT14_7 : List RegField := [
  f "ETH_CTL_p" "EN" 0x5B0000 4096 3 1 1 0 0 .rw 0 0 1,
  f "ETH_CTL_p" "SPEED" 0x5B0000 4096 3 1 1 2 1 .rw 0 0 3,
  f "ETH_CTL_p" "FEC" 0x5B0000 4096 3 1 1 4 3 .rw 0 0 3,
  f "ETH_CTL_p" "AN_EN" 0x5B0000 4096 3 1 1 5 5 .rw 0 0 3,
  f "ETH_CTL_p" "PROMISC" 0x5B0000 4096 3 1 1 6 6 .rw 0 0 3,
  f "ETH_CTL_p" "PAUSE_RX" 0x5B0000 4096 3 1 1 7 7 .rw 0 0 3,
  f "ETH_CTL_p" "MAXLEN" 0x5B0000 4096 3 1 1 29 16 .rw 1522 0 3,
  f "ETH_STAT_p" "LINK" 0x5B0004 4096 3 1 1 0 0 .ro 0 0 0,
  f "ETH_STAT_p" "AN_DONE" 0x5B0004 4096 3 1 1 1 1 .ro 0 0 0,
  f "ETH_STAT_p" "SGMII_SPEED" 0x5B0004 4096 3 1 1 3 2 .ro 0 0 0,
  f "ETH_STAT_p" "FEC_LOCK" 0x5B0004 4096 3 1 1 4 4 .ro 0 0 0,
  f "ETH_CNT_p" "RX_OK" 0x5B0010 4096 3 4 7 31 0 .ro 0 0 3,
  f "RING_BASE_r" "Local LP5X address" 0x5B0100 4096 3 32 8 31 5 .rw 0 0 3,
  f "RING_BASE_r" "Local LP5X address" 0x5B0104 4096 3 32 8 11 0 .rw 0 0 3,
  f "RING_CFG_r" "SIZE_LOG2" 0x5B0108 4096 3 32 8 3 0 .rw 4 0 3,
  f "RING_CFG_r" "OWNER" 0x5B0108 4096 3 32 8 7 4 .rw 15 0 1,
  f "RING_CFG_r" "NOTIFY_Q" 0x5B0108 4096 3 32 8 17 8 .rw 0 0 3,
  f "RING_CFG_r" "NOTIFY_EN" 0x5B0108 4096 3 32 8 18 18 .rw 0 0 3,
  f "RING_CFG_r" "NOTIFY_EVERY" 0x5B0108 4096 3 32 8 31 24 .rw 1 0 3,
  f "RING_HEAD_r" "HEAD" 0x5B010C 4096 3 32 8 11 0 .ro 0 0 1,
  f "RING_TAIL_r" "TAIL" 0x5B0110 4096 3 32 8 11 0 .rw 0 0 1,
  f "FILT_i" "DMAC" 0x5B0200 4096 3 16 16 31 0 .rw 0 0 3,
  f "FILT_i" "DMAC" 0x5B0204 4096 3 16 16 15 0 .rw 0 0 3,
  f "FILT_CFG_i" "ETYPE" 0x5B0208 4096 3 16 16 15 0 .rw 0 0 3,
  f "FILT_CFG_i" "MATCH_DMAC" 0x5B0208 4096 3 16 16 16 16 .rw 0 0 3,
  f "FILT_CFG_i" "MATCH_ETYPE" 0x5B0208 4096 3 16 16 17 17 .rw 0 0 3,
  f "FILT_CFG_i" "RING" 0x5B0208 4096 3 16 16 19 18 .rw 0 0 3,
  f "FILT_CFG_i" "VALID" 0x5B0208 4096 3 16 16 31 31 .rw 0 0 3]

/-- Table 14-10, field by field. -/
def devT14_10 : List RegField := [
  f "XSPI_CTL" "MODE_8D" 0x5C0000 4 1 1 1 0 0 .rw 0 0 3,
  f "XSPI_CTL" "DUMMY" 0x5C0000 4 1 1 1 5 1 .rw 20 0 3,
  f "XSPI_CTL" "CLK" 0x5C0000 4 1 1 1 7 6 .rw 3 0 3,
  f "XSPI_STAT" "BUSY_A" 0x5C0004 4 1 1 1 0 0 .ro 0 0 0,
  f "XSPI_STAT" "BUSY_B" 0x5C0004 4 1 1 1 1 1 .ro 0 0 0,
  f "XSPI_STAT" "PRESENT_A" 0x5C0004 4 1 1 1 2 2 .ro 0 0 3,
  f "XSPI_STAT" "PRESENT_B" 0x5C0004 4 1 1 1 3 3 .ro 0 0 3,
  f "XSPI_CMD" "Warden command interface" 0x5C0008 4 1 1 1 31 0 .rw 0 0 0,
  f "XSPI_BUSY_READS" "Reads refused under R463" 0x5C0010 4 1 1 1 31 0 .ro 0 0 3,
  f "XSPI_DQS_ERR" "Strobe timeouts" 0x5C0014 4 1 1 1 31 0 .ro 0 0 3]

/-- Table 15-9, field by field. -/
def devT15_9 : List RegField := [
  f "WDN_STAT" "RUNNING" 0x5E0000 4 1 1 1 0 0 .ro 0 0 3,
  f "WDN_STAT" "SEALED" 0x5E0000 4 1 1 1 1 1 .ro 0 0 3,
  f "WDN_STAT" "IMAGE" 0x5E0000 4 1 1 1 2 2 .ro 0 0 3,
  f "WDN_STAT" "RESTARTS" 0x5E0000 4 1 1 1 15 8 .ro 0 0 3,
  f "WDN_HB" "Heartbeat" 0x5E0004 4 1 1 1 31 0 .ro 0 0 3,
  f "WDN_SEAL" "SEAL" 0x5E0008 4 1 1 1 0 0 .w1s 0 0 3]

/-- Table 16-6, field by field. -/
def devT16_6 : List RegField := [
  f "CLK_STAT" "PLL_LOCK" 0x5F0000 4 1 1 1 0 0 .ro 0 0 0,
  f "CLK_STAT" "REF_OK" 0x5F0000 4 1 1 1 1 1 .ro 0 0 0,
  f "CLK_STAT" "REF_LOSS" 0x5F0000 4 1 1 1 15 8 .ro 0 0 3,
  f "PWR_STATE" "STATE" 0x5F0004 4 1 1 1 2 0 .ro 1 0 3,
  f "PWR_STATE" "PWRFAIL" 0x5F0004 4 1 1 1 3 3 .ro 0 0 0,
  f "PWR_STATE" "SHED" 0x5F0004 4 1 1 1 4 4 .ro 0 0 0,
  f "PWR_STATE" "LEASE_EXPIRED" 0x5F0004 4 1 1 1 5 5 .ro 0 0 3,
  f "PWR_CAP" "Chip cap" 0x5F0008 4 1 1 1 15 0 .rw 12000 0 3,
  f "VCORE" "Rail target" 0x5F000C 4 1 1 1 9 0 .ro 750 0 3,
  f "VCORE" "Ageing margin" 0x5F000C 4 1 1 1 14 10 .rw 0 0 3,
  f "PF_CTL" "PF_BUDGET_US" 0x5F0010 4 1 1 1 15 0 .rw 6000 0 11,
  f "PWR_WAKE" "WAKE_ON_WHISPER" 0x5F0014 4 1 1 1 0 0 .rw 0 0 11,
  f "PWR_WAKE" "RESTART_MS" 0x5F0014 4 1 1 1 31 16 .rw 1000 0 11,
  f "PWR_RADIO" "DIV_MAX code" 0x5F0018 4 1 1 1 2 0 .rw 2 0 3,
  f "QCLK_q" "DIV code" 0x5F0040 4 12 1 1 2 0 .rw 0 0 3,
  f "QCLK_q" "GATED" 0x5F0040 4 12 1 1 3 3 .ro 1 0 1,
  f "QCLK_q" "DRAINING" 0x5F0040 4 12 1 1 4 4 .ro 0 0 1,
  f "QCLK_q" "STRETCH" 0x5F0040 4 12 1 1 5 5 .ro 0 0 0,
  f "QCLK_q" "DROOP_THR" 0x5F0040 4 12 1 1 13 8 .rw 30 0 3,
  f "DROOP_CNT_q" "Stretch events" 0x5F0080 4 12 1 1 31 0 .ro 0 0 3,
  f "PWR_PCAP_p" "Partition share" 0x5F00C0 4 12 1 1 15 0 .rw 0 0 1,
  f "EG_STAT" "Input voltage" 0x5F0100 4 1 1 1 12 0 .ro 0 0 0,
  f "EG_STAT" "PWRFAIL_N level" 0x5F0100 4 1 1 1 16 16 .ro 0 0 0,
  f "EG_STAT" "OV" 0x5F0100 4 1 1 1 17 17 .ro 0 0 0,
  f "EG_STAT" "SWITCH_ON" 0x5F0100 4 1 1 1 18 18 .ro 0 0 0,
  f "EG_HOLDUP" "Hold" 0x5F0104 4 1 1 1 15 0 .rw 8000 0 3,
  f "EG_PFCOUNT" "PWRFAIL_N assertions" 0x5F0108 4 1 1 1 15 0 .ro 0 0 11]

/-- Table 17-6, field by field. -/
def devT17_6 : List RegField := [
  f "RST_CAUSE" "POWER_ON" 0x5E0100 4 1 1 1 0 0 .ro 0 0 0,
  f "RST_CAUSE" "WARM_CMD" 0x5E0100 4 1 1 1 1 1 .ro 0 0 0,
  f "RST_CAUSE" "WARM_REF" 0x5E0100 4 1 1 1 2 2 .ro 0 0 0,
  f "RST_CAUSE" "WARM_FALLBACK" 0x5E0100 4 1 1 1 3 3 .ro 0 0 0,
  f "RST_CAUSE" "CORE_CMD" 0x5E0100 4 1 1 1 4 4 .ro 0 0 0,
  f "RST_CAUSE" "DORMANT_EXIT" 0x5E0100 4 1 1 1 5 5 .ro 0 0 0,
  f "RST_CAUSE" "BROWNOUT" 0x5E0100 4 1 1 1 6 6 .ro 0 0 0,
  f "BOOT_STAT" "IMAGE" 0x5E0104 4 1 1 1 0 0 .ro 0 0 3,
  f "BOOT_STAT" "FALLBACK" 0x5E0104 4 1 1 1 1 1 .ro 0 0 3,
  f "BOOT_STAT" "BCB" 0x5E0104 4 1 1 1 3 2 .ro 0 0 3,
  f "BOOT_STAT" "FAIL_A" 0x5E0104 4 1 1 1 7 4 .ro 0 0 3,
  f "BOOT_STAT" "FAIL_B" 0x5E0104 4 1 1 1 11 8 .ro 0 0 3,
  f "BOOT_STAT" "ROLLBACK floor" 0x5E0104 4 1 1 1 23 16 .ro 0 0 3,
  f "BOOT_STAT" "BOOT_ATTEMPTS" 0x5E0104 4 1 1 1 31 24 .ro 0 0 7,
  f "CKPT_BASE" "Bits" 0x5E0108 4 1 1 1 23 0 .rw 0 0 11,
  f "CKPT_STAT" "VALID per partition" 0x5E010C 4 1 1 1 11 0 .ro 0 0 9,
  f "CKPT_STAT" "COMPLETE" 0x5E010C 4 1 1 1 12 12 .ro 0 0 9,
  f "CKPT_STAT" "LEAVE_DONE" 0x5E010C 4 1 1 1 13 13 .ro 0 0 9,
  f "CKPT_STAT" "Time used" 0x5E010C 4 1 1 1 31 16 .ro 0 0 9,
  f "CKPT_CTL" "DISCARD per partition" 0x5E0110 4 1 1 1 11 0 .w1s 0 0 0]

/-- Table 18-6, field by field. -/
def devT18_6 : List RegField := [
  f "INT_VRF_PARITY" "Vector parity errors" 0x5E0200 4 1 1 1 31 0 .ro 0 0 3,
  f "INT_WPARITY" "Weight parity errors" 0x5E0204 4 1 1 1 31 0 .ro 0 0 3,
  f "INT_CTX_CRC" "Row context CRC mismatch" 0x5E0208 4 1 1 1 31 0 .ro 0 0 3,
  f "INT_UE" "RING_UE" 0x5E020C 4 1 1 1 15 0 .ro 0 0 3,
  f "INT_UE" "UNIT_STATE_UE" 0x5E020C 4 1 1 1 31 16 .ro 0 0 3,
  f "EVT_LOST" "Events dropped at the FI" 0x5E0210 4 1 1 1 31 0 .ro 0 0 3,
  f "HOLDUP_C" "C_low" 0x5E0214 4 1 1 1 15 0 .ro 0 0 3,
  f "HOLDUP_C" "ESR" 0x5E0214 4 1 1 1 31 16 .ro 0 0 3,
  f "HOLDUP_AGE" "Hours since the last tes" 0x5E0218 4 1 1 1 15 0 .ro 65535 0 3,
  f "HOLDUP_AGE" "VALID" 0x5E0218 4 1 1 1 16 16 .ro 0 0 3,
  f "RO_DRIFT_q" "Signed drift" 0x5E0220 4 12 1 1 15 0 .ro 0 0 3]

/-- The MSI-X table and PBA (R448), in the layout of the PCIe specification: mask set at reset (log entry 10), field by field. -/
def devTmsix : List RegField := [
  f "MSIX_v" "ADDR_LO" 0x5A1000 16 128 1 1 31 0 .rw 0 0 3,
  f "MSIX_v" "ADDR_HI" 0x5A1004 16 128 1 1 31 0 .rw 0 0 3,
  f "MSIX_v" "DATA" 0x5A1008 16 128 1 1 31 0 .rw 0 0 3,
  f "MSIX_v" "MASK" 0x5A100C 16 128 1 1 0 0 .rw 1 0 3,
  f "PBA_w" "PENDING" 0x5A1800 4 4 1 1 31 0 .ro 0 0 3]

/-- The shard maps (R288; access and reset as the rest of Table 9-1, log entry 10), field by field. -/
def devTshard : List RegField := [
  f "SHARD_MAP_t" "OWNERS" 0x410000 128 64 4 32 31 0 .rw 0 0 1]

/-- The skew counters (R305; reset log entry 10), field by field. -/
def devTskew : List RegField := [
  f "SKEW_k" "LAST" 0x430000 8 2048 1 1 15 0 .ro 0 0 1,
  f "SKEW_k" "PEAK" 0x430000 8 2048 1 1 31 16 .ro 0 0 1,
  f "SKEW_k" "TOTAL" 0x430004 8 2048 1 1 31 0 .ro 0 0 1]

/-- The hot-row table (R306; reset log entry 10), field by field. -/
def devThot : List RegField := [
  f "HOT_i" "ROW" 0x434000 8 64 1 1 23 0 .ro 0 0 1,
  f "HOT_i" "TABLE" 0x434000 8 64 1 1 29 24 .ro 0 0 1,
  f "HOT_i" "VALID" 0x434000 8 64 1 1 31 31 .ro 0 0 1,
  f "HOT_i" "COUNT" 0x434004 8 64 1 1 31 0 .ro 0 0 1]

/-- KMAP_RESULT (R336, Table 10-10; reset log entry 10), field by field. -/
def devTkmapres : List RegField := [
  f "KMAP_RESULT" "ID" 0x511008 1 1 1 1 7 0 .ro 0 0 3,
  f "KMAP_RESULT" "DIR" 0x511008 1 1 1 1 8 8 .ro 0 0 3,
  f "KMAP_RESULT" "STATUS" 0x511008 1 1 1 1 11 9 .ro 0 0 3,
  f "KMAP_RESULT" "BUSY" 0x511008 1 1 1 1 31 31 .ro 0 0 3]

/-- The rows of the device register region that can name offset `off`: the tables of its 64 KiB page. -/
def devRows (off : Nat) : List RegField :=
  match off / 0x10000 with
  | 0x0 => devT0_5
  | 0x10 => devT6_1
  | 0x20 => devT7_5
  | 0x21 => devT7_6
  | 0x30 => devT8_1
  | 0x40 => devT9_1 ++ devT9_4
  | 0x41 => devTshard
  | 0x43 => devTskew ++ devThot
  | 0x50 => devT10_2
  | 0x51 => devT10_11 ++ devTkmapres
  | 0x52 => devT10_14
  | 0x53 => devT11_2
  | 0x54 => devT11_5
  | 0x56 => devT12_5
  | 0x58 => devT13_10
  | 0x5A => devT14_4 ++ devTmsix
  | 0x5B => devT14_7
  | 0x5C => devT14_10
  | 0x5E => devT15_9 ++ devT17_6 ++ devT18_6
  | 0x5F => devT16_6
  | _ => []

/-- Every row of the Pilot system register space (R96). -/
def sysRows : List RegField :=
  sysT3_9 ++ sysT4_1 ++ sysT5_5 ++ sysT7_7 ++ sysT8_3

/-- The place of a word in a row's array, where the row names the word: its index and sub-index. -/
def rowIndex (r : RegField) (off : Nat) : Option (Nat × Nat) :=
  if off < r.base then none
  else
    let d := off - r.base
    let i := d / r.stride
    let e := d % r.stride
    if i < r.count ∧ e % r.stride2 = 0 ∧ e / r.stride2 < r.count2 then some (i, e / r.stride2) else none

/-- The reset value a list of rows gives a word. -/
def rowsReset (rows : List RegField) (off : Nat) : Nat :=
  rows.foldl (fun w r =>
    match rowIndex r off with
    | some (i, j) => putBits w r.hi r.lo (r.reset + r.resetStep * (i + j))
    | none => w) 0

/-- Does any row name the word? -/
def rowsName (rows : List RegField) (off : Nat) : Bool := rows.any (fun r => (rowIndex r off).isSome)

abbrev R.PSTAT.IE : Fld := ⟨0x0, 0, 0⟩
abbrev R.PSTAT.EXL : Fld := ⟨0x0, 1, 1⟩
abbrev R.PSTAT.SAT_STICKY : Fld := ⟨0x0, 2, 2⟩
abbrev R.PSTAT.OVF_STICKY : Fld := ⟨0x0, 3, 3⟩
abbrev R.PSTAT.LDEPTH : Fld := ⟨0x0, 5, 4⟩
abbrev R.EPSTAT.PSTAT : Fld := ⟨0x1, 5, 0⟩
abbrev R.EPSTAT.BDS : Fld := ⟨0x1, 7, 6⟩
abbrev R.EPSTAT.DWB_COUNT : Fld := ⟨0x1, 10, 8⟩
abbrev R.EPC.val : Fld := ⟨0x2, 31, 0⟩
abbrev R.EBT.val : Fld := ⟨0x3, 31, 0⟩
abbrev R.CAUSE.CODE : Fld := ⟨0x4, 4, 0⟩
abbrev R.FAULT_ADDR.val : Fld := ⟨0x5, 31, 0⟩
abbrev R.VBASE.val : Fld := ⟨0x6, 31, 10⟩
abbrev R.IMASK.val : Fld := ⟨0x7, 22, 16⟩
abbrev R.IPEND.val : Fld := ⟨0x8, 22, 16⟩
abbrev R.HEEL_TAG.val : Fld := ⟨0x9, 11, 0⟩
abbrev R.CYCLE.val : Fld := ⟨0xA, 31, 0⟩
abbrev R.CORE_ID.val : Fld := ⟨0xB, 6, 0⟩
abbrev R.LC.val (i : Nat) : Fld := ⟨0x10 + 1 * i, 31, 0⟩
abbrev R.LS.val (i : Nat) : Fld := ⟨0x14 + 1 * i, 31, 0⟩
abbrev R.LE.val (i : Nat) : Fld := ⟨0x18 + 1 * i, 31, 0⟩
abbrev R.DWB_DATA.val (i : Nat) : Fld := ⟨0x20 + 2 * i, 31, 0⟩
abbrev R.DWB_CTL.DEST (i : Nat) : Fld := ⟨0x21 + 2 * i, 4, 0⟩
abbrev R.DWB_CTL.LEFT (i : Nat) : Fld := ⟨0x21 + 2 * i, 7, 6⟩
abbrev R.DWB_CTL.VALID (i : Nat) : Fld := ⟨0x21 + 2 * i, 31, 31⟩
abbrev R.XW.GA_HI (i : Nat) : Fld := ⟨0x30 + 1 * i, 19, 0⟩
abbrev R.XW.LOCAL (i : Nat) : Fld := ⟨0x30 + 1 * i, 31, 31⟩
abbrev R.VL.COUNT : Fld := ⟨0x40, 8, 0⟩
abbrev R.VSTART.INDEX : Fld := ⟨0x41, 7, 0⟩
abbrev R.VCTL.QUIET : Fld := ⟨0x42, 0, 0⟩
abbrev R.VFLAG.SAT : Fld := ⟨0x43, 0, 0⟩
abbrev R.VFLAG.INVALID : Fld := ⟨0x43, 1, 1⟩
abbrev R.VFLAG.OVERFLOW : Fld := ⟨0x43, 2, 2⟩
abbrev R.VFLAG.UNDERFLOW : Fld := ⟨0x43, 3, 3⟩
abbrev R.VFLAG.GATHER_FAULT : Fld := ⟨0x43, 4, 4⟩
abbrev R.VFLAG.POISON : Fld := ⟨0x43, 5, 5⟩
abbrev R.VFAULT_IDX.val : Fld := ⟨0x44, 7, 0⟩
abbrev R.VFAULT_EA.val : Fld := ⟨0x45, 31, 0⟩
abbrev R.VFAULT_CAUSE.val : Fld := ⟨0x46, 1, 0⟩
abbrev R.LRSTAT.STATE (i : Nat) : Fld := ⟨0x50 + 1 * i, 1, 0⟩
abbrev R.LRSTAT.CAUSE (i : Nat) : Fld := ⟨0x50 + 1 * i, 5, 2⟩
abbrev R.LRSTAT.WORD (i : Nat) : Fld := ⟨0x50 + 1 * i, 14, 6⟩
abbrev R.LRSTAT.ABORTED (i : Nat) : Fld := ⟨0x50 + 1 * i, 15, 15⟩
abbrev R.LRSTAT.SAT (i : Nat) : Fld := ⟨0x50 + 1 * i, 16, 16⟩
abbrev R.LRTAG.val : Fld := ⟨0x54, 15, 0⟩
abbrev R.QDISP.val : Fld := ⟨0x60, 9, 0⟩
abbrev R.SASTAT.DONE : Fld := ⟨0x61, 3, 0⟩
abbrev R.SASTAT.ARMED : Fld := ⟨0x61, 7, 4⟩
abbrev R.SASTAT.TIMED_OUT : Fld := ⟨0x61, 11, 8⟩
abbrev R.SASTAT.LOST : Fld := ⟨0x61, 15, 12⟩
abbrev R.TASK.ID : Fld := ⟨0x70, 15, 0⟩
abbrev R.TASK.CLASS : Fld := ⟨0x70, 17, 16⟩
abbrev R.TASK.END : Fld := ⟨0x70, 31, 31⟩
abbrev R.CLAIM.CLAIMED : Fld := ⟨0x71, 0, 0⟩
abbrev R.CLAIM.YIELD : Fld := ⟨0x71, 1, 1⟩
abbrev R.CLAIM.BORROWED : Fld := ⟨0x71, 2, 2⟩
abbrev R.CLAIM_RPC.val : Fld := ⟨0x72, 31, 0⟩
abbrev R.LEASH_DL.val : Fld := ⟨0x73, 31, 0⟩
abbrev R.LEASH_CTL.EN : Fld := ⟨0x74, 0, 0⟩
abbrev R.LEASH_CTL.EXPIRED : Fld := ⟨0x74, 1, 1⟩
abbrev R.DEV_ID.VENDOR : Fld := ⟨0x0, 31, 16⟩
abbrev R.DEV_ID.CORES : Fld := ⟨0x0, 15, 8⟩
abbrev R.DEV_ID.STEP_MAJOR : Fld := ⟨0x0, 7, 4⟩
abbrev R.DEV_ID.STEP_MINOR : Fld := ⟨0x0, 3, 0⟩
abbrev R.DEV_FEATURES.QUARTERS : Fld := ⟨0x4, 3, 0⟩
abbrev R.DEV_FEATURES.LANE_ROWS : Fld := ⟨0x4, 7, 4⟩
abbrev R.DEV_FEATURES.LP5X_CHANNELS : Fld := ⟨0x4, 10, 8⟩
abbrev R.DEV_FEATURES.ADRUOTH_PORTS : Fld := ⟨0x4, 19, 16⟩
abbrev R.DEV_FEATURES.JESD_LANES : Fld := ⟨0x4, 23, 20⟩
abbrev R.DEV_FEATURES.WEAVE : Fld := ⟨0x4, 25, 24⟩
abbrev R.DEV_FEATURES.SQUARE_LOG2_MIB : Fld := ⟨0x4, 28, 26⟩
abbrev R.SQ_CTL.REMOTE_WAYS : Fld := ⟨0x100000, 4, 0⟩
abbrev R.SQ_CTL.PATROL_EN : Fld := ⟨0x100000, 8, 8⟩
abbrev R.LP5X_CE_COUNT.val : Fld := ⟨0x100004, 31, 0⟩
abbrev R.LP5X_UE_COUNT.val : Fld := ⟨0x100008, 31, 0⟩
abbrev R.SQ_ERR_COUNT.CORRECTED : Fld := ⟨0x10000C, 15, 0⟩
abbrev R.SQ_ERR_COUNT.UNCORRECTABLE : Fld := ⟨0x10000C, 31, 16⟩
abbrev R.TM_CE_COUNT.val : Fld := ⟨0x100010, 31, 0⟩
abbrev R.TM_UE_COUNT.val : Fld := ⟨0x100014, 31, 0⟩
abbrev R.KENNEL_STAT.PAGES : Fld := ⟨0x100018, 9, 0⟩
abbrev R.KENNEL_STAT.ROWS : Fld := ⟨0x100018, 18, 10⟩
abbrev R.KENNEL_STAT.FULL : Fld := ⟨0x100018, 31, 31⟩
abbrev R.HOME_RETRY_COUNT.val : Fld := ⟨0x10001C, 31, 0⟩
abbrev R.QCFG.MODE (i : Nat) : Fld := ⟨0x200000 + 32 * i, 1, 0⟩
abbrev R.QCFG.DEPTH_LOG2 (i : Nat) : Fld := ⟨0x200000 + 32 * i, 7, 4⟩
abbrev R.QCFG.CONSUMER (i : Nat) : Fld := ⟨0x200000 + 32 * i, 14, 8⟩
abbrev R.QCFG.QUOTA (i : Nat) : Fld := ⟨0x200000 + 32 * i, 23, 16⟩
abbrev R.QRING_LO.RING_BASE (i : Nat) : Fld := ⟨0x200004 + 32 * i, 31, 6⟩
abbrev R.QRING_HI.RING_BASE (i : Nat) : Fld := ⟨0x200008 + 32 * i, 11, 0⟩
abbrev R.QSYNC.CREDIT_SYNC (i : Nat) : Fld := ⟨0x20000C + 32 * i, 13, 0⟩
abbrev R.QSYNC.CREDIT_EN (i : Nat) : Fld := ⟨0x20000C + 32 * i, 15, 15⟩
abbrev R.QSYNC.OVF_SYNC (i : Nat) : Fld := ⟨0x20000C + 32 * i, 29, 16⟩
abbrev R.QSYNC.OVF_EN (i : Nat) : Fld := ⟨0x20000C + 32 * i, 31, 31⟩
abbrev R.QSTAT.COUNT (i : Nat) : Fld := ⟨0x200010 + 32 * i, 12, 0⟩
abbrev R.QSTAT.OVF (i : Nat) : Fld := ⟨0x200010 + 32 * i, 16, 16⟩
abbrev R.QOVF_COUNT.val (i : Nat) : Fld := ⟨0x200014 + 32 * i, 31, 0⟩
abbrev R.QPTR.HEAD (i : Nat) : Fld := ⟨0x200018 + 32 * i, 11, 0⟩
abbrev R.QPTR.TAIL (i : Nat) : Fld := ⟨0x200018 + 32 * i, 27, 16⟩
abbrev R.MC_CTL.EN (i : Nat) : Fld := ⟨0x210000 + 1024 * i, 0, 0⟩
abbrev R.MC_SEQ.val (i : Nat) : Fld := ⟨0x210004 + 1024 * i, 15, 0⟩
abbrev R.MC_MEMBER.QUEUE (i : Nat) (j : Nat) : Fld := ⟨0x210200 + 1024 * i + 4 * j, 9, 0⟩
abbrev R.MC_MEMBER.CHIP (i : Nat) (j : Nat) : Fld := ⟨0x210200 + 1024 * i + 4 * j, 13, 10⟩
abbrev R.MC_MEMBER.VALID (i : Nat) (j : Nat) : Fld := ⟨0x210200 + 1024 * i + 4 * j, 31, 31⟩
abbrev R.PART_CFG.QMASK (i : Nat) : Fld := ⟨0x300000 + 64 * i, 11, 0⟩
abbrev R.PART_CFG.MODE (i : Nat) : Fld := ⟨0x300000 + 64 * i, 12, 12⟩
abbrev R.PART_CFG.EN (i : Nat) : Fld := ⟨0x300000 + 64 * i, 13, 13⟩
abbrev R.PART_CFG.LEND (i : Nat) : Fld := ⟨0x300000 + 64 * i, 14, 14⟩
abbrev R.PART_CFG.CHECKPOINT_ON_PWRFAIL (i : Nat) : Fld := ⟨0x300000 + 64 * i, 15, 15⟩
abbrev R.PART_CFG.RADIO (i : Nat) : Fld := ⟨0x300000 + 64 * i, 16, 16⟩
abbrev R.PART_LEND.val (i : Nat) : Fld := ⟨0x300004 + 64 * i, 11, 0⟩
abbrev R.PART_LEDGER.DROOP_ALLOW (i : Nat) : Fld := ⟨0x300008 + 64 * i, 5, 0⟩
abbrev R.PART_LEDGER.MARGIN (i : Nat) : Fld := ⟨0x300008 + 64 * i, 15, 8⟩
abbrev R.PART_LEDGER.LEAD (i : Nat) : Fld := ⟨0x300008 + 64 * i, 23, 16⟩
abbrev R.PART_STAT.TASKS (i : Nat) : Fld := ⟨0x30000C + 64 * i, 8, 0⟩
abbrev R.PART_STAT.LENT (i : Nat) : Fld := ⟨0x30000C + 64 * i, 15, 9⟩
abbrev R.PART_STAT.BORROWED (i : Nat) : Fld := ⟨0x30000C + 64 * i, 22, 16⟩
abbrev R.PART_EVT.FALLBACKS (i : Nat) : Fld := ⟨0x300010 + 64 * i, 15, 0⟩
abbrev R.PART_EVT.CLAIM_OVERRUNS (i : Nat) : Fld := ⟨0x300010 + 64 * i, 31, 16⟩
abbrev R.TD_CTL.EN (i : Nat) : Fld := ⟨0x400000 + 64 * i, 0, 0⟩
abbrev R.TD_CTL.FMT (i : Nat) : Fld := ⟨0x400000 + 64 * i, 1, 1⟩
abbrev R.TD_CTL.DEQ_OWNER (i : Nat) : Fld := ⟨0x400000 + 64 * i, 2, 2⟩
abbrev R.TD_CTL.WATCH (i : Nat) : Fld := ⟨0x400000 + 64 * i, 3, 3⟩
abbrev R.TD_CTL.WSLOT (i : Nat) : Fld := ⟨0x400000 + 64 * i, 6, 4⟩
abbrev R.TD_CTL.DIM (i : Nat) : Fld := ⟨0x400000 + 64 * i, 20, 8⟩
abbrev R.TD_ROWS.val (i : Nat) : Fld := ⟨0x400004 + 64 * i, 24, 0⟩
abbrev R.TD_SEED.val (i : Nat) : Fld := ⟨0x400008 + 64 * i, 31, 0⟩
abbrev R.TD_ROWB.ROW_BYTES (i : Nat) : Fld := ⟨0x40000C + 64 * i, 13, 0⟩
abbrev R.TD_DIR.val (i : Nat) : Fld := ⟨0x400010 + 64 * i, 31, 12⟩
abbrev R.TD_DIR.val_HI (i : Nat) : Fld := ⟨0x400014 + 64 * i, 11, 0⟩
abbrev R.TD_HEAP.val (i : Nat) : Fld := ⟨0x400018 + 64 * i, 31, 5⟩
abbrev R.TD_HEAP.val_HI (i : Nat) : Fld := ⟨0x40001C + 64 * i, 11, 0⟩
abbrev R.TD_SLOTS.val (i : Nat) : Fld := ⟨0x400020 + 64 * i, 23, 0⟩
abbrev R.TD_STATE.STATE (i : Nat) : Fld := ⟨0x400024 + 64 * i, 1, 0⟩
abbrev R.TD_STATE.READY_SYNC (i : Nat) : Fld := ⟨0x400024 + 64 * i, 29, 16⟩
abbrev R.TD_SWAP_GEN.val (i : Nat) : Fld := ⟨0x400028 + 64 * i, 31, 0⟩
abbrev R.POOL_GEN.val : Fld := ⟨0x401000, 31, 0⟩
abbrev R.LOW_GEN.val : Fld := ⟨0x401004, 31, 0⟩
abbrev R.BENIGN_DIVERGENCE.val : Fld := ⟨0x401008, 31, 0⟩
abbrev R.REPLICA_MISMATCH.val : Fld := ⟨0x40100C, 31, 0⟩
abbrev R.LOOKUP_ERR.val : Fld := ⟨0x401010, 31, 0⟩
abbrev R.BIND.GEN (i : Nat) : Fld := ⟨0x401100 + 8 * i, 31, 0⟩
abbrev R.BIND_CFG.PART (i : Nat) : Fld := ⟨0x401104 + 8 * i, 3, 0⟩
abbrev R.BIND_CFG.EN (i : Nat) : Fld := ⟨0x401104 + 8 * i, 4, 4⟩
abbrev R.JRX_CTL.EN : Fld := ⟨0x500000, 0, 0⟩
abbrev R.JRX_CTL.MODE : Fld := ⟨0x500000, 4, 1⟩
abbrev R.JRX_CTL.RX_PART : Fld := ⟨0x500000, 11, 8⟩
abbrev R.JRX_DLAT.val : Fld := ⟨0x500004, 31, 0⟩
abbrev R.JRX_FIXLAT.val : Fld := ⟨0x500008, 31, 0⟩
abbrev R.JRX_STAT.LANE_LOCK : Fld := ⟨0x50000C, 7, 0⟩
abbrev R.JRX_STAT.EMB_LOCK : Fld := ⟨0x50000C, 8, 8⟩
abbrev R.JRX_STAT.LINK_UP : Fld := ⟨0x50000C, 9, 9⟩
abbrev R.JRX_STAT.SYSREF_ERR : Fld := ⟨0x50000C, 16, 16⟩
abbrev R.JRX_CRC_ERR.val : Fld := ⟨0x500010, 31, 0⟩
abbrev R.JRX_OVERRUN.val : Fld := ⟨0x500014, 31, 0⟩
abbrev R.JTX_CTL.EN : Fld := ⟨0x500020, 0, 0⟩
abbrev R.JTX_CTL.MODE : Fld := ⟨0x500020, 4, 1⟩
abbrev R.JTX_DLAT.val : Fld := ⟨0x500024, 31, 0⟩
abbrev R.JTX_FIXLAT.val : Fld := ⟨0x500028, 31, 0⟩
abbrev R.JTX_UNDERRUN.val : Fld := ⟨0x50002C, 31, 0⟩
abbrev R.JSYSREF.PERIODIC : Fld := ⟨0x500030, 0, 0⟩
abbrev R.JSYSREF.ARM : Fld := ⟨0x500030, 1, 1⟩
abbrev R.JSYSREF.SENT : Fld := ⟨0x500030, 2, 2⟩
abbrev R.JLANE.LOGICAL (i : Nat) : Fld := ⟨0x500040 + 4 * i, 2, 0⟩
abbrev R.JLANE.INVERT (i : Nat) : Fld := ⟨0x500040 + 4 * i, 3, 3⟩
abbrev R.RXB_CFG.NBUF : Fld := ⟨0x500080, 4, 0⟩
abbrev R.RXB_SYNC.SYM_SYNC : Fld := ⟨0x500084, 13, 0⟩
abbrev R.RXB_SYNC.FREE_SYNC : Fld := ⟨0x500084, 29, 16⟩
abbrev R.TXB_CFG.NBUF : Fld := ⟨0x500088, 4, 0⟩
abbrev R.TXB_SYNC.READY_SYNC : Fld := ⟨0x50008C, 13, 0⟩
abbrev R.TXB_SYNC.FREE_SYNC : Fld := ⟨0x50008C, 29, 16⟩
abbrev R.RXB.val (i : Nat) : Fld := ⟨0x500100 + 8 * i, 31, 0⟩
abbrev R.RXB.val_HI (i : Nat) : Fld := ⟨0x500104 + 8 * i, 15, 0⟩
abbrev R.TXB.val (i : Nat) : Fld := ⟨0x500200 + 8 * i, 31, 0⟩
abbrev R.TXB.val_HI (i : Nat) : Fld := ⟨0x500204 + 8 * i, 15, 0⟩
abbrev R.KCTL.RX_EN : Fld := ⟨0x510000, 0, 0⟩
abbrev R.KCTL.TX_EN : Fld := ⟨0x510000, 1, 1⟩
abbrev R.KCTL.BW : Fld := ⟨0x510000, 3, 2⟩
abbrev R.KCTL.SECTOR_ID : Fld := ⟨0x510000, 15, 8⟩
abbrev R.KSLOT_PHASE.val : Fld := ⟨0x510004, 31, 0⟩
abbrev R.KSLOT_NUM.val : Fld := ⟨0x510008, 31, 0⟩
abbrev R.KMAP_BASE.val : Fld := ⟨0x510010, 27, 0⟩
abbrev R.KMAP_CUR.UL : Fld := ⟨0x510014, 7, 0⟩
abbrev R.KMAP_CUR.DL : Fld := ⟨0x510014, 15, 8⟩
abbrev R.KMAP_PEND.ID (i : Nat) : Fld := ⟨0x510018 + 4 * i, 7, 0⟩
abbrev R.KMAP_PEND.TARGET (i : Nat) : Fld := ⟨0x510018 + 4 * i, 30, 8⟩
abbrev R.KMAP_PEND.VALID (i : Nat) : Fld := ⟨0x510018 + 4 * i, 31, 31⟩
abbrev R.KMAP_ERR.val : Fld := ⟨0x510020, 31, 0⟩
abbrev R.KMAP_VERIFIED.val (i : Nat) : Fld := ⟨0x510040 + 4 * i, 31, 0⟩
abbrev R.WCTL.EN : Fld := ⟨0x520000, 0, 0⟩
abbrev R.WCTL.ANT : Fld := ⟨0x520000, 3, 1⟩
abbrev R.WCTL.H : Fld := ⟨0x520000, 7, 4⟩
abbrev R.WDET_Q.QID : Fld := ⟨0x520004, 9, 0⟩
abbrev R.WRING.val : Fld := ⟨0x520008, 31, 12⟩
abbrev R.WRING.val_HI : Fld := ⟨0x52000C, 11, 0⟩
abbrev R.WRING_LOG2.val : Fld := ⟨0x520010, 4, 0⟩
abbrev R.WFA_TARGET.val : Fld := ⟨0x520014, 15, 0⟩
abbrev R.WSTAT.OUT_OF_BAND : Fld := ⟨0x520018, 15, 0⟩
abbrev R.WTHR.val (i : Nat) : Fld := ⟨0x520020 + 4 * i, 7, 0⟩
abbrev R.WCH.EN (i : Nat) : Fld := ⟨0x520040 + 8 * i, 0, 0⟩
abbrev R.WCH.BW (i : Nat) : Fld := ⟨0x520040 + 8 * i, 2, 1⟩
abbrev R.WCH.SFMASK (i : Nat) : Fld := ⟨0x520040 + 8 * i, 10, 3⟩
abbrev R.WCHF.val (i : Nat) : Fld := ⟨0x520044 + 8 * i, 25, 0⟩
abbrev R.WADJ.val (i : Nat) : Fld := ⟨0x5200C0 + 4 * i, 7, 0⟩
abbrev R.WCNT.val (i : Nat) : Fld := ⟨0x520100 + 8 * i, 31, 0⟩
abbrev R.WFCNT.val (i : Nat) : Fld := ⟨0x520104 + 8 * i, 31, 0⟩
abbrev R.RXG_STAGE.PRESENT (i : Nat) : Fld := ⟨0x530000 + 4 * i, 0, 0⟩
abbrev R.RXG_STAGE.FORCE_PLAIN (i : Nat) : Fld := ⟨0x530000 + 4 * i, 1, 1⟩
abbrev R.RXG_STAGE.MODEL_ID (i : Nat) : Fld := ⟨0x530000 + 4 * i, 15, 8⟩
abbrev R.WV_CTL.EN (i : Nat) : Fld := ⟨0x540000 + 256 * i, 0, 0⟩
abbrev R.WV_CTL.SCRUB_EN (i : Nat) : Fld := ⟨0x540000 + 256 * i, 1, 1⟩
abbrev R.WV_CTL.SEL (i : Nat) : Fld := ⟨0x540000 + 256 * i, 2, 2⟩
abbrev R.WV_PLANE.val (i : Nat) : Fld := ⟨0x540004 + 256 * i, 31, 0⟩
abbrev R.WV_PLANE.val_HI (i : Nat) : Fld := ⟨0x540008 + 256 * i, 31, 0⟩
abbrev R.WV_PSTAT.VALID (i : Nat) : Fld := ⟨0x54000C + 256 * i, 1, 0⟩
abbrev R.WV_PSTAT.FAILED (i : Nat) : Fld := ⟨0x54000C + 256 * i, 3, 2⟩
abbrev R.WV_PSTAT.BOUND (i : Nat) : Fld := ⟨0x54000C + 256 * i, 4, 4⟩
abbrev R.WV_FIFO.val (i : Nat) : Fld := ⟨0x540010 + 256 * i, 8, 0⟩
abbrev R.WV_CW_COUNT.val (i : Nat) : Fld := ⟨0x540014 + 256 * i, 31, 0⟩
abbrev R.WV_ITER_TOTAL.val (i : Nat) : Fld := ⟨0x540018 + 256 * i, 31, 0⟩
abbrev R.WV_LATE.val (i : Nat) : Fld := ⟨0x54001C + 256 * i, 31, 0⟩
abbrev R.WV_SCRUB_FIX.val (i : Nat) : Fld := ⟨0x540020 + 256 * i, 31, 0⟩
abbrev R.WV_BENIGN.val (i : Nat) : Fld := ⟨0x540024 + 256 * i, 31, 0⟩
abbrev R.WV_DROPPED.val (i : Nat) : Fld := ⟨0x540028 + 256 * i, 31, 0⟩
abbrev R.TIME_NS.NS : Fld := ⟨0x560000, 31, 0⟩
abbrev R.TIME_HI.val : Fld := ⟨0x560004, 31, 0⟩
abbrev R.TIME_FRAC.val : Fld := ⟨0x560008, 23, 0⟩
abbrev R.TIME_EPOCH.EPOCH : Fld := ⟨0x56000C, 31, 0⟩
abbrev R.TIME_INC.INC : Fld := ⟨0x560010, 31, 0⟩
abbrev R.TIME_SLEW.val : Fld := ⟨0x560014, 31, 0⟩
abbrev R.TIME_STEP.val : Fld := ⟨0x560018, 31, 0⟩
abbrev R.TIME_STAT.WRAP_PENDING : Fld := ⟨0x56001C, 0, 0⟩
abbrev R.TIME_STAT.HALF : Fld := ⟨0x56001C, 1, 1⟩
abbrev R.TIME_STAT.STEP_PEND : Fld := ⟨0x56001C, 2, 2⟩
abbrev R.TIME_STAT.SLEW_BUSY : Fld := ⟨0x56001C, 3, 3⟩
abbrev R.TIME_STAT.VALID : Fld := ⟨0x56001C, 4, 4⟩
abbrev R.TIME_STAT.TIME_SUSPECT : Fld := ⟨0x56001C, 5, 5⟩
abbrev R.TIME_STAT.CHECK_LOST : Fld := ⟨0x56001C, 6, 6⟩
abbrev R.TIME_STAT.HELD : Fld := ⟨0x56001C, 7, 7⟩
abbrev R.TIME_STAT.EPOCH_LATE : Fld := ⟨0x56001C, 8, 8⟩
abbrev R.TIME_STAT.STEP_SEQ : Fld := ⟨0x56001C, 23, 16⟩
abbrev R.REF_TUNE.val : Fld := ⟨0x560020, 15, 0⟩
abbrev R.PPS_OUT_NEXT.val : Fld := ⟨0x560030, 31, 0⟩
abbrev R.PPS_OUT_PERIOD.PERIOD : Fld := ⟨0x560034, 31, 0⟩
abbrev R.PPS_OUT_CTL.EN : Fld := ⟨0x560038, 0, 0⟩
abbrev R.PPS_OUT_CTL.WIDTH : Fld := ⟨0x560038, 27, 8⟩
abbrev R.PPS_IN_TS.val : Fld := ⟨0x560040, 31, 0⟩
abbrev R.PPS_IN_HI.val : Fld := ⟨0x560044, 31, 0⟩
abbrev R.PPS_IN_CTL.EN : Fld := ⟨0x560048, 0, 0⟩
abbrev R.PPS_IN_CTL.FALLING : Fld := ⟨0x560048, 1, 1⟩
abbrev R.PPS_IN_CTL.LOST : Fld := ⟨0x560048, 2, 2⟩
abbrev R.PPS_IN_CTL.STEPPED : Fld := ⟨0x560048, 3, 3⟩
abbrev R.PPS_IN_CTL.PERIOD_MS : Fld := ⟨0x560048, 31, 16⟩
abbrev R.PPS_IN_COUNT.val : Fld := ⟨0x56004C, 31, 0⟩
abbrev R.TCHK_CTL.EN : Fld := ⟨0x560060, 0, 0⟩
abbrev R.TCHK_OFFSET.val : Fld := ⟨0x560064, 31, 0⟩
abbrev R.TCHK_RTT.val : Fld := ⟨0x560068, 31, 0⟩
abbrev R.TCHK_COUNT.DONE : Fld := ⟨0x56006C, 15, 0⟩
abbrev R.TCHK_COUNT.LOST : Fld := ⟨0x56006C, 31, 16⟩
abbrev R.ETH_RXLAT.val (i : Nat) : Fld := ⟨0x560080 + 8 * i, 31, 0⟩
abbrev R.ETH_TXLAT.val (i : Nat) : Fld := ⟨0x560084 + 8 * i, 31, 0⟩
abbrev R.ADR_PCTL.EN (i : Nat) : Fld := ⟨0x580000 + 64 * i, 0, 0⟩
abbrev R.ADR_PCTL.WIDTH_MAX (i : Nat) : Fld := ⟨0x580000 + 64 * i, 2, 1⟩
abbrev R.ADR_PSTAT.STATE (i : Nat) : Fld := ⟨0x580004 + 64 * i, 2, 0⟩
abbrev R.ADR_PSTAT.WIDTH (i : Nat) : Fld := ⟨0x580004 + 64 * i, 4, 3⟩
abbrev R.ADR_PSTAT.PEER_CHIP (i : Nat) : Fld := ⟨0x580004 + 64 * i, 11, 8⟩
abbrev R.ADR_PSTAT.PEER_PORT (i : Nat) : Fld := ⟨0x580004 + 64 * i, 14, 12⟩
abbrev R.ADR_PSTAT.PEER_VALID (i : Nat) : Fld := ⟨0x580004 + 64 * i, 15, 15⟩
abbrev R.ADR_CRC_ERR.val (i : Nat) : Fld := ⟨0x580008 + 64 * i, 31, 0⟩
abbrev R.ADR_REPLAY.val (i : Nat) : Fld := ⟨0x58000C + 64 * i, 31, 0⟩
abbrev R.ADR_RETRAIN.RETRAINS (i : Nat) : Fld := ⟨0x580010 + 64 * i, 15, 0⟩
abbrev R.ADR_RETRAIN.DOWNS (i : Nat) : Fld := ⟨0x580010 + 64 * i, 31, 16⟩
abbrev R.ADR_CHIP.ID : Fld := ⟨0x580400, 3, 0⟩
abbrev R.ADR_CHIP.SELF_STATE : Fld := ⟨0x580400, 6, 4⟩
abbrev R.ADR_CHIP.MEPOCH : Fld := ⟨0x580400, 23, 8⟩
abbrev R.ADR_MEMBERS.CONFIGURED : Fld := ⟨0x580404, 15, 0⟩
abbrev R.ADR_MEMBERS.CURRENT : Fld := ⟨0x580404, 31, 16⟩
abbrev R.ADR_PEERS.LOST : Fld := ⟨0x580408, 15, 0⟩
abbrev R.ADR_PEERS.QUARANTINED : Fld := ⟨0x580408, 31, 16⟩
abbrev R.ADR_LEADER.LEADER : Fld := ⟨0x58040C, 3, 0⟩
abbrev R.ADR_LEADER.QUORUM : Fld := ⟨0x58040C, 4, 4⟩
abbrev R.ADR_LEADER.LEADER_VALID : Fld := ⟨0x58040C, 5, 5⟩
abbrev R.ADR_PROTO.OWN : Fld := ⟨0x580410, 15, 0⟩
abbrev R.ADR_PROTO.MINOR : Fld := ⟨0x580410, 31, 16⟩
abbrev R.ADR_FEAT.val : Fld := ⟨0x580414, 31, 0⟩
abbrev R.ADR_BENIGN.val : Fld := ⟨0x580418, 31, 0⟩
abbrev R.ADR_BAD_PKT.BAD : Fld := ⟨0x58041C, 15, 0⟩
abbrev R.ADR_BAD_PKT.DCTL_DROP : Fld := ⟨0x58041C, 31, 16⟩
abbrev R.ADR_DIGEST.val : Fld := ⟨0x580420, 31, 0⟩
abbrev R.ADR_DIGEST.val_HI : Fld := ⟨0x580424, 31, 0⟩
abbrev R.ADR_DIGEST.val_W2 : Fld := ⟨0x580428, 31, 0⟩
abbrev R.ADR_DIGEST.val_W3 : Fld := ⟨0x58042C, 31, 0⟩
abbrev R.ADR_ROUTE.MIN_PORTS (i : Nat) : Fld := ⟨0x580440 + 4 * i, 7, 0⟩
abbrev R.ADR_ROUTE.ESC_PORT (i : Nat) : Fld := ⟨0x580440 + 4 * i, 10, 8⟩
abbrev R.ADR_ROUTE.ESC_VALID (i : Nat) : Fld := ⟨0x580440 + 4 * i, 11, 11⟩
abbrev R.HIF_CTL.BWIN_LOCAL : Fld := ⟨0x5A0000, 0, 0⟩
abbrev R.HIF_CTL.BWIN_CHIP : Fld := ⟨0x5A0000, 4, 1⟩
abbrev R.HIF_STAT.LINK_UP : Fld := ⟨0x5A0004, 0, 0⟩
abbrev R.HIF_STAT.SPEED : Fld := ⟨0x5A0004, 3, 1⟩
abbrev R.HIF_STAT.WIDTH : Fld := ⟨0x5A0004, 7, 4⟩
abbrev R.HIF_STAT.ROLE : Fld := ⟨0x5A0004, 8, 8⟩
abbrev R.HIF_STAT.POOL_READY : Fld := ⟨0x5A0004, 9, 9⟩
abbrev R.HIF_STAT.FLR_SEEN : Fld := ⟨0x5A0004, 10, 10⟩
abbrev R.HIF_DENIED.val : Fld := ⟨0x5A0008, 31, 0⟩
abbrev R.HIF_CA.val : Fld := ⟨0x5A000C, 31, 0⟩
abbrev R.HIF_POISON.val : Fld := ⟨0x5A0010, 31, 0⟩
abbrev R.HDMA_CFG.OWNER (i : Nat) : Fld := ⟨0x5A0100 + 4 * i, 3, 0⟩
abbrev R.HDMA_CFG.EN (i : Nat) : Fld := ⟨0x5A0100 + 4 * i, 4, 4⟩
abbrev R.HDMA_STAT.val (i : Nat) : Fld := ⟨0x5A0140 + 4 * i, 4, 0⟩
abbrev R.HDMA_STAT.DROPPED (i : Nat) : Fld := ⟨0x5A0140 + 4 * i, 31, 16⟩
abbrev R.ETH_CTL.EN (i : Nat) : Fld := ⟨0x5B0000 + 4096 * i, 0, 0⟩
abbrev R.ETH_CTL.SPEED (i : Nat) : Fld := ⟨0x5B0000 + 4096 * i, 2, 1⟩
abbrev R.ETH_CTL.FEC (i : Nat) : Fld := ⟨0x5B0000 + 4096 * i, 4, 3⟩
abbrev R.ETH_CTL.AN_EN (i : Nat) : Fld := ⟨0x5B0000 + 4096 * i, 5, 5⟩
abbrev R.ETH_CTL.PROMISC (i : Nat) : Fld := ⟨0x5B0000 + 4096 * i, 6, 6⟩
abbrev R.ETH_CTL.PAUSE_RX (i : Nat) : Fld := ⟨0x5B0000 + 4096 * i, 7, 7⟩
abbrev R.ETH_CTL.MAXLEN (i : Nat) : Fld := ⟨0x5B0000 + 4096 * i, 29, 16⟩
abbrev R.ETH_STAT.LINK (i : Nat) : Fld := ⟨0x5B0004 + 4096 * i, 0, 0⟩
abbrev R.ETH_STAT.AN_DONE (i : Nat) : Fld := ⟨0x5B0004 + 4096 * i, 1, 1⟩
abbrev R.ETH_STAT.SGMII_SPEED (i : Nat) : Fld := ⟨0x5B0004 + 4096 * i, 3, 2⟩
abbrev R.ETH_STAT.FEC_LOCK (i : Nat) : Fld := ⟨0x5B0004 + 4096 * i, 4, 4⟩
abbrev R.ETH_CNT.RX_OK (i : Nat) (j : Nat) : Fld := ⟨0x5B0010 + 4096 * i + 4 * j, 31, 0⟩
abbrev R.RING_BASE.val (i : Nat) (j : Nat) : Fld := ⟨0x5B0100 + 4096 * i + 32 * j, 31, 5⟩
abbrev R.RING_BASE.val_HI (i : Nat) (j : Nat) : Fld := ⟨0x5B0104 + 4096 * i + 32 * j, 11, 0⟩
abbrev R.RING_CFG.SIZE_LOG2 (i : Nat) (j : Nat) : Fld := ⟨0x5B0108 + 4096 * i + 32 * j, 3, 0⟩
abbrev R.RING_CFG.OWNER (i : Nat) (j : Nat) : Fld := ⟨0x5B0108 + 4096 * i + 32 * j, 7, 4⟩
abbrev R.RING_CFG.NOTIFY_Q (i : Nat) (j : Nat) : Fld := ⟨0x5B0108 + 4096 * i + 32 * j, 17, 8⟩
abbrev R.RING_CFG.NOTIFY_EN (i : Nat) (j : Nat) : Fld := ⟨0x5B0108 + 4096 * i + 32 * j, 18, 18⟩
abbrev R.RING_CFG.NOTIFY_EVERY (i : Nat) (j : Nat) : Fld := ⟨0x5B0108 + 4096 * i + 32 * j, 31, 24⟩
abbrev R.RING_HEAD.HEAD (i : Nat) (j : Nat) : Fld := ⟨0x5B010C + 4096 * i + 32 * j, 11, 0⟩
abbrev R.RING_TAIL.TAIL (i : Nat) (j : Nat) : Fld := ⟨0x5B0110 + 4096 * i + 32 * j, 11, 0⟩
abbrev R.FILT.DMAC (i : Nat) (j : Nat) : Fld := ⟨0x5B0200 + 4096 * i + 16 * j, 31, 0⟩
abbrev R.FILT.DMAC_HI (i : Nat) (j : Nat) : Fld := ⟨0x5B0204 + 4096 * i + 16 * j, 15, 0⟩
abbrev R.FILT_CFG.ETYPE (i : Nat) (j : Nat) : Fld := ⟨0x5B0208 + 4096 * i + 16 * j, 15, 0⟩
abbrev R.FILT_CFG.MATCH_DMAC (i : Nat) (j : Nat) : Fld := ⟨0x5B0208 + 4096 * i + 16 * j, 16, 16⟩
abbrev R.FILT_CFG.MATCH_ETYPE (i : Nat) (j : Nat) : Fld := ⟨0x5B0208 + 4096 * i + 16 * j, 17, 17⟩
abbrev R.FILT_CFG.RING (i : Nat) (j : Nat) : Fld := ⟨0x5B0208 + 4096 * i + 16 * j, 19, 18⟩
abbrev R.FILT_CFG.VALID (i : Nat) (j : Nat) : Fld := ⟨0x5B0208 + 4096 * i + 16 * j, 31, 31⟩
abbrev R.XSPI_CTL.MODE_8D : Fld := ⟨0x5C0000, 0, 0⟩
abbrev R.XSPI_CTL.DUMMY : Fld := ⟨0x5C0000, 5, 1⟩
abbrev R.XSPI_CTL.CLK : Fld := ⟨0x5C0000, 7, 6⟩
abbrev R.XSPI_STAT.BUSY_A : Fld := ⟨0x5C0004, 0, 0⟩
abbrev R.XSPI_STAT.BUSY_B : Fld := ⟨0x5C0004, 1, 1⟩
abbrev R.XSPI_STAT.PRESENT_A : Fld := ⟨0x5C0004, 2, 2⟩
abbrev R.XSPI_STAT.PRESENT_B : Fld := ⟨0x5C0004, 3, 3⟩
abbrev R.XSPI_CMD.val : Fld := ⟨0x5C0008, 31, 0⟩
abbrev R.XSPI_BUSY_READS.val : Fld := ⟨0x5C0010, 31, 0⟩
abbrev R.XSPI_DQS_ERR.val : Fld := ⟨0x5C0014, 31, 0⟩
abbrev R.WDN_STAT.RUNNING : Fld := ⟨0x5E0000, 0, 0⟩
abbrev R.WDN_STAT.SEALED : Fld := ⟨0x5E0000, 1, 1⟩
abbrev R.WDN_STAT.IMAGE : Fld := ⟨0x5E0000, 2, 2⟩
abbrev R.WDN_STAT.RESTARTS : Fld := ⟨0x5E0000, 15, 8⟩
abbrev R.WDN_HB.val : Fld := ⟨0x5E0004, 31, 0⟩
abbrev R.WDN_SEAL.SEAL : Fld := ⟨0x5E0008, 0, 0⟩
abbrev R.CLK_STAT.PLL_LOCK : Fld := ⟨0x5F0000, 0, 0⟩
abbrev R.CLK_STAT.REF_OK : Fld := ⟨0x5F0000, 1, 1⟩
abbrev R.CLK_STAT.REF_LOSS : Fld := ⟨0x5F0000, 15, 8⟩
abbrev R.PWR_STATE.STATE : Fld := ⟨0x5F0004, 2, 0⟩
abbrev R.PWR_STATE.PWRFAIL : Fld := ⟨0x5F0004, 3, 3⟩
abbrev R.PWR_STATE.SHED : Fld := ⟨0x5F0004, 4, 4⟩
abbrev R.PWR_STATE.LEASE_EXPIRED : Fld := ⟨0x5F0004, 5, 5⟩
abbrev R.PWR_CAP.val : Fld := ⟨0x5F0008, 15, 0⟩
abbrev R.VCORE.TARGET : Fld := ⟨0x5F000C, 9, 0⟩
abbrev R.VCORE.MARGIN : Fld := ⟨0x5F000C, 14, 10⟩
abbrev R.PF_CTL.PF_BUDGET_US : Fld := ⟨0x5F0010, 15, 0⟩
abbrev R.PWR_WAKE.WAKE_ON_WHISPER : Fld := ⟨0x5F0014, 0, 0⟩
abbrev R.PWR_WAKE.RESTART_MS : Fld := ⟨0x5F0014, 31, 16⟩
abbrev R.PWR_RADIO.DIV_MAX : Fld := ⟨0x5F0018, 2, 0⟩
abbrev R.QCLK.DIV (i : Nat) : Fld := ⟨0x5F0040 + 4 * i, 2, 0⟩
abbrev R.QCLK.GATED (i : Nat) : Fld := ⟨0x5F0040 + 4 * i, 3, 3⟩
abbrev R.QCLK.DRAINING (i : Nat) : Fld := ⟨0x5F0040 + 4 * i, 4, 4⟩
abbrev R.QCLK.STRETCH (i : Nat) : Fld := ⟨0x5F0040 + 4 * i, 5, 5⟩
abbrev R.QCLK.DROOP_THR (i : Nat) : Fld := ⟨0x5F0040 + 4 * i, 13, 8⟩
abbrev R.DROOP_CNT.val (i : Nat) : Fld := ⟨0x5F0080 + 4 * i, 31, 0⟩
abbrev R.PWR_PCAP.val (i : Nat) : Fld := ⟨0x5F00C0 + 4 * i, 15, 0⟩
abbrev R.EG_STAT.VIN : Fld := ⟨0x5F0100, 12, 0⟩
abbrev R.EG_STAT.PWRFAIL_N : Fld := ⟨0x5F0100, 16, 16⟩
abbrev R.EG_STAT.OV : Fld := ⟨0x5F0100, 17, 17⟩
abbrev R.EG_STAT.SWITCH_ON : Fld := ⟨0x5F0100, 18, 18⟩
abbrev R.EG_HOLDUP.val : Fld := ⟨0x5F0104, 15, 0⟩
abbrev R.EG_PFCOUNT.val : Fld := ⟨0x5F0108, 15, 0⟩
abbrev R.RST_CAUSE.POWER_ON : Fld := ⟨0x5E0100, 0, 0⟩
abbrev R.RST_CAUSE.WARM_CMD : Fld := ⟨0x5E0100, 1, 1⟩
abbrev R.RST_CAUSE.WARM_REF : Fld := ⟨0x5E0100, 2, 2⟩
abbrev R.RST_CAUSE.WARM_FALLBACK : Fld := ⟨0x5E0100, 3, 3⟩
abbrev R.RST_CAUSE.CORE_CMD : Fld := ⟨0x5E0100, 4, 4⟩
abbrev R.RST_CAUSE.DORMANT_EXIT : Fld := ⟨0x5E0100, 5, 5⟩
abbrev R.RST_CAUSE.BROWNOUT : Fld := ⟨0x5E0100, 6, 6⟩
abbrev R.BOOT_STAT.IMAGE : Fld := ⟨0x5E0104, 0, 0⟩
abbrev R.BOOT_STAT.FALLBACK : Fld := ⟨0x5E0104, 1, 1⟩
abbrev R.BOOT_STAT.BCB : Fld := ⟨0x5E0104, 3, 2⟩
abbrev R.BOOT_STAT.FAIL_A : Fld := ⟨0x5E0104, 7, 4⟩
abbrev R.BOOT_STAT.FAIL_B : Fld := ⟨0x5E0104, 11, 8⟩
abbrev R.BOOT_STAT.ROLLBACK : Fld := ⟨0x5E0104, 23, 16⟩
abbrev R.BOOT_STAT.BOOT_ATTEMPTS : Fld := ⟨0x5E0104, 31, 24⟩
abbrev R.CKPT_BASE.val : Fld := ⟨0x5E0108, 23, 0⟩
abbrev R.CKPT_STAT.VALID : Fld := ⟨0x5E010C, 11, 0⟩
abbrev R.CKPT_STAT.COMPLETE : Fld := ⟨0x5E010C, 12, 12⟩
abbrev R.CKPT_STAT.LEAVE_DONE : Fld := ⟨0x5E010C, 13, 13⟩
abbrev R.CKPT_STAT.TIME_USED : Fld := ⟨0x5E010C, 31, 16⟩
abbrev R.CKPT_CTL.DISCARD : Fld := ⟨0x5E0110, 11, 0⟩
abbrev R.INT_VRF_PARITY.val : Fld := ⟨0x5E0200, 31, 0⟩
abbrev R.INT_WPARITY.val : Fld := ⟨0x5E0204, 31, 0⟩
abbrev R.INT_CTX_CRC.val : Fld := ⟨0x5E0208, 31, 0⟩
abbrev R.INT_UE.RING_UE : Fld := ⟨0x5E020C, 15, 0⟩
abbrev R.INT_UE.UNIT_STATE_UE : Fld := ⟨0x5E020C, 31, 16⟩
abbrev R.EVT_LOST.val : Fld := ⟨0x5E0210, 31, 0⟩
abbrev R.HOLDUP_C.C_LOW : Fld := ⟨0x5E0214, 15, 0⟩
abbrev R.HOLDUP_C.ESR : Fld := ⟨0x5E0214, 31, 16⟩
abbrev R.HOLDUP_AGE.val : Fld := ⟨0x5E0218, 15, 0⟩
abbrev R.HOLDUP_AGE.VALID : Fld := ⟨0x5E0218, 16, 16⟩
abbrev R.RO_DRIFT.val (i : Nat) : Fld := ⟨0x5E0220 + 4 * i, 15, 0⟩
abbrev R.MSIX.ADDR_LO (i : Nat) : Fld := ⟨0x5A1000 + 16 * i, 31, 0⟩
abbrev R.MSIX.ADDR_HI (i : Nat) : Fld := ⟨0x5A1004 + 16 * i, 31, 0⟩
abbrev R.MSIX.DATA (i : Nat) : Fld := ⟨0x5A1008 + 16 * i, 31, 0⟩
abbrev R.MSIX.MASK (i : Nat) : Fld := ⟨0x5A100C + 16 * i, 0, 0⟩
abbrev R.PBA.PENDING (i : Nat) : Fld := ⟨0x5A1800 + 4 * i, 31, 0⟩
abbrev R.SHARD_MAP.OWNERS (i : Nat) (j : Nat) : Fld := ⟨0x410000 + 128 * i + 4 * j, 31, 0⟩
abbrev R.SKEW.LAST (i : Nat) : Fld := ⟨0x430000 + 8 * i, 15, 0⟩
abbrev R.SKEW.PEAK (i : Nat) : Fld := ⟨0x430000 + 8 * i, 31, 16⟩
abbrev R.SKEW.TOTAL (i : Nat) : Fld := ⟨0x430004 + 8 * i, 31, 0⟩
abbrev R.HOT.ROW (i : Nat) : Fld := ⟨0x434000 + 8 * i, 23, 0⟩
abbrev R.HOT.TABLE (i : Nat) : Fld := ⟨0x434000 + 8 * i, 29, 24⟩
abbrev R.HOT.VALID (i : Nat) : Fld := ⟨0x434000 + 8 * i, 31, 31⟩
abbrev R.HOT.COUNT (i : Nat) : Fld := ⟨0x434004 + 8 * i, 31, 0⟩
abbrev R.KMAP_RESULT.ID : Fld := ⟨0x511008, 7, 0⟩
abbrev R.KMAP_RESULT.DIR : Fld := ⟨0x511008, 8, 8⟩
abbrev R.KMAP_RESULT.STATUS : Fld := ⟨0x511008, 11, 9⟩
abbrev R.KMAP_RESULT.BUSY : Fld := ⟨0x511008, 31, 31⟩

end Sys2Proof.Machine
end

