-- ==== Sys2Proof/Machine/State.lean ====
section
/-!
DEFINITION. The state of one OZ96 chip as plain data, its reset value, and the reasons a command can stop.
Registers that the manual gives at an offset or an INDEX live in `State.regs` and `Core.sys`; a word that is not
listed there reads as its Reset value (R10, Machine/RegTable.lean).
-/
namespace Sys2Proof.Machine

/-- Why a command cannot be performed at all. -/
inductive Fault where
  /-- Raised by any command whose operand names a unit the chip does not contain (R17, R19). Safe: no such unit
  exists, so no command of this kind reaches the hardware. -/
  | absentUnit
deriving DecidableEq, Repr

/-- Why the model gives a command no meaning. -/
inductive Refusal where
  /-- Raised by no meaning; it stands for a row of the table that has none. Safe: the machine stops. -/
  | notModelled (mnemonic : String)
deriving DecidableEq, Repr

/-- Where a global address leads (R24 to R29). -/
inductive Target where
  | lp5x (a : Nat)
  | tile (core off : Nat)
  | sync (obj off : Nat)
  | bell (q off : Nat)
  | dev (off : Nat)
  | mbox (off : Nat)
  | xip (dev off : Nat)
  | remote (chip a : Nat)
  | unmapped
deriving DecidableEq, Repr

/-- A result that is not yet visible (R78): destination S register, value, bundles left, and whether a load made
it (R81, R84). -/
structure DWrite where
  dest : Nat
  val : W32
  left : Nat
  load : Bool
deriving DecidableEq, Repr

/-- What happens when the delay slots have run (R78, R80, R88). -/
inductive Land where
  | none
  | go (tgt : Nat)
  | ret
deriving DecidableEq, Repr

/-- What a Pilot is doing. -/
inductive Run where
  /-- Held in reset: its Quarter belongs to no partition (R34). -/
  | inReset
  /-- Free: no task runs. -/
  | idle
  | running
  /-- In WAITI (R69). -/
  | waiti
  /-- Blocked in a QRECV that waits: queue, buffer EA, RD and the deadline in CK_TIME ns, if any (R228). -/
  | recv (q ea rd : Nat) (deadline : Option Nat)
  /-- Blocked in an SWAIT: object, home chip, count, RD and the deadline (R240). -/
  | wait (obj chip n rd : Nat) (deadline : Option Nat)
  /-- Frozen in a poll SWAIT of another chip's object, until its answer comes (R240, R242). -/
  | poll (obj chip : Nat)
  /-- A blocking QRECV or SWAIT has ended with this status; its bundle completes when it issues (R230, R248). -/
  | woken (status : Nat)
  /-- Halted by a double fault, until a partition reset or the next dispatch (R91, R100). -/
  | halted
  /-- Halted by CLAIM.YIELD while the radio image loads (R270). -/
  | yielded
  /-- Halted by the debugger (R99). -/
  | debug
deriving DecidableEq, Repr

/-- One pass of the lane rows (R140, R145): the copied descriptor, the tag, the next word index, whether
its first word may issue, the rows whose weights are filled, and whether the fill met poison (R604). -/
structure Pass where
  desc : List Byte
  tag : Nat
  next : Nat
  started : Bool
  filled : List Nat
  poisoned : Bool
deriving DecidableEq, Repr

/-- The lane rows of one core (R136 to R172). Accumulators and holding registers are keyed (64 row + lane) 16 +
token, SA 16 row + token (as held for an emit, among the holding registers from 4096), weight banks (64 row + lane) 128 + 32-bit word.
`junk` names the rows whose accumulators
were discarded (R169), with the number of the free value they hold. `drain` is the pass whose last word has been issued and
whose emit has not ended. -/
structure Lanes where
  acc : Tab W32
  junk : Tab Nat
  hold : Tab W32
  sa : Tab W32
  active : Tab W32
  shadow : Tab W32
  running : Option Pass
  pending : Option Pass
  drain : Option Pass
  stop : Bool
  stopped : Bool
deriving DecidableEq, Repr

/-- One DMA or IMLOAD not yet complete (R183, R184). -/
structure DmaOp where
  desc : List Byte
  tag : Nat
  imload : Bool
deriving DecidableEq, Repr

/-- An armed async wait (R241). -/
structure AsyncWait where
  slot : Nat
  obj : Nat
  chip : Nat
  n : Nat
  deadline : Option Nat
deriving DecidableEq, Repr

/-- What a borrowed core holds aside for its suspended serving task: QDISP and SASTAT with the armed waits (R274,
R531), and the read-only registers of Table 8-4 that a program cannot restore (log entry 13). -/
structure HeldTask where
  task : Option Nat
  qdisp : W32
  sastat : W32
  asyncs : List AsyncWait
  sys : Tab W32
  abortCause : Option Nat
deriving DecidableEq, Repr

/-- The outside of a claim on a core (R270): the claiming partition, the time of the claim, the radio task it is
for, and whether Pilot has yielded. -/
structure Claim where
  part : Nat
  at_ : Nat
  task : Nat
  yielded : Bool
  started : Bool
deriving DecidableEq, Repr

/-- One Stolni core (R64, R78, R92, R102, R136, R184, R241, R270). S, A, B, L and M registers and accumulators that
are not listed are zero. `sys` holds the system registers by INDEX. `stale` lists IMEM bytes as they stood before a
store, with the bundles that still execute them (R92). `task` is the submission number of the running task,
`runLen` the CK_CORE cycles of the current non-interruptible run (R85), and
`abortCause` the CAUSE of a pass or DMA abort that made its status ABORTED (R169, R31). -/
structure Core where
  s : Tab W32
  acc : Tab (BitVec 40)
  a : Tab W32
  b : Tab W32
  l : Tab W32
  m : Tab W32
  pc : Nat
  sys : Tab W32
  delayed : List DWrite
  dslots : Nat
  land : Land
  atHeel : Bool
  loopTop : Bool
  runLen : Nat
  stale : List (Nat × Byte × Nat)
  run : Run
  v : Tab (BitVec 1024)
  k : Tab (BitVec 256)
  vparity : List Nat
  lanes : Lanes
  rescale : Tab W32
  dmas : List DmaOp
  asyncs : List AsyncWait
  task : Option Nat
  abortCause : Option Nat
  claim : Option Claim
  held : Option HeldTask
deriving DecidableEq, Repr

/-- Who waits on a sync object (R240 to R242, R258). -/
inductive Waiter where
  | pilot (c n : Nat)
  | async (c slot n : Nat)
  | task (p id n : Nat)
  | remote (chip token n : Nat)
deriving DecidableEq, Repr

/-- One sync object (R237, R238): Table 7-4 field by field, and its waiters in arrival order. -/
structure SyncObj where
  value : Nat
  type : Nat
  en : Bool
  owner : Nat
  ovf : Bool
  waiters : List Waiter
deriving DecidableEq, Repr

/-- A message on its way into a queue or a channel (R222, R224, R233): sender chip and agent, queue or channel,
whether it goes through a channel, the bytes, and for a copy of a channel's message its SEQ. -/
structure Commit where
  chip : Nat
  agent : Nat
  dest : Nat
  mc : Option Nat
  data : List Byte
deriving DecidableEq, Repr

/-- The queue unit and multicast channels beside their registers (R218 to R236). `staging` is keyed by unit and
source (R222, R223); `ringIn` and `adrIn` hold the waiting commits of the two inputs, oldest first, with the last
accepted key of each (R233); `seq` is the SEQ of each queue; `slotOvf` counts the drops of each queue
in this slot (R231); `chanIn` holds the commits that wait at a channel's home. -/
structure Queues where
  staging : Tab (List Byte)
  ringIn : List Commit
  adrIn : List Commit
  lastRing : Nat
  lastAdr : Nat
  seq : Tab Nat
  slotOvf : Tab Nat
  chanIn : List Commit
deriving DecidableEq, Repr

/-- The status of a task (R258 to R261). -/
inductive TaskSt where
  | heldPlain
  | waiting
  | ready
  | running (core : Nat)
deriving DecidableEq, Repr

/-- One task held by a scheduler: Table 8-2, the submission number and the dispatch time. -/
structure Task where
  num : Nat
  part : Nat
  id : Nat
  cls : Nat
  stage : Nat
  leashEn : Bool
  leashRel : Bool
  plain : Bool
  plainEn : Bool
  entry : Nat
  imageGa : Nat
  imageUnits : Nat
  slot : Nat
  costCycles : Nat
  costNs : Nat
  leash : Nat
  waitSync : Nat
  waitN : Nat
  waitEn : Bool
  doneSync : Nat
  doneEn : Bool
  args : List Nat
  plainId : Nat
  statusGa : Nat
  st : TaskSt
  startedAt : Nat
deriving DecidableEq, Repr

/-- The schedulers beside their registers (R257 to R268): tasks in submission order, the next submission number,
the fallbacks taken with the budget of the stage, the stages with a non-plain
task that ended otherwise than DONE (partition, stage, slot), and the partitions whose first slot has begun (R62). -/
structure Sched where
  tasks : List Task
  nextNum : Nat
  fell : List ((Nat × Nat × Nat) × Option Nat)
  notDone : List (Nat × Nat × Nat)
  begun : List Nat
deriving DecidableEq, Repr

/-- The states of a line in a caching agent (R198). -/
inductive LineSt where
  | m | e | s
deriving DecidableEq, Repr

/-- A remote line held in the Square cache (R177, R198, R179). -/
structure Line where
  st : LineSt
  data : List Byte
  poison : Bool
deriving DecidableEq, Repr

/-- A home directory entry (R199). No entry is state H. -/
inductive DirEnt where
  | shared (chips : List Nat)
  | excl (chip : Nat)
deriving DecidableEq, Repr

/-- A coherence request at a home (R202, R203): kind, line, requesting chip and agent, and the data of a WRL. -/
structure HomeReq where
  kind : ReqKind
  line : Nat
  chip : Nat
  agent : Nat
  data : List Byte
deriving DecidableEq, Repr

/-- A request the home is serving: it waits for these chips to acknowledge (R202, R203, R206). -/
structure HomeTxn where
  req : HomeReq
  await : List Nat
deriving DecidableEq, Repr

/-- A snoop that a caching agent holds until its data has arrived (R206). -/
inductive Snoop where
  | inv (line home : Nat)
  | fwdS (line home dest : Nat)
  | fwdX (line home dest : Nat)
deriving DecidableEq, Repr

/-- Coherence: the remote lines of this chip's Square cache, its outstanding requests, the snoops it holds and the
writebacks in flight, uncached data that has arrived (address, bytes), uncached requests on their way (address, agent), and addresses whose request ended in ERR; the home directory, the request being served for each line, the queue of each line, the last
winning key of each slice, and the starving requesters (R177, R198 to R206). Lines are global addresses / 128. -/
structure Coh where
  lines : Tab Line
  await : List HomeReq
  held : List Snoop
  wbOut : Tab (List Byte)
  ucGot : List ((Nat × Nat) × Option (List Byte))
  ucOut : List (Nat × Nat)
  errs : List Nat
  dir : Tab DirEnt
  serving : Tab HomeTxn
  queue : List HomeReq
  lastWin : Tab Nat
  starving : List (Nat × Nat)
deriving DecidableEq, Repr

/-- Memory marks (R173, R179, R207 to R209, R181): poisoned LP5X lines (address / 128) and 8-byte tile words
(tile address / 8), retired pages and rows with the candidates that wait, corrected errors in the last 24 h, and
the patrol address. -/
structure MemMarks where
  poisonLines : List Nat
  poisonWords : List Nat
  pages : List Nat
  rows : List Nat
  candidates : List (Nat × Bool)
  corrected : List (Nat × Nat)
  patrol : Nat
deriving DecidableEq, Repr

/-- An event in the hardware FIFO (R554): code, agent, argument and extended time. -/
structure Event where
  code : Nat
  agent : Nat
  args : List Nat
  at_ : Nat
deriving DecidableEq, Repr

/-- A packet of the fabric (R421, Table 13-5), with the port it arrived on and the time it reached this chip. -/
structure Packet where
  dst : Nat
  src : Nat
  seq : Nat
  ptype : Nat
  agent : Nat
  esc : Bool
  ga : Nat
  inl : List Byte
  data : List Byte
  port : Option Nat
  at_ : Nat
deriving DecidableEq, Repr

/-- What the chip sends to the outside. -/
inductive OutKind where
  | packet | msix | frame | pulse | pin | hostRead | hostWrite | symbol | flash | notice | response | datagram
  | jtag | flit | dctl | sysref | check
deriving DecidableEq, Repr

/-- One thing the chip has sent: its kind, numbers and bytes. -/
structure Out where
  kind : OutKind
  args : List Nat
  data : List Byte
deriving DecidableEq, Repr

/-- Packets at this chip (R423, R424): waiting to be sent or delivered (oldest first); the next E2E_SEQ and the sent packets not yet
acknowledged, by destination and channel (key 4 chip + channel); the next E2E_SEQ expected of each source and
channel, early arrivals, and deliveries since the last acknowledgement. -/
structure Fabric where
  waiting : List Packet
  nextSeq : Tab Nat
  unacked : List Packet
  expect : Tab Nat
  early : List Packet
  sinceAck : Tab Nat
deriving DecidableEq, Repr

/-- The time unit beside its registers (R379 to R399): whether CK_TIME runs; FRAC; the increment in effect; the
remaining slew in units of 2^-24 ns; the latches of 4-byte reads by source; held writes; the REF_TUNE value applied;
the end of the PPS pulse; the time of the last PPS edge; checks in a row above 1000 ns and within 500 ns, checks
completed since admission, the time of the last completed check; checks on their way (number, t1, STEP_SEQ) and the next number; interrupts pending at Warden. -/
structure TimeSt where
  running : Bool
  frac : Nat
  inc : Nat
  slew : Int
  latchHi : Tab Nat
  latchFrac : Tab Nat
  heldInc : Option Nat
  heldStep : Option Nat
  heldSlew : Option Nat
  tuned : Int
  pulseEnd : Option Nat
  lastEdge : Option Nat
  badRun : Nat
  goodRun : Nat
  sinceAdmit : Nat
  lastCheck : Nat
  sent : List (Nat × Nat × Nat)
  nextCheck : Nat
  wrapIrq : Bool
  edgeIrq : Bool
deriving DecidableEq, Repr

/-- What a unit has posted: a write that waits for the home of its line (R202), or a signal of a sync object, an MSI-X
vector or a queue message that follows the unit's earlier writes (R193, R448, R457). -/
inductive Posted where
  | write (who : Who) (ga : Nat) (data : List Byte) (poison : Bool)
  | signal (who : Who) (obj : Nat)
  | vector (who : Who) (v : Nat)
  | message (who : Who) (q : Nat) (data : List Byte)
deriving DecidableEq, Repr

/-- A batch of lookups held by the lookup engine (R297 to R300): its number and partition, the descriptor, the
row numbers once read, the positions not yet resolved, those sent to another chip with the data that has come for them, the failed positions with their
status, and the status that fails the whole batch. -/
structure Batch where
  num : Nat
  part : Nat
  desc : List Byte
  idx : Option (List Nat)
  todo : List Nat
  sent : List Nat
  got : Tab (List Byte)
  failed : List (Nat × Nat)
  whole : Option Nat
deriving DecidableEq, Repr

/-- A lookup request of another chip that waits for a line (R298). -/
structure LkupReq where
  chip : Nat
  token : Nat
  table : Nat
  row : Nat
  gen : Nat
  pos : Nat
  fmt : Nat
deriving DecidableEq, Repr

/-- An action a skew evaluation decided (R307). -/
inductive PoolAct where
  | replicate (table row chip : Nat)
  | moveShard (table shard a b : Nat)
  | dropReplica (table row : Nat)
deriving DecidableEq, Repr

/-- A replacement under way on this chip (R301, R304): the table, whether it is a whole-table swap, its rows, and its
generation. -/
structure Replacement where
  table : Nat
  paused : Bool
  rows : List Nat
  gen : Nat
deriving DecidableEq, Repr

/-- The pool beside its registers and memory (R297 to R310): batches, the next batch number, requests that wait, lookups
since the last sample, counts of the open 1 ms window (256 WSLOT + shard), heap slots in use (2^24 table + slot),
skew actions disabled by table, rows staged for a paused table with the layout they are staged under (TD_CTL, TD_ROWS), the shards and rows whose replacement is frozen by a move (table, number, is a row),
replicas to be copied again, samples Warden has collected, consecutive overloads of each table, evaluations without a sample of each replica, the actions
decided, replacements under way, shards that failed their check (256 table + shard), and what flash records at the last
commit: the CRC32C of each shard and POOL_GEN (R314). -/
structure PoolSt where
  batches : List Batch
  next : Nat
  later : List LkupReq
  sample : Nat
  win : Tab Nat
  used : List Nat
  policy : Tab Nat
  staged : Tab (Tab (List Byte))
  layout : Tab (Nat × Nat)
  frozen : List (Nat × Nat × Bool)
  recopy : List (Nat × Nat)
  seen : List SkewReport
  overload : Tab Nat
  idle : Tab Nat
  acts : List PoolAct
  repl : List Replacement
  unavail : List Nat
  crcs : Tab Nat
  genFlash : Nat
deriving DecidableEq, Repr

/-- An operation of the radio control page that has not ended (R336): the ID, and for a SELECT its direction and target
superframe. -/
inductive KmapOp where
  | register (id : Nat)
  | select (id dir target : Nat)
deriving DecidableEq, Repr

/-- The search of one whisper channel at one spreading factor (R341): hits in a row, the last peak, the first hit's
peak, time and ring offset, and the windows still to ignore. -/
structure Search where
  run : Nat
  last : Nat
  bin : Nat
  time : Nat
  ring : Nat
  ignore : Nat
deriving DecidableEq, Repr

/-- The radio beside its registers (R317 to R343): receive and transmit ring positions, the next SEQ, samples to be
zeroed, failed multiblocks of each lane in this second, whether the slot boundary has moved against the LEMC, the map
IDs bound to the last slots (slot, uplink, downlink), boundaries raised, the boundary each map ID was last bound at,
the operation in progress, whisper searches (16 channel + SF), false alarms with their times, and adjustments that wait
for a boundary. -/
structure RadioSt where
  rxNext : Nat
  txNext : Nat
  seq : Nat
  bad : List BadSamples
  crcSec : Tab Nat
  lemcMoved : Bool
  bound : List (Nat × Nat × Nat)
  boundaries : Nat
  lastBound : Tab Nat
  op : Option KmapOp
  search : Tab Search
  falses : List (Nat × Nat)
  adjust : List (Nat × Nat)
deriving DecidableEq, Repr

/-- A configuration plane (R356 to R361): the image loaded, its kind, its frames as the golden copy has them, and its LDPC
configurations. -/
structure WPlane where
  image : Nat
  kind : Nat
  frames : List Byte
  cfgs : List (List Byte)
deriving DecidableEq, Repr

/-- A transport block that an instance works on (R369, R372): codewords, slot, the next index expected, the statuses
that apply, whether it is skipped, the largest and the total iteration count, SUSPECT, and the decoded segments. -/
structure WBlock where
  num : Nat
  c : Nat
  slot : Nat
  next : Nat
  flags : List Nat
  skip : Bool
  maxIter : Nat
  total : Nat
  suspect : Bool
  segs : List (List Byte)
deriving DecidableEq, Repr

/-- A codeword descriptor held by an instance (R369): the submitting partition (none for Warden), the descriptor and
its block. -/
structure CwItem where
  part : Option Nat
  desc : List Byte
  block : Nat
deriving DecidableEq, Repr

/-- A codeword being decoded (R371): its descriptor, plane, configuration and LLRs. -/
structure CwRun where
  item : CwItem
  plane : Nat
  cfg : List Byte
  llr : List Byte
deriving DecidableEq, Repr

/-- A Weave instance beside its registers (R356 to R378): planes, planes bound to the last slots, the boundary each
plane was last bound at, descriptors held, the codeword in progress, blocks, the block being committed, the next block number, and
the records written since the last readback (plane and address). -/
structure Weave where
  planes : Tab WPlane
  bound : List (Nat × Nat)
  lastBound : Tab Nat
  fifo : List CwItem
  cur : Option CwRun
  blocks : List WBlock
  ctx : Option Nat
  next : Nat
  recs : List (Nat × Nat)
deriving DecidableEq, Repr

/-- An Adruoth port beside its registers (R407 to R419): lanes locked, the next FSEQ to send, unacknowledged flits with
their FSEQ, flits that wait for room, the next FSEQ to receive, whether it discards after a NAK, resends without an advance, credits held
(adaptive then escape, virtual channels 0 to 3), the payloads of a packet being received with its credit kind, packets sent with the count of their last flit,
flits freed so far and sent so far, the time it entered its state, and whether the last packet of the message and request channels was a message (R420). -/
structure Port where
  lanes : Nat
  txNext : Nat
  replay : List (Nat × Nat)
  txq : List Nat
  rxNext : Nat
  nakked : Bool
  resends : Nat
  credits : List Nat
  part : List Nat
  sent : List (Nat × Packet)
  freed : Nat
  total : Nat
  since : Nat
  lastMsg : Bool
deriving DecidableEq, Repr

/-- A membership change announced by the leader (R429): the chip, when it was received, whether this chip has applied it,
and the members that have confirmed. -/
structure PendMember where
  chip : Nat
  at_ : Nat
  applied : Bool
  confirms : List Nat
deriving DecidableEq, Repr

/-- The domain beside its registers (R426 to R435): the block, the chip ID it gives this chip, this die's DIE_ID, whether
the leader has admitted it, PROTO and FEATURES of members, the chips that each chip reaches, the last heartbeat or answer of each chip,
pending membership changes, whether routes are to be installed, whether JOIN has been sent, chips that have
left, the DIE_ID each chip has claimed, and whether tables leave FROZEN at the next boundary (R435). -/
structure Domain where
  block : Option (List Byte)
  own : Nat
  die : Nat
  admitted : Bool
  protos : Tab Nat
  feats : Tab Nat
  reach : Tab Nat
  hb : Tab Nat
  pend : List PendMember
  routesDue : Bool
  joinSent : Bool
  left : List Nat
  dies : Tab Nat
  thaw : Bool
deriving DecidableEq, Repr

/-- The host port beside its registers (R443, R449): the descriptors each copy channel holds, oldest first, with their channel's owner
partition at commit, the time the oldest started, and log2 of the GiB that window B spans. -/
structure HostIo where
  hdma : Tab (List (List Byte))
  hdmaAt : Tab Nat
  barB : Nat
deriving DecidableEq, Repr

/-- Ethernet beside its registers: completions of each ring (8 port + ring) not yet notified with the time of the oldest
(R457), the time until which a port honours a pause (R453), and what PTP_SET set for each port: mode, domain, role (R393). -/
structure EthSt where
  done : Tab (Nat × Nat)
  paused : Tab Nat
  ptp : Tab (Nat × Nat × Nat)
deriving DecidableEq, Repr

/-- A flash command in progress (R463): device, opcode, address, data. -/
structure FlashCmd where
  dev : Nat
  op : Nat
  addr : Nat
  data : List Byte
deriving DecidableEq, Repr

/-- The flash controller beside its registers (R462, R463): the buffered lines of each device with their number, the most
recently used first; the commands in progress; and the address of a read just refused because its device is busy. -/
structure FlashSt where
  buf : Tab (List (Nat × List Byte))
  cmds : List FlashCmd
  refused : Option Nat
deriving DecidableEq, Repr

/-- A request that Warden keeps for retries (R478): its SEQ, its 64 bytes, its ticket, the response, and the JOB_DONE notice of its
job. -/
structure KeptReq where
  seq : Nat
  msg : List Byte
  ticket : Nat
  rsp : Option (List Byte)
  done : Option (List Byte)
deriving DecidableEq, Repr

/-- A response owed on a pair, in ring order (R482): its ticket, the ticket whose response it repeats, and the response once known. -/
structure Owed where
  ticket : Nat
  again : Option Nat
  rsp : Option (List Byte)
deriving DecidableEq, Repr

/-- One requester's mailbox rings (Table 15-2, R473, R479), with kept requests and owed responses, and for the management
agent the address and port that its requests came from. -/
structure Mail where
  req : Tab (List Byte)
  rsp : Tab (List Byte)
  ntc : Tab (List Byte)
  reqTail : Nat
  reqHead : Nat
  rspTail : Nat
  rspHead : Nat
  ntcTail : Nat
  ntcHead : Nat
  identified : Bool
  ntcLost : Nat
  vector : Nat
  vecEn : Bool
  nclass : Nat
  ntcSeq : Nat
  ticket : Nat
  kept : List KeptReq
  owed : List Owed
  from_ : Nat
deriving DecidableEq, Repr

/-- A class B command accepted for a boundary (R481), with the time of its acceptance and the data that its reference gave. -/
structure BCmd where
  key : Nat
  ticket : Nat
  msg : List Byte
  at_ : Nat
  data : List Byte
deriving DecidableEq, Repr

/-- A job under way (R481, R484): its request, the data its reference gave and whether that was poisoned, and what it has come
to: for a replacement the generation written, for the radio the first slot number, once known, and whether it has taken effect. -/
structure Job where
  id : Nat
  key : Nat
  ticket : Nat
  msg : List Byte
  data : List Byte
  bad : Bool
  value : Option Nat
  done : Bool
deriving DecidableEq, Repr

/-- A log entry (Table 18-3). -/
structure LogEntry where
  at_ : Nat
  code : Nat
  agent : Nat
  chip : Nat
  count : Nat
  arg : List Byte
deriving DecidableEq, Repr

/-- What MGMT_SET installed (R475): address, prefix length, gateway, key. -/
structure MgmtCfg where
  ip : Nat
  len : Nat
  gateway : Nat
  key : List Byte
deriving DecidableEq, Repr

/-- The budget in force (R515, R517): BUDGET_MW, FLOOR_MW, SOC, HORIZON_S and when it came. -/
structure Budget where
  mw : Nat
  floor : Nat
  soc : Nat
  horizon : Nat
  at_ : Nat
deriving DecidableEq, Repr

/-- A telemetry sample (R487): input mV and mA, chip and module mW, Quarter temperatures in 0.1 degrees C, mW of partitions, its time. -/
structure Telem where
  vin : Nat
  iin : Nat
  chip : Nat
  mod : Nat
  temps : List Int
  parts : List Nat
  at_ : Nat
deriving DecidableEq, Repr

/-- Power planning (R509 to R520): the budget, the granted cap and the cap used at the last plan, the last samples, the widths of ports
before NIGHT, the registers, the Weave 0 image and the radio's sync objects held for a wake from WATCH, whether a wake came during
entry, whether the radio waits for its link after one, the state being entered with the time its entry began, the stretches of each Quarter in this second, and whether an overrun waits. -/
structure PowerSt where
  budget : Option Budget
  cap : Nat
  planCap : Nat
  samples : List Telem
  widths : Tab Nat
  saved : List (Nat × Nat)
  plane : Option WPlane
  objs : List (Nat × SyncObj)
  wakeDue : Bool
  wakeUp : Bool
  entering : Option (Nat × Nat)
  stretches : Tab Nat
  overrun : Bool
deriving DecidableEq, Repr

/-- One PRBS session (R559, R560): LINK, port, lanes, pattern, whether the generator and the checker run, locked lanes, error counts by
lane, bits compared, losses of lock. -/
structure Prbs where
  link : Nat
  port : Nat
  lanes : Nat
  pattern : Nat
  gen : Bool
  chk : Bool
  lock : Nat
  errs : Tab Nat
  bits : Nat
  losses : Nat
deriving DecidableEq, Repr

/-- A prediction (R573): days, lower and upper bound, confidence, dominant indicator, model update time. -/
structure Predict where
  days : Nat
  lo : Nat
  hi : Nat
  conf : Nat
  dom : Nat
  at_ : Nat
deriving DecidableEq, Repr

/-- A daily health record (R572): its day, the values of the seven indicators, the erase count, the device that holds
it, and the prediction made last. -/
structure HealthRec where
  day : Nat
  values : List Nat
  erases : Nat
  dev : Nat
  pred : Predict
deriving DecidableEq, Repr

/-- Health (R568 to R575): records, the prediction, the values of the indicators now, the last notice, and when the last hold-up test completed. -/
structure HealthSt where
  recs : List HealthRec
  pred : Predict
  now_ : List Nat
  noticeAt : Option Nat
  testAt : Option Nat
deriving DecidableEq, Repr

/-- The test port (R564 to R567): the TAP instruction, the boundary register's pins held, the value of the last MBOX read, words
appended by RECOVER, the unlock scope, bits 0 to 2. -/
structure TapSt where
  ir : Nat
  dr : Nat
  boundary : List Byte
  read : Nat
  sram : List Byte
  scope : Nat
deriving DecidableEq, Repr

/-- What OTP and its shadow hold (R538): the root-key hashes with their revocation bits, the rollback floor, DROOP_THR, the life-cycle
state; DIE_ID stands in Domain. `badKeys` and `badFloor` name the shadow words with an uncorrectable error, until OTP is sensed again
(R552). -/
structure Otp where
  keys : List Nat
  revoked : Nat
  floor : Nat
  droop : Nat
  life : Nat
  badKeys : Nat
  badFloor : Bool
deriving DecidableEq, Repr

/-- A Kennel journal entry (R535): page or row number, whether it is a page, its reason. -/
structure KennelEnt where
  num : Nat
  page : Bool
  reason : Nat
deriving DecidableEq, Repr

/-- The boot (R537 to R540): whether power is on, whether Warden is held in its boot ROM, whether it runs a recovery image, the
governing UPDATE_SEQ, the boot's time, boots counted, the Kennel journals of both devices, whether the
chip is in DORMANT and whether a brown-out took it there, since when the image has run without a watchdog restart, the time of the last
DORMANT exit, and a core (1) or warm (2) reset whose leave is under way, with its cause. -/
structure BootSt where
  power : Bool
  rom : Bool
  recovery : Bool
  seq : Nat
  at_ : Nat
  boots : Nat
  journals : Tab (List KennelEnt)
  dormant : Bool
  brownout : Bool
  cleanSince : Nat
  exitAt : Nat
  leaving : Option (Nat × Nat)
deriving DecidableEq, Repr

/-- What a checkpoint keeps of a core (R541, R545): its number, its block's CRC32C, CLAIM_RPC, and what the core holds aside
of its suspended task. -/
structure CkptCore where
  core : Nat
  crc : Nat
  rpc : Nat
  held : HeldTask
deriving DecidableEq, Repr

/-- One partition's checkpoint (R541, R545): its PART_SET values, its queues' registers, its objects, its binding slots, its tasks, and its cores. -/
structure Ckpt where
  part : Nat
  cfg : List Nat
  queues : List (Nat × Nat)
  objs : List (Nat × SyncObj)
  binds : List (Nat × Nat)
  tasks : List Task
  cores : List CkptCore
deriving DecidableEq, Repr

/-- Warden beside its registers (R469 to R500, R554 to R579): mailboxes by key, pairs that are READY, EPOCH, class B
commands accepted, jobs, the log, its next index and the value of EVT_LOST at its last entry, EVENT notices by code (time, count since), management configuration and its bad datagrams, policies
accepted, power planning, PRBS sessions, health, the test port, OTP, boot, the checkpoint, Kennel candidates that wait for their owner,
the time from which the heartbeat counts, and Quarters whose removal from a partition waits for a claim to end, with the partition they go to (R45). -/
structure WdnSt where
  mails : Tab Mail
  ready : Nat
  epoch : Nat
  accepted : List BCmd
  jobs : List Job
  nextJob : Nat
  log : List LogEntry
  logNext : Nat
  lostSeen : Nat
  noticed : Tab Nat
  quiet : Tab Nat
  mgmt : Option MgmtCfg
  mgmtBad : Nat
  power : PowerSt
  prbs : List Prbs
  health : HealthSt
  tap : TapSt
  otp : Otp
  boot : BootSt
  ckpt : List Ckpt
  candidates : List Nat
  hbAt : Nat
  removals : List (Nat × Nat × Option Nat)
deriving DecidableEq, Repr

/-- The energy guard and the rails (R521, R591): whether the input switch is closed, the input voltage in 10 mV, times of the last over-current
openings, whether it is held open until the input is removed, whether a thermal trip holds the module OFF, THERM_N, and when the
input last rose to 35.0 V. -/
structure GuardSt where
  closed : Bool
  vin : Nat
  opens : List Nat
  latched : Bool
  tripped : Bool
  thermN : Bool
  goodSince : Option Nat
deriving DecidableEq, Repr

/-- The state of the chip. -/
structure State where
  pending : List Instr
  mem : List Host.Cell
  stores : List (Nat × Byte)
  posted : List Posted
  marks : MemMarks
  regs : Tab W32
  cores : Tab Core
  syncs : Tab SyncObj
  queues : Queues
  sched : Sched
  coh : Coh
  fabric : Fabric
  time : TimeSt
  pool : PoolSt
  radio : RadioSt
  weave : Tab Weave
  ports : Tab Port
  domain : Domain
  host : HostIo
  eth : EthSt
  flash : FlashSt
  wdn : WdnSt
  guard : GuardSt
  events : List Event
  out : List Out
  fresh : Nat
deriving DecidableEq, Repr

/-! ### Reset values (R10, R34, R48, R62, R101, R252, R286, R406, R440, R500, R529, R579)

Registers that a table names are not listed after reset: each reads as its Reset value. What no table gives a value is
named in the log entries 8, 9, 10 and 31. -/

/-- Memory marks: nothing is poisoned, retired or counted, and the patrol stands at the lowest address (R181, R216). -/
def MemMarks.reset : MemMarks := ⟨[], [], [], [], [], [], 0⟩

/-- The queue unit (R252). -/
def Queues.reset : Queues := ⟨[], [], [], 0, 0, [], [], []⟩

/-- The schedulers hold no task (R286). -/
def Sched.reset : Sched := ⟨[], 0, [], [], []⟩

/-- The Square cache is empty and every directory entry is in H (R216). -/
def Coh.reset : Coh := ⟨[], [], [], [], [], [], [], [], [], [], [], []⟩

/-- No packet is held (R440). -/
def Fabric.reset : Fabric := ⟨[], [], [], [], [], []⟩

/-- The time unit counts from 0 once the root PLL has locked (R406). -/
def TimeSt.reset : TimeSt :=
  { running := false, frac := 0, inc := 0x0411AAAB, slew := 0, latchHi := [], latchFrac := [], heldInc := none, heldStep := none,
    heldSlew := none, tuned := 0, pulseEnd := none, lastEdge := none, badRun := 0, goodRun := 0, sinceAdmit := 0, lastCheck := 0,
    sent := [], nextCheck := 0, wrapIrq := false, edgeIrq := false }

/-- The pool (R314). -/
def PoolSt.reset : PoolSt :=
  { batches := [], next := 0, later := [], sample := 0, win := [], used := [], policy := [], staged := [], layout := [], frozen := [], recopy := [], seen := [],
    overload := [], idle := [], acts := [], repl := [], unavail := [], crcs := [], genFlash := 0 }

/-- The radio. -/
def RadioSt.reset : RadioSt :=
  { rxNext := 0, txNext := 0, seq := 0, bad := [], crcSec := [], lemcMoved := false, bound := [], boundaries := 0, lastBound := [],
    op := none, search := [], falses := [], adjust := [] }

/-- The domain: the chip is SOLO and holds no block (R440). -/
def Domain.reset : Domain :=
  { block := none, own := 0, die := 0, admitted := false, protos := [], feats := [], reach := [], hb := [], pend := [],
    routesDue := false, joinSent := false, left := [], dies := [], thaw := false }

/-- The host port: window B spans 16 GiB. -/
def HostIo.reset : HostIo := ⟨[], [], 4⟩

/-- Ethernet. -/
def EthSt.reset : EthSt := ⟨[], [], []⟩

/-- The flash controller. -/
def FlashSt.reset : FlashSt := ⟨[], [], none⟩

/-- No prediction is held (R573). -/
def Predict.reset : Predict := ⟨0xFFFFFFFF, 0xFFFFFFFF, 0xFFFFFFFF, 0, 0, 0⟩

/-- Power planning: a cap of 12 000 mW (R508). -/
def PowerSt.reset : PowerSt :=
  { budget := none, cap := 12000, planCap := 12000, samples := [], widths := [], saved := [], plane := none, objs := [], wakeDue := false,
    wakeUp := false, entering := none, stretches := [], overrun := false }

/-- The boot, before power-on. -/
def BootSt.reset : BootSt :=
  { power := false, rom := false, recovery := false, seq := 0, at_ := 0, boots := 0, journals := [], dormant := false,
    brownout := false, cleanSince := 0, exitAt := 0, leaving := none }

/-- The test port: IDCODE is selected (R564). -/
def TapSt.reset : TapSt := ⟨2, 0, [], 0, [], 0⟩

/-- OTP (log entry 8). -/
def Otp.reset : Otp := ⟨[0, 0, 0, 0], 0, 0, 30, 0, 0, false⟩

/-- Warden. -/
def WdnSt.reset : WdnSt :=
  { mails := [], ready := 0, epoch := 0, accepted := [], jobs := [], nextJob := 0, log := [], logNext := 0, lostSeen := 0,
    noticed := [], quiet := [], mgmt := none, mgmtBad := 0, power := PowerSt.reset, prbs := [],
    health := ⟨[], Predict.reset, [0, 0, 0, 0, 0, 0, 0], none, none⟩, tap := TapSt.reset, otp := Otp.reset, boot := BootSt.reset,
    ckpt := [], candidates := [], hbAt := 0, removals := [] }

/-- The Energy Guard without input. -/
def GuardSt.reset : GuardSt := ⟨false, 0, [], false, false, false, none⟩

/-- The chip right after reset, before the start-up sequence has run (R529, R538). -/
def State.reset : State :=
  { pending := [], mem := [], stores := [], posted := [], marks := MemMarks.reset, regs := [], cores := [], syncs := [],
    queues := Queues.reset, sched := Sched.reset, coh := Coh.reset, fabric := Fabric.reset, time := TimeSt.reset,
    pool := PoolSt.reset, radio := RadioSt.reset, weave := [], ports := [], domain := Domain.reset, host := HostIo.reset,
    eth := EthSt.reset, flash := FlashSt.reset, wdn := WdnSt.reset, guard := GuardSt.reset, events := [], out := [], fresh := 0 }

end Sys2Proof.Machine
end

