-- ==== Sys2Proof/Machine/Ops.lean ====
section
/-!
DEFINITION. The named operations over registers, memory, cores, events and packets that every meaning uses.
-/
namespace Sys2Proof.Machine

/-! ### Device registers (R8, R9, R10) -/

/-- The word of the device register region at an offset: what was last stored there, or its Reset value. -/
def reg (s : State) (off : Nat) : Nat :=
  match tabFind s.regs off with
  | some w => w.toNat
  | none => rowsReset (devRows off) off

/-- Store a word of the device register region. -/
def setReg (s : State) (off v : Nat) : State := { s with regs := tabSet s.regs off (BitVec.ofNat 32 v) }

/-- A field of a device register. -/
def fld (s : State) (f : Fld) : Nat := bitsOf (reg s f.off) f.hi f.lo

/-- A one-bit field of a device register. -/
def flag (s : State) (f : Fld) : Bool := fld s f = 1

/-- Store a field of a device register; its other bits stay. -/
def setFld (s : State) (f : Fld) (v : Nat) : State := setReg s f.off (putBits (reg s f.off) f.hi f.lo v)

/-- Store one-bit field. -/
def setFlag (s : State) (f : Fld) (b : Bool) : State := setFld s f (num b)

/-- Count up in a field, wrapping at its width. -/
def bump (s : State) (f : Fld) : State := setFld s f (fld s f + 1)

/-- Count up in a field that saturates at its largest value (R558). -/
def bumpSat (s : State) (f : Fld) : State :=
  setFld s f (min (fld s f + 1) (2 ^ (f.hi + 1 - f.lo) - 1))

/-! ### Cores and their system registers (R64, R96) -/

/-- Lane rows as Pilot finds them at its start (R172). -/
def Lanes.reset : Lanes := ⟨[], [], [], [], [], [], none, none, none, false, false⟩

/-- A core as R101 and R34 leave it: held in reset, every register at its Reset value. -/
def Core.reset : Core :=
  { s := [], acc := [], a := [], b := [], l := [], m := [], pc := 0, sys := [], delayed := [], dslots := 0,
    land := .none, atHeel := false, loopTop := true, runLen := 0, stale := [], run := .inReset, v := [], k := [],
    vparity := [], lanes := Lanes.reset, rescale := [], dmas := [], asyncs := [], task := none, abortCause := none, claim := none,
    held := none }

/-- Core `c`. -/
def core (s : State) (c : Nat) : Core := tabGet s.cores c Core.reset

/-- Store core `c`. -/
def setCore (s : State) (c : Nat) (k : Core) : State := { s with cores := tabSet s.cores c k }

/-- Change core `c`. -/
def onCore (s : State) (c : Nat) (f : Core → Core) : State := setCore s c (f (core s c))

/-- The system register of a core at an INDEX (R96). CORE_ID holds the core's own number. -/
def Core.sysWord (k : Core) (c i : Nat) : Nat :=
  if i = R.CORE_ID.val.off then c
  else
    match tabFind k.sys i with
    | some w => w.toNat
    | none => rowsReset sysRows i

/-- A field of a system register. -/
def Core.sysFld (k : Core) (f : Fld) : Nat := bitsOf (k.sysWord 0 f.off) f.hi f.lo

/-- A one-bit field of a system register. -/
def Core.sysFlag (k : Core) (f : Fld) : Bool := k.sysFld f = 1

/-- Store a field of a system register. -/
def Core.setSys (k : Core) (f : Fld) (v : Nat) : Core :=
  { k with sys := tabSet k.sys f.off (BitVec.ofNat 32 (putBits (k.sysWord 0 f.off) f.hi f.lo v)) }

/-- Store a whole system register. -/
def Core.setSysWord (k : Core) (i v : Nat) : Core := { k with sys := tabSet k.sys i (BitVec.ofNat 32 v) }

/-- A scalar register; S_0 reads as zero (R65). -/
def Core.sreg (k : Core) (i : Nat) : W32 := if i = 0 then 0 else tabGet k.s i 0

/-- Write a scalar register; a write to S_0 is discarded (R65). -/
def Core.setSreg (k : Core) (i : Nat) (v : W32) : Core := if i = 0 then k else { k with s := tabSet k.s i v }

/-- Make an interrupt cause pending on a core (Table 3-8, IPEND). -/
def raiseIrq (s : State) (c code : Nat) : State :=
  onCore s c (fun k => k.setSys ⟨R.IPEND.val.off, code, code⟩ 1)

/-- The partition that a Quarter is assigned to, powered or not (R32, R253). -/
def quarterHome (s : State) (q : Nat) : Option Nat :=
  (List.range 12).find? (fun p => flag s (R.PART_CFG.EN p) && bitOf (fld s (R.PART_CFG.QMASK p)) q)

/-- The partition that a Quarter works for. One that a plan has gated has left its partition until a plan returns it; its
QMASK bit stays (R518). -/
def quarterPart (s : State) (q : Nat) : Option Nat := if flag s (R.QCLK.GATED q) then none else quarterHome s q

/-- Is a core powered? In NIGHT cores 4 to 7 of the radio Quarter are gated (R510). -/
def coreOn (s : State) (c : Nat) : Bool := !flag s (R.QCLK.GATED (c / 8)) && (fld s R.PWR_STATE.STATE ≠ 2 || c % 8 < 4)

/-- The partition that a core belongs to (R18, R32). -/
def corePart (s : State) (c : Nat) : Option Nat := quarterPart s (c / 8)

/-- The partition a core counts in: the claiming one while it is borrowed (R175), otherwise its own. -/
def activePart (s : State) (c : Nat) : Option Nat :=
  match (core s c).claim with
  | some cl => if (core s c).sysFlag R.CLAIM.BORROWED then some cl.part else corePart s c
  | none => corePart s c

/-! ### Free values, outputs, events, packets -/

/-- Number the next free value. -/
def tickFresh (s : State) : State := { s with fresh := s.fresh + 1 }

/-- Send something to the outside. -/
def emit (s : State) (k : OutKind) (args : List Nat) (data : List Byte) : State :=
  { s with out := ⟨k, args, data⟩ :: s.out }

/-- The extended time in ns (R380): EPOCH_EFF and NS. -/
def extTime (s : State) : Nat :=
  2 ^ 32 * ((fld s R.TIME_EPOCH.EPOCH + fld s R.TIME_STAT.WRAP_PENDING) % 2 ^ 32) + fld s R.TIME_NS.NS

/-- Report an event to Warden: the FIFO holds 256 entries; one that finds it full is dropped and counted (R554). -/
def report (s : State) (code agent : Nat) (args : List Nat) : State :=
  if s.events.length < 256 then { s with events := s.events ++ [⟨code, agent, args, extTime s⟩] }
  else bumpSat s R.EVT_LOST.val

/-- The time that 4-byte time stamps use: CK_TIME nanoseconds (R379). -/
def nowNs (s : State) : Nat := fld s R.TIME_NS.NS

/-- This chip's own ID in effect (R27, R28). -/
def chipId (s : State) : Nat := fld s R.ADR_CHIP.ID

/-- Is the chip a current member of the domain (R28, R43)? The own chip always answers. -/
def isMember (s : State) (chip : Nat) : Bool :=
  chip = chipId s || bitOf (fld s R.ADR_MEMBERS.CURRENT) chip

/-- The virtual channel of a packet type (Table 13-6), as flits code it: 0 request, 1 response, 2 snoop, 3 message. -/
def ptypeVc (p : Nat) : Nat := if p < 0x10 then 0 else if p < 0x20 then 2 else if p < 0x30 then 1 else 3

/-- The chip ID this chip goes by: while it joins, the one that the domain block gives it (R429). -/
def selfName (s : State) : Nat := if fld s R.ADR_CHIP.SELF_STATE = 1 then s.domain.own else chipId s

/-- Is a feature of Table 13-9 on? A chip that is no member is bound by no intersection (R433). -/
def featOn (s : State) (b : Nat) : Bool := fld s R.ADR_CHIP.SELF_STATE ≠ 2 || bitOf (fld s R.ADR_FEAT.val) b

/-- Hand a packet to the fabric. It takes the next E2E_SEQ of its destination and channel (R424); an E2E_ACK takes none
(log entry 22). -/
def sendPkt (s : State) (dst ptype agent ga : Nat) (inl data : List Byte) : State :=
  let key := 4 * dst + ptypeVc ptype
  let n := tabGet s.fabric.nextSeq key 0
  let p : Packet := ⟨dst, selfName s, if ptype = 0x2B then 0 else n, ptype, agent, false, ga, inl, data, none, nowNs s⟩
  let f := { s.fabric with waiting := s.fabric.waiting ++ [p] }
  { s with
    fabric := if ptype = 0x2B then f else { f with nextSeq := tabSet f.nextSeq key ((n + 1) % 1024) } }

/-! ### Memory (R24, R25, R66) -/

/-- A byte of memory: an unlisted address reads as zero (log entry 5). -/
def memRead (m : List Host.Cell) (a : Nat) : Byte := tabGet m a 0

/-- Write a byte of memory in canonical form: a zero byte is not listed. -/
def memWrite (m : List Host.Cell) (a : Nat) (b : Byte) : List Host.Cell :=
  if b = 0 then tabErase m a else tabSet m a b

/-- The canonical form: addresses strictly rising, no entry that an unlisted address reads as. -/
def Memory.wf : List Host.Cell → Bool
  | [] => true
  | [p] => p.2 ≠ 0
  | p :: q :: t => p.2 ≠ 0 && p.1 < q.1 && Memory.wf (q :: t)

/-- Write a list of bytes, the newest first in the list. -/
def memApply (w : List (Nat × Byte)) (m : List Host.Cell) : List Host.Cell :=
  w.foldr (fun p m => memWrite m p.1 p.2) m

/-- The newest store to an address among the stores of this command. -/
def storeFind : List (Nat × Byte) → Nat → Option Byte
  | [], _ => none
  | (a, b) :: t, x => if x = a then some b else storeFind t x

/-- A byte as the command in progress sees it. -/
def byteAt (s : State) (a : Nat) : Byte :=
  match storeFind s.stores a with
  | some b => b
  | none => memRead s.mem a

/-- `n` bytes from a model address. -/
def bytesAt (s : State) (a n : Nat) : List Byte := (List.range n).map (fun i => byteAt s (a + i))

/-- Store bytes at a model address. -/
def storeBytes (s : State) (a : Nat) (d : List Byte) : State :=
  { s with stores := (List.zip ((List.range d.length).map (a + ·)) d).reverse ++ s.stores }

/-- End a command: its stores reach memory, which is in canonical form again. -/
def finish (s : State) : Host.Outcome State Fault Refusal :=
  .next { s with mem := memApply (s.stores ++ s.mem) [], stores := [] }

/-- The model's key of a tile-memory byte: its local address (Table 1-5). -/
def tileAddr (c off : Nat) : Nat := 0x80000000000 + c * 0x200000 + off

/-- The model's key of an IMEM byte; IMEM has no local address, so the key lies above the 44-bit space. -/
def imemAddr (c off : Nat) : Nat := 0x100000000000 + c * 0x20000 + off

/-- The model's key of a rescale-table byte, under which its poison is marked. -/
def rescAddr (c off : Nat) : Nat := 0x200000000000 + c * 0x4000 + off

/-- The model's key of a flash byte: the execute-in-place address of device 0 (A) or 1 (B), R24, R26. -/
def flashAddr (dev off : Nat) : Nat := 0xB0000000000 + dev * 0x8000000 + off

/-- The end of usable LP5X: 62 GiB (R180). -/
def lp5xEnd : Nat := 0xF80000000

/-- Memory that loses power: the range reads as memory that was never written. -/
def eraseRange (s : State) (a n : Nat) : State :=
  let out (x : Nat × Byte) : Bool := !(a ≤ x.1 && x.1 < a + n)
  { s with mem := s.mem.filter out, stores := s.stores.filter out }

/-! ### Poison (R173, R179) -/

/-- Is any part of the range poisoned? LP5X by 128-byte line, tile memory by 8-byte word. -/
def poisoned (s : State) (a n : Nat) : Bool :=
  if a < lp5xEnd then (List.range (n / 128 + 2)).any (fun i =>
    128 * (a / 128 + i) < a + n && s.marks.poisonLines.contains (a / 128 + i))
  else (List.range (n / 8 + 2)).any (fun i => 8 * (a / 8 + i) < a + n && s.marks.poisonWords.contains (a / 8 + i))

/-- Poison every unit of a range. -/
def poisonRange (s : State) (a n : Nat) : State :=
  if n = 0 then s
  else if a < lp5xEnd then
    let l := forN ((a + n - 1) / 128 + 1 - a / 128) (fun i l => setAdd l (a / 128 + i)) s.marks.poisonLines
    { s with marks := { s.marks with poisonLines := l } }
  else
    let l := forN ((a + n - 1) / 8 + 1 - a / 8) (fun i l => setAdd l (a / 8 + i)) s.marks.poisonWords
    { s with marks := { s.marks with poisonWords := l } }

/-- Clear the poison of every unit that a write of the range covers whole (R173, R179). -/
def cleanRange (s : State) (a n : Nat) : State :=
  if a < lp5xEnd then
    let l := s.marks.poisonLines.filter (fun l => !(a ≤ 128 * l && 128 * l + 128 ≤ a + n))
    { s with marks := { s.marks with poisonLines := l } }
  else
    let l := s.marks.poisonWords.filter (fun l => !(a ≤ 8 * l && 8 * l + 8 ≤ a + n))
    { s with marks := { s.marks with poisonWords := l } }

/-- Write bytes to chip memory, with the poison the data carries. -/
def writeMem (s : State) (a : Nat) (d : List Byte) (poison : Bool) : State :=
  let s := storeBytes (cleanRange s a d.length) a d
  if poison then poisonRange s a d.length else s

/-! ### Links under test (R561) -/

/-- Is a link and port out of service for a PRBS test? -/
def prbsOn (s : State) (link port : Nat) : Bool :=
  s.wdn.prbs.any (fun x => x.link = link && x.port = port && (x.gen || x.chk))

/-- Do the pins follow the boundary register (R564)? EXTEST, CLAMP, HIGHZ, EXTEST_PULSE or EXTEST_TRAIN is loaded. -/
def pinsDriven (s : State) : Bool := [0, 3, 4, 5, 6].contains s.wdn.tap.ir

/-- Is a link out of service: under a PRBS test, or with the pins driven by the test port? -/
def linkHeld (s : State) (link port : Nat) : Bool := prbsOn s link port || pinsDriven s

end Sys2Proof.Machine
end

