-- ==== Sys2Proof/Machine/Clock.lean ====
section
/-!
DEFINITION. The counter of the time unit (R379 to R382, R386, R387) and the passing of CK_TIME ticks.
-/
namespace Sys2Proof.Machine

/-- Change the time unit. -/
def onTime (s : State) (f : TimeSt → TimeSt) : State := { s with time := f s.time }

/-- EPOCH_EFF: EPOCH plus WRAP_PENDING (R380). -/
def epochEff (s : State) : Nat := (fld s R.TIME_EPOCH.EPOCH + fld s R.TIME_STAT.WRAP_PENDING) % 2 ^ 32

/-- The counter NS.FRAC as one number. -/
def counter (s : State) : Nat := 2 ^ 24 * nowNs s + s.time.frac

/-- Store NS.FRAC and HALF, which reads NS[31]. -/
def setCounter (s : State) (t : Nat) : State :=
  let s := setFld s R.TIME_NS.NS (t / 2 ^ 24)
  let s := setFlag s R.TIME_STAT.HALF (bitOf (t / 2 ^ 24) 31)
  onTime s (fun x => { x with frac := t % 2 ^ 24 })

/-- The counter wraps: WRAP_PENDING is set and Warden is interrupted (R380). -/
def timeWrap (s : State) : State :=
  onTime (setFlag s R.TIME_STAT.WRAP_PENDING true) (fun x => { x with wrapIrq := true })

/-- HALF rises: with WRAP_PENDING still set the hardware increments EPOCH itself (R382). -/
def halfRise (s : State) : State :=
  if flag s R.TIME_STAT.WRAP_PENDING then
    let s := bump s R.TIME_EPOCH.EPOCH
    let s := setFlag s R.TIME_STAT.WRAP_PENDING false
    let s := setFlag s R.TIME_STAT.EPOCH_LATE true
    report s 0x0505 0x7F [fld s R.TIME_EPOCH.EPOCH]
  else s

/-- The half periods of the counter that lie between two of its values, in order: odd ones are rises of HALF, even
ones wraps. -/
def crossings (s : State) (lo hi : Nat) : State :=
  (List.range (hi / 2 ^ 55 - lo / 2 ^ 55)).foldl (fun s i =>
    if (lo / 2 ^ 55 + 1 + i) % 2 = 0 then timeWrap s else halfRise s) s

/-- The applied REF_TUNE value moves toward the written one at 0.1 ppm per ms, which is one LSB of 10/32 768 ppm in 750
ticks (R387). It is held in units of 1/750 LSB. -/
def tuneMove (s : State) (n : Nat) : State :=
  let goal := 750 * signed 16 (reg s R.REF_TUNE.val.off)
  let d := max (-(n : Int)) (min (n : Int) (goal - s.time.tuned))
  onTime s (fun x => { x with tuned := x.tuned + d })

/-- `n` CK_TIME ticks pass: the counter adds INC at each, with the slew of R387 while one remains. -/
def advance (s : State) (n : Nat) : State :=
  if s.time.running then
    let lo := counter s
    let step := n * (s.time.inc / 1024)
    let corr : Int := max (-(step : Int)) (min (step : Int) s.time.slew)
    let hi := ((lo + n * s.time.inc : Nat) : Int) + corr |>.toNat
    let s := onTime s (fun x => { x with slew := x.slew - corr })
    let s := if s.time.heldSlew.isSome then s else setFld s R.TIME_SLEW.val (wrapTo 32 (divHalfEven s.time.slew (2 ^ 24)))
    let s := setFlag s R.TIME_STAT.SLEW_BUSY (s.time.slew ≠ 0)
    let s := tuneMove s n
    crossings (setCounter s (hi % 2 ^ 56)) lo hi
  else s

/-- What a step does while no command waits: one CK_TIME tick of the time unit (log entry 1). -/
def tick (s : State) : Host.Outcome State Fault Refusal := finish (advance s 1)

/-- Has a 32-bit deadline been reached: (int32)(time − deadline) ≥ 0 (R267, R386)? -/
def due (s : State) (deadline : Nat) : Bool := (nowNs s + 2 ^ 32 - deadline % 2 ^ 32) % 2 ^ 32 < 2 ^ 31

end Sys2Proof.Machine
end

