-- ==== Sys2Proof/Machine/Crc.lean ====
section
/-!
DEFINITION. Cyclic redundancy checks, bit by bit.
-/
namespace Sys2Proof.Machine

/-- One bit step of a reflected CRC with polynomial `p`. -/
def crcBitR (p r : Nat) : Nat := if r % 2 = 1 then (r / 2) ^^^ p else r / 2

/-- One byte into a reflected CRC. -/
def crcByteR (p r : Nat) (b : Byte) : Nat := times (crcBitR p) 8 (r ^^^ b.toNat)

/-- CRC32C (Castagnoli): reflected, initial value and final XOR all ones. -/
def crc32c (d : List Byte) : Nat := d.foldl (crcByteR 0x82F63B78) 0xFFFFFFFF ^^^ 0xFFFFFFFF

/-- One bit into a CRC of width `w`, most significant bit first. -/
def crcBitM (w p r : Nat) (b : Bool) : Nat :=
  let top := bitOf r (w - 1)
  let r := 2 * r % 2 ^ w
  if top != b then r ^^^ p else r

/-- A CRC of width `w` over bits, most significant first, from an initial value. -/
def crcBits (w p init : Nat) (bits : List Bool) : Nat := bits.foldl (crcBitM w p) init

/-- The bits of a byte, most significant first. -/
def byteBitsMsb (b : Byte) : List Bool := (List.range 8).map (fun i => bitOf b.toNat (7 - i))

end Sys2Proof.Machine
end

