-- ==== Sys2Proof/Machine/Coherence.lean ====
section
/-!
DEFINITION. Cross-chip coherence (R198 to R206): the home of this chip's LP5X lines and this chip's Square cache as
a caching agent of remote lines. Home lines are numbered by local address / 128, cached lines by global
address / 128.
-/
namespace Sys2Proof.Machine

/-! ### Placement (R177) -/

/-- The slice of a line (R177), from its number. -/
def sliceOf (line : Nat) : Nat :=
  (bitsOf line 3 0 ^^^ bitsOf line 7 4) ^^^ (bitsOf line 11 8 ^^^ bitsOf line 15 12)

/-- The set of a line over all slices (R177). -/
def setOf (line : Nat) : Nat := 1024 * sliceOf line + bitsOf line 13 4

/-- The chip that is home of a global line (R30). -/
def homeOf (line : Nat) : Nat := line / 2 ^ 37 % 16

/-- The global line of a home line. -/
def globalLine (s : State) (ln : Nat) : Nat := chipId s * 2 ^ 37 + ln

/-- The poison byte that travels with line data (R179). -/
def poisonByte (p : Bool) : List Byte := [BitVec.ofNat 8 (num p)]

/-! ### The home (R199, R202 to R205) -/

/-- Change the coherence state. -/
def onCoh (s : State) (f : Coh → Coh) : State := { s with coh := f s.coh }

/-- Set or clear a directory entry. -/
def setDir (s : State) (ln : Nat) (e : Option DirEnt) : State :=
  onCoh s (fun h => { h with dir := match e with
    | some d => tabSet h.dir ln d
    | none => tabErase h.dir ln })

/-- Send a home line's data to a requester on another chip. -/
def sendLine (s : State) (ln : Nat) (r : HomeReq) (ptype : Nat) : State :=
  sendPkt s r.chip ptype r.agent (128 * globalLine s ln) (poisonByte (poisoned s (128 * ln) 128))
    (bytesAt s (128 * ln) 128)

/-- Grant a request whose conflicts are resolved, with the home's own data. A request of the own chip is granted by
the directory entry alone: its access finds no conflict left. A first reader from another chip gets E. -/
def homeGrant (s : State) (r : HomeReq) : State :=
  if r.kind = .wrl then
    let s := setDir (writeMem s (128 * r.line) r.data false) r.line none
    if r.chip = chipId s then s else sendPkt s r.chip 0x25 r.agent (128 * globalLine s r.line) [] []
  else if r.kind = .reclaim then setDir s r.line none
  else if r.chip = chipId s then
    if r.kind = .rdS then s else setDir s r.line none
  else if r.kind = .rdS then
    match tabFind s.coh.dir r.line with
    | some (.shared l) => sendLine (setDir s r.line (some (.shared (setAdd l r.chip)))) r.line r 0x20
    | _ => sendLine (setDir s r.line (some (.excl r.chip))) r.line r 0x21
  else sendLine (setDir s r.line (some (.excl r.chip))) r.line r 0x22

/-- The chips that must answer before a request can be granted, and the snoop each receives: 0x10 SNP_INV,
0x11 SNP_FWD_S, 0x12 SNP_FWD_X. -/
def homeAsk (s : State) (r : HomeReq) : List (Nat × Nat) :=
  match tabFind s.coh.dir r.line with
  | none => []
  | some (.shared l) => if r.kind = .rdS then [] else (l.filter (· ≠ r.chip)).map (fun c => (c, 0x10))
  | some (.excl o) =>
    if o = r.chip ∧ r.kind ≠ .reclaim then []
    else if r.kind = .rdS then [(o, 0x11)]
    else if r.kind = .rdX ∨ r.kind = .upg then [(o, 0x12)]
    else [(o, 0x10)]

/-- Start serving a request: grant it, or send the snoops and wait (R202). -/
def homeStart (s : State) (r : HomeReq) : State :=
  let ask := homeAsk s r
  if ask = [] then homeGrant s r
  else
    let s := ask.foldl (fun s p =>
      sendPkt s p.1 p.2 r.agent (128 * globalLine s r.line) [BitVec.ofNat 8 r.chip] []) s
    onCoh s (fun h => { h with serving := tabSet h.serving r.line ⟨r, ask.map Prod.fst⟩ })

/-- Does a new directory entry fit (R199: 262 144 entries)? -/
def dirRoom (s : State) (ln : Nat) : Bool :=
  s.coh.dir.length < 262144 || (tabFind s.coh.dir ln).isSome

/-- Serve a request now, freeing a directory entry first where the directory is full: the request then waits in the
queue (R199). -/
def homeServe (s : State) (r : HomeReq) : State :=
  if r.chip = chipId s ∨ r.kind = .wrl ∨ dirRoom s r.line then homeStart s r
  else
    let s := onCoh s (fun h => { h with queue := h.queue ++ [r] })
    match s.coh.dir[Config.victim s.fresh % 262144]? with
    | some (v, _) =>
      if (tabFind s.coh.serving v).isSome then s
      else homeStart (tickFresh s) ⟨.reclaim, v, chipId s, 100, []⟩
    | none => s

/-- The first queued request whose line is not being served. -/
def nextQueued (h : Coh) : Option HomeReq := h.queue.find? (fun r => (tabFind h.serving r.line).isNone)

/-- Serve queued requests, oldest first, while one can be served (R205); `n` bounds the number served at once. -/
def serveQueue : Nat → State → State
  | 0, s => s
  | n + 1, s =>
    match nextQueued s.coh with
    | none => s
    | some r =>
      if r.chip = chipId s ∨ r.kind = .wrl ∨ dirRoom s r.line then
        serveQueue n (homeStart (onCoh s (fun h => { h with queue := h.queue.erase r })) r)
      else s

/-- A request arrives at the home: served when its line is free, queued behind the earlier ones otherwise, refused
with RETRY when the queue is full (R203, R204). A free place is kept for the oldest starving requester. -/
def homeArrive (s : State) (r : HomeReq) : State :=
  let me := (sliceOf r.line, 128 * r.chip + r.agent)
  let h := s.coh
  let busy := (tabFind h.serving r.line).isSome || h.queue.any (fun q => q.line = r.line)
  if !busy then homeServe s r
  else
    let inLine := (h.queue.filter (fun q => q.line = r.line)).length
    let inSlice := (h.queue.filter (fun q => sliceOf q.line = me.1)).length
    let starving := h.starving.filter (fun p => p.1 = me.1)
    let kept := if starving.head? = none ∨ starving.head? = some me then 0 else 1
    if inLine ≥ 32 ∨ inSlice + kept ≥ 64 then
      let s := bump s R.HOME_RETRY_COUNT.val
      let s := onCoh s (fun h => { h with starving := if h.starving.contains me then h.starving else h.starving ++ [me] })
      if r.chip = chipId s then s else sendPkt s r.chip 0x27 r.agent (128 * globalLine s r.line) [] []
    else onCoh s (fun h => { h with queue := h.queue ++ [r], starving := h.starving.erase me })

/-- One home cycle with its requests (R202): rotating priority by chip ID × 128 + agent, the first key above the
previous winner's key, wrapping. -/
def homeCycle (s : State) (a : HomeReq) (b : Option HomeReq) : State :=
  let k (r : HomeReq) := 128 * r.chip + r.agent
  let last := tabGet s.coh.lastWin (sliceOf a.line) 2047
  let rank (r : HomeReq) := (k r + 2048 - last - 1) % 2048
  let s1 (w : HomeReq) := onCoh s (fun h => { h with lastWin := tabSet h.lastWin (sliceOf a.line) (k w) })
  match b with
  | none => homeArrive (s1 a) a
  | some r => if rank a ≤ rank r then homeArrive (homeArrive (s1 a) a) r else homeArrive (homeArrive (s1 r) r) a

/-- The request being served for a line is complete: after a forward the forwarder has sent the data and only the
directory changes; otherwise the home grants with its own data. Queued requests follow. -/
def homeComplete (s : State) (ln : Nat) (forwarded : Bool) : State :=
  match tabFind s.coh.serving ln with
  | none => s
  | some t =>
    let own := chipId s
    let s := onCoh s (fun h => { h with serving := tabErase h.serving ln })
    let s :=
      if !forwarded then homeGrant s t.req
      else if t.req.kind = .rdS then
        let l := t.await.foldl setAdd []
        setDir s ln (some (.shared (if t.req.chip = own then l else setAdd l t.req.chip)))
      else setDir s ln (if t.req.chip = own then none else some (.excl t.req.chip))
    serveQueue 64 s

/-- A writeback or an eviction notice reaches the home: the data is written to LP5X, the directory entry goes, and a
snooped request that waited for it completes with the home's data (R203, R206). -/
def homeWriteback (s : State) (ln chip : Nat) (data : Option (List Byte)) (poison : Bool) : State :=
  let s := match data with
    | some d => writeMem s (128 * ln) d poison
    | none => s
  let s := if tabFind s.coh.dir ln = some (.excl chip) then setDir s ln none else s
  match tabFind s.coh.serving ln with
  | some t => if t.await.contains chip then homeComplete s ln false else s
  | none => s

/-- An acknowledgement reaches the home: data of an M copy is written to LP5X with its poison (R179), and when the last awaited chip has
answered the request completes (R199, R202, R203). -/
def homeAck (s : State) (ln chip : Nat) (forwarded : Bool) (data : Option (List Byte)) (poison : Bool) : State :=
  match tabFind s.coh.serving ln with
  | none => s
  | some t =>
    if !t.await.contains chip then s
    else
      let s := match data with
        | some d => writeMem s (128 * ln) d poison
        | none => s
      let rest := t.await.filter (· ≠ chip)
      if rest = [] then homeComplete s ln forwarded
      else onCoh s (fun h => { h with serving := tabSet h.serving ln { t with await := rest } })

/-! ### The caching agent (R198, R206) -/

/-- The packet type of a request. -/
def reqPtype : ReqKind → Nat
  | .rdS => 0x01 | .rdX => 0x02 | .upg => 0x03 | .wrl => 0x04 | .ucRd => 0x07 | .ucWr => 0x08 | .reclaim => 0x10

/-- Ask the home of a remote line for it, unless the request is already outstanding. -/
def askLine (s : State) (line : Nat) (kind : ReqKind) (agent : Nat) : State :=
  if s.coh.await.any (fun r => r.line = line ∧ r.kind = kind) then s
  else
    let s := onCoh s (fun h => { h with await := h.await ++ [⟨kind, line, chipId s, agent, []⟩] })
    sendPkt s (homeOf line) (reqPtype kind) agent (128 * line) [] []

/-- Evict a cached line: S silently, E with EVICT_E, M with WB (R198). -/
def evictLine (s : State) (line : Nat) : State :=
  match tabFind s.coh.lines line with
  | none => s
  | some l =>
    let s := onCoh s (fun h => { h with lines := tabErase h.lines line })
    match l.st with
    | .s => s
    | .e => sendPkt s (homeOf line) 0x06 96 (128 * line) [] []
    | .m =>
      let s := onCoh s (fun h => { h with wbOut := tabSet h.wbOut line l.data })
      sendPkt s (homeOf line) 0x05 96 (128 * line) (poisonByte l.poison) l.data

/-- REMOTE_WAYS in effect: 0 where the domain lacks REMOTE_CACHE (R433). -/
def remoteWays (s : State) : Nat := if featOn s 0 then fld s R.SQ_CTL.REMOTE_WAYS else 0

/-- Make room in the set of a line: at most REMOTE_WAYS remote lines a set (R178), the victim left open (R177). -/
def makeRoom (s : State) (line : Nat) : State :=
  let ways := max 1 (min 16 (remoteWays s))
  let same := (s.coh.lines.map Prod.fst).filter (fun l => setOf l = setOf line ∧ l ≠ line)
  if same.length < ways then s
  else
    match same[Config.victim s.fresh % same.length]? with
    | some v => evictLine (tickFresh s) v
    | none => s

/-- Line data arrives (R200). -/
def lineArrives (s : State) (line : Nat) (st : LineSt) (data : List Byte) (poison : Bool) : State :=
  let s := makeRoom s line
  onCoh s (fun h => { h with
    await := h.await.filter (fun r => r.line ≠ line), lines := tabSet h.lines line ⟨st, data, poison⟩ })

/-- Answer a snoop from what the cache holds now. -/
def answerSnoop (s : State) (sn : Snoop) : State :=
  match sn with
  | .inv line home =>
    match tabFind s.coh.lines line with
    | some l =>
      let s := onCoh s (fun h => { h with lines := tabErase h.lines line })
      sendPkt s home 0x23 96 (128 * line) (poisonByte l.poison) (if l.st = .m then l.data else [])
    | none => sendPkt s home 0x23 96 (128 * line) [] []
  | .fwdS line home dest =>
    match tabFind s.coh.lines line with
    | some l =>
      let s := onCoh s (fun h => { h with lines := tabSet h.lines line { l with st := .s } })
      let s := sendPkt s dest 0x20 96 (128 * line) (poisonByte l.poison) l.data
      sendPkt s home 0x24 96 (128 * line) (poisonByte l.poison) (if l.st = .m then l.data else [])
    | none => sendPkt s home 0x26 96 (128 * line) [] []
  | .fwdX line home dest =>
    match tabFind s.coh.lines line with
    | some l =>
      let s := onCoh s (fun h => { h with lines := tabErase h.lines line })
      let s := sendPkt s dest 0x22 96 (128 * line) (poisonByte l.poison) l.data
      sendPkt s home 0x24 96 (128 * line) [] []
    | none => sendPkt s home 0x26 96 (128 * line) [] []

/-- The line a snoop names. -/
def Snoop.line : Snoop → Nat
  | .inv l _ => l
  | .fwdS l _ _ => l
  | .fwdX l _ _ => l

/-- The home a snoop comes from. -/
def Snoop.home : Snoop → Nat
  | .inv _ h => h
  | .fwdS _ h _ => h
  | .fwdX _ h _ => h

/-- A snoop arrives (R206): held while the line's data is awaited, WB_PENDING while its writeback is in flight,
answered otherwise. -/
def snoopArrives (s : State) (sn : Snoop) : State :=
  if (tabFind s.coh.wbOut sn.line).isSome then sendPkt s sn.home 0x26 96 (128 * sn.line) [] []
  else if (tabFind s.coh.lines sn.line).isNone ∧ s.coh.await.any (fun r => r.line = sn.line) then
    onCoh s (fun h => { h with held := h.held ++ [sn] })
  else answerSnoop s sn

/-- The first access to a line has retired: held snoops for it are answered (R206); with REMOTE_WAYS at 0 the chip
keeps no copy (R178). -/
def lineRetired (s : State) (line : Nat) : State :=
  let mine := s.coh.held.filter (fun sn => sn.line = line)
  let s := onCoh s (fun h => { h with held := h.held.filter (fun sn => sn.line ≠ line) })
  let s := mine.foldl answerSnoop s
  if remoteWays s = 0 then evictLine s line else s

end Sys2Proof.Machine
end

