-- ==== Sys2Proof/Machine/Access.lean ====
section
/-!
DEFINITION. Where an address leads and who may reach it (R24 to R31, R43, R175, R180, R208), and reads and writes of
memory: LP5X, tile memory, the execute-in-place window and remote lines through the Square cache.
-/
namespace Sys2Proof

/-- The agent ID of an access (R202). -/
def Who.agent : Who → Nat
  | .pilot c => c
  | .vec c => c
  | .dma c => c
  | .lookup => 96
  | .host => 97
  | .hcopy => 97
  | .weave w => 98 + w
  | .warden => 100
  | .jesd => 101
  | .eth => 102
  | .sched _ => 100
  | .queue => 100
  | .remote _ => 100

/-- The core whose Pilot, vector engine or DMA makes an access. -/
def Who.core? : Who → Option Nat
  | .pilot c => some c
  | .vec c => some c
  | .dma c => some c
  | _ => none

end Sys2Proof

namespace Sys2Proof.Machine

/-- What an access gives: a result, an unmapped address, or a wait for a line that has been asked for. -/
inductive Res (α : Type) where
  | ok (v : α) (s : State)
  | unmapped (s : State)
  | wait (s : State)

/-- Go on after an access. -/
def Res.andThen {α β : Type} : Res α → (α → State → Res β) → Res β
  | .ok v s, f => f v s
  | .unmapped s, _ => .unmapped s
  | .wait s, _ => .wait s

/-- May an agent reach the tile memory of core `n` (R34, R175)? Warden reaches all of it. A core reaches the cores of
the partition it counts in. Engines reach cores of partitions; the host and remote chips none (R29). -/
def tileOpen (s : State) (w : Who) (n : Nat) : Bool :=
  match w with
  | .warden => true
  | .host => false
  | .remote _ => false
  | .pilot c => (activePart s c).isSome && activePart s c = corePart s n || c = n
  | .vec c => (activePart s c).isSome && activePart s c = corePart s n || c = n
  | .dma c => (activePart s c).isSome && activePart s c = corePart s n || c = n
  | _ => (corePart s n).isSome

/-- A local address of this chip (Table 1-5), as an agent may reach it. -/
def localTarget (s : State) (w : Who) (a : Nat) : Target :=
  if a < lp5xEnd then
    if s.marks.pages.contains (a / 4096) then .unmapped
    else if w = .host ∧ ¬ flag s R.HIF_STAT.POOL_READY then .unmapped
    else .lp5x a
  else if 0x80000000000 ≤ a ∧ a ≤ 0x8000BFFFFFF then
    let n := (a - 0x80000000000) / 0x200000
    let off := (a - 0x80000000000) % 0x200000
    if 0x180000 ≤ off ∨ s.marks.rows.contains (a / 128) ∨ !tileOpen s w n then .unmapped else .tile n off
  else if 0x90000000000 ≤ a ∧ a ≤ 0x900000FFFFF then
    if w = .host then .unmapped else .sync ((a - 0x90000000000) / 64) (a % 64)
  else if 0x90010000000 ≤ a ∧ a ≤ 0x90010FFFFFF then .bell ((a - 0x90010000000) / 0x4000) (a % 0x4000)
  else
    match w with
    | .remote _ => .unmapped
    | _ =>
      if 0xA0000000000 ≤ a ∧ a ≤ 0xA0000FFFFFF then .dev (a - 0xA0000000000)
      else if 0xA0001000000 ≤ a ∧ a ≤ 0xA0001FFFFFF then .mbox (a - 0xA0001000000)
      else if 0xB0000000000 ≤ a ∧ a ≤ 0xB0003FFFFFF then .xip 0 (a - 0xB0000000000)
      else if 0xB0008000000 ≤ a ∧ a ≤ 0xB000BFFFFFF then .xip 1 (a - 0xB0008000000)
      else .unmapped

/-- Where a global address leads for an agent of this chip (R27, R28, R29, R43). -/
def resolve (s : State) (w : Who) (ga : Nat) : Target :=
  let chip := ga / 2 ^ 44 % 16
  let a := ga % 2 ^ 44
  if chip = chipId s then localTarget s w a
  else if !isMember s chip then .unmapped
  else if a < lp5xEnd ∨ (0x90000000000 ≤ a ∧ a ≤ 0x900000FFFFF ∧ w ≠ .host)
      ∨ (0x90010000000 ≤ a ∧ a ≤ 0x90010FFFFFF) then .remote chip a
  else .unmapped

/-- Does a Kennel entry hide this address (R208)? -/
def kennelHit (s : State) (ga : Nat) : Bool :=
  let a := ga % 2 ^ 44
  ga / 2 ^ 44 % 16 = chipId s &&
    (if a < lp5xEnd then s.marks.pages.contains (a / 4096) else s.marks.rows.contains (a / 128))

/-- Report an unmapped access (R31, R127, R208): address, count, Kennel flag. A read of a busy flash device is reported as
such instead (R463). -/
def reportUnmapped (s : State) (w : Who) (ga count : Nat) : State :=
  match s.flash.refused with
  | some a => report { s with flash := { s.flash with refused := none } } 0x0602 w.agent [a]
  | none => report s 0x0107 w.agent [ga, count, num (kennelHit s ga)]

/-- An own LP5X line may be accessed now, or the access waits for the home (R202): remote copies that conflict with
it are recalled first. -/
def homeReady (s : State) (w : Who) (ln : Nat) (write : Bool) : Res Unit :=
  if (s.coh.dir = [] ∨ (tabFind s.coh.dir ln).isNone) ∧ (tabFind s.coh.serving ln).isNone then .ok () s
  else
    let r : HomeReq := ⟨if write then .rdX else .rdS, ln, chipId s, w.agent, []⟩
    let waiting (s : State) := (tabFind s.coh.serving ln).isSome || homeAsk s r ≠ []
    if !waiting s then .ok () s
    else
      let mine (h : Coh) := h.queue.any (fun q => q.line = ln ∧ q.chip = r.chip ∧ q.kind = r.kind) ||
        (match tabFind h.serving ln with
        | some t => t.req.chip = r.chip && t.req.kind = r.kind
        | none => false)
      .wait (if mine s.coh then s else homeArrive s r)

/-- A remote line is held with the right this access needs, or it is asked for (R178, R198). -/
def remoteReady (s : State) (w : Who) (line : Nat) (write : Bool) : Res Line :=
  match tabFind s.coh.lines line with
  | some l =>
    if !write ∨ l.st ≠ .s then .ok l s else .wait (askLine s line .upg w.agent)
  | none =>
    if s.coh.errs.contains (128 * line) then
      .unmapped (onCoh s (fun h => { h with errs := setDel h.errs (128 * line) }))
    else .wait (askLine s line (if write then .rdX else .rdS) w.agent)

/-! ### The execute-in-place window (R462, R463, R468) -/

/-- Is a flash device busy with a program or an erase? -/
def flashBusy (s : State) (dev : Nat) : Bool := if dev = 0 then flag s R.XSPI_STAT.BUSY_A else flag s R.XSPI_STAT.BUSY_B

/-- Put a line in front of a device's buffer of 8, from the device where the buffer does not hold it. -/
def xipTouch (s : State) (dev line : Nat) : State :=
  let b := tabGet s.flash.buf dev []
  let d := match b.find? (fun x => x.1 = line) with
    | some x => x.2
    | none => bytesAt s (flashAddr dev (128 * line)) 128
  let b := ((line, d) :: b.filter (fun x => x.1 ≠ line)).take 8
  { s with flash := { s.flash with buf := tabSet s.flash.buf dev b } }

/-- A read inside one line of the window: a hit, or a miss that also fetches the next line. It is served once MODE_8D is
set, and refused while the device is busy. -/
def xipRead (s : State) (dev off n : Nat) : Res (List Byte × Bool) :=
  let line := off / 128
  let held (s : State) : Option (Nat × List Byte) := (tabGet s.flash.buf dev []).find? (fun x => x.1 = line)
  if !flag s R.XSPI_CTL.MODE_8D then .unmapped s
  else if flashBusy s dev then
    .unmapped { bump s R.XSPI_BUSY_READS.val with flash := { s.flash with refused := some (flashAddr dev off) } }
  else
    let s := if (held s).isSome ∨ line = 524287 then s else xipTouch s dev (line + 1)
    let s := xipTouch s dev line
    .ok (sliceBytes (((held s).map Prod.snd).getD []) (off % 128) n, false) s

/-- Read bytes of memory inside one 128-byte unit: the data and whether it is poisoned. -/
def readUnit (s : State) (w : Who) (ga n : Nat) : Res (List Byte × Bool) :=
  match resolve s w ga with
  | .lp5x a => (homeReady s w (a / 128) false).andThen (fun _ s => .ok (bytesAt s a n, poisoned s a n) s)
  | .tile c off => .ok (bytesAt s (tileAddr c off) n, poisoned s (tileAddr c off) n) s
  | .xip d off => xipRead s d off n
  | .remote _ a =>
    if a < lp5xEnd then
      (remoteReady s w (ga / 128) false).andThen (fun l s =>
        .ok (sliceBytes l.data (ga % 128) n, l.poison) (lineRetired s (ga / 128)))
    else .unmapped s
  | _ => .unmapped s

/-- Write bytes of memory inside one 128-byte unit. The execute-in-place window is read-only (R26). -/
def writeUnit (s : State) (w : Who) (ga : Nat) (d : List Byte) (poison : Bool) : Res Unit :=
  match resolve s w ga with
  | .lp5x a => (homeReady s w (a / 128) true).andThen (fun _ s => .ok () (writeMem s a d poison))
  | .tile c off => .ok () (writeMem s (tileAddr c off) d poison)
  | .remote _ a =>
    if a < lp5xEnd then
      (remoteReady s w (ga / 128) true).andThen (fun l s =>
        let l' : Line := ⟨.m, putBytes l.data (ga % 128) d, poison || (l.poison && d.length ≠ 128)⟩
        .ok () (lineRetired (onCoh s (fun h => { h with lines := tabSet h.lines (ga / 128) l' })) (ga / 128)))
    else .unmapped s
  | _ => .unmapped s

/-- Cut a range into pieces that each lie in one 128-byte unit: pairs of offset and length. -/
def unitPieces (ga n : Nat) : List (Nat × Nat) :=
  (List.range (n / 128 + 2)).filterMap (fun i =>
    let lo := max ga (128 * (ga / 128 + i))
    let hi := min (ga + n) (128 * (ga / 128 + i) + 128)
    if lo < hi then some (lo - ga, hi - lo) else none)

/-- Read a range of memory, unit by unit in ascending order. -/
def readRange (s : State) (w : Who) (ga n : Nat) : Res (List Byte × Bool) :=
  (unitPieces ga n).foldl (fun r p => r.andThen (fun d s =>
    (readUnit s w (ga + p.1) p.2).andThen (fun e s => .ok (d.1 ++ e.1, d.2 || e.2) s))) (.ok ([], false) s)

/-- Write a range of memory, unit by unit in ascending order. What was written before an unmapped unit stays
written (R31). -/
def writeRange (s : State) (w : Who) (ga : Nat) (d : List Byte) (poison : Bool) : Res Unit :=
  (unitPieces ga d.length).foldl (fun r p => r.andThen (fun _ s =>
    writeUnit s w (ga + p.1) (sliceBytes d p.1 p.2) poison)) (.ok () s)

/-- The global address of a local one. -/
def ownGa (s : State) (a : Nat) : Nat := chipId s * 2 ^ 44 + a

/-- The bytes of a memory read, zeros and poison where it is unmapped or not to be had. -/
def Res.bytes : Res (List Byte × Bool) → Nat → List Byte × Bool × State
  | .ok d s, _ => (d.1, d.2, s)
  | .unmapped s, n => (List.replicate n 0, true, s)
  | .wait s, n => (List.replicate n 0, true, s)

/-- The state a result leaves. -/
def Res.state {α : Type} : Res α → State
  | .ok _ s => s
  | .unmapped s => s
  | .wait s => s

/-- The unit that has posted. -/
def Posted.who : Posted → Who
  | .write w _ _ _ => w
  | .signal w _ => w
  | .vector w _ => w
  | .message w _ _ => w

/-- Has a unit anything posted? -/
def hasPosted (s : State) (w : Who) : Bool := s.posted.any (fun p => p.who = w)

/-- The state a unit's own write leaves: an unmapped write is reported (R31) and writes nothing. A write that waits
for the home is performed when the line has come (R202), and the unit's later writes after it. -/
def unitWrite (s : State) (w : Who) (ga : Nat) (d : List Byte) (poison : Bool) : State :=
  if hasPosted s w then { s with posted := s.posted ++ [.write w ga d poison] }
  else
    match writeRange s w ga d poison with
    | .ok _ s => s
    | .unmapped s => reportUnmapped s w ga 1
    | .wait s => { s with posted := s.posted ++ [.write w ga d poison] }

/-- Perform the posted writes whose lines have come, oldest first. -/
def drainWrites (s : State) : State :=
  let todo := s.posted
  let s : State := { s with posted := [] }
  todo.foldl (fun s p =>
    match p with
    | .write w ga d poison => unitWrite s w ga d poison
    | p => { s with posted := s.posted ++ [p] }) s

/-- Is a whole range usable LP5X of this chip? -/
def inLp5x (s : State) (ga n : Nat) : Bool :=
  ga / 2 ^ 44 % 16 = chipId s && ga % 2 ^ 44 + n ≤ lp5xEnd

/-- Is a whole range in banks 0 to 9 of a core of partition `p` (R25, R261, R369)? -/
def inBanks0to9 (s : State) (p ga n : Nat) : Bool :=
  let a := ga % 2 ^ 44
  ga / 2 ^ 44 % 16 = chipId s && 0x80000000000 ≤ a && a ≤ 0x8000BFFFFFF &&
    (a - 0x80000000000) % 0x200000 + n ≤ 0x140000 && corePart s ((a - 0x80000000000) / 0x200000) = some p

end Sys2Proof.Machine
end

