-- ==== Sys2Proof/Machine/Sync.lean ====
section
/-!
DEFINITION. Sync objects (R237 to R243, R248 to R251): signals, waits, grants, and waits across chips.
-/
namespace Sys2Proof.Machine

/-- A sync object as reset leaves it (Table 7-4, R252). -/
def SyncObj.reset : SyncObj := ⟨0, 0, false, 0xF, false, []⟩

/-- Sync object `n` of this chip. -/
def syncObj (s : State) (n : Nat) : SyncObj := tabGet s.syncs n SyncObj.reset

/-- Store a sync object. -/
def setSync (s : State) (n : Nat) (o : SyncObj) : State := { s with syncs := tabSet s.syncs n o }

/-- The count a waiter asks for. -/
def Waiter.count : Waiter → Nat
  | .pilot _ n => n
  | .async _ _ n => n
  | .task _ _ n => n
  | .remote _ _ n => n

/-- The local address of a sync object (R238). -/
def syncAddr (n : Nat) : Nat := 0x90000000000 + 64 * n

/-- End an async wait of a core: its DONE bit is set, with TIMED_OUT or LOST where they apply (R241). While a claim
holds the core, the bits belong to the suspended task (R249, R531). -/
def asyncEnd (s : State) (c slot : Nat) (timedOut lost : Bool) : State :=
  onCore s c (fun k =>
    let upd (w : Nat) : Nat :=
      let w := putBits w slot slot 1
      let w := putBits w (4 + slot) (4 + slot) 0
      let w := if timedOut then putBits w (8 + slot) (8 + slot) 1 else w
      if lost then putBits w (12 + slot) (12 + slot) 1 else w
    match k.held with
    | some h =>
      { k with held := some { h with
          sastat := BitVec.ofNat 32 (upd h.sastat.toNat), asyncs := h.asyncs.filter (fun a => a.slot ≠ slot) } }
    | none =>
      { k.setSysWord R.SASTAT.DONE.off (upd (k.sysWord c R.SASTAT.DONE.off)) with
          asyncs := k.asyncs.filter (fun a => a.slot ≠ slot) })

/-- End the blocking wait of a core with a status: its bundle completes with it when it issues (R228, R240). -/
def pilotEnd (s : State) (c status : Nat) : State :=
  onCore s c (fun k => match k.run with
    | .wait .. => { k with run := .woken status }
    | .recv .. => { k with run := .woken status }
    | .poll .. => { k with run := .woken status }
    | _ => k)

/-- Write the status record of a task (R261). -/
def writeStatus (s : State) (statusGa id status cause : Nat) : State :=
  if statusGa = 0 then s
  else unitWrite s (.sched 0) statusGa (bytesLE 8 (status + 2 ^ 8 * cause + 2 ^ 16 * id + 2 ^ 32 * nowNs s)) false

/-- A task leaves its scheduler: its record is written and it stops counting in PART_STAT.TASKS (R258 to R261). -/
def taskRemove (s : State) (t : Task) (status cause : Nat) : State :=
  let s := writeStatus s t.statusGa t.id status cause
  let s := { s with sched := { s.sched with tasks := s.sched.tasks.filter (fun x => x.num ≠ t.num) } }
  setFld s (R.PART_STAT.TASKS t.part) (fld s (R.PART_STAT.TASKS t.part) - 1)

/-- The release wait of a task ends: granted, it is ready; failed, the task ends ABORTED with CAUSE 64 + status, its
DONE_SYNC is not signalled, and the failure is reported (R258). -/
def taskWaitEnds (s : State) (num status : Nat) : State :=
  match s.sched.tasks.find? (fun t => t.num = num) with
  | none => s
  | some t =>
    if status = 0 then
      { s with sched := { s.sched with tasks := s.sched.tasks.map (fun x =>
          if x.num = num then { x with st := .ready } else x) } }
    else report (taskRemove s t 1 (64 + status)) 0x0309 0x7F [t.part, t.id, t.waitSync, status]

/-- A wait ends with a status of Table 7-3: 0 granted, 2 TIMEOUT, 7 LOST. -/
def waiterEnd (s : State) (obj : Nat) (w : Waiter) (status : Nat) : State :=
  match w with
  | .pilot c _ => pilotEnd s c status
  | .async c slot _ => asyncEnd s c slot (status = 2) (status = 7)
  | .task _ num _ => taskWaitEnds s num status
  | .remote chip token n =>
    sendPkt s chip 0x33 100 (chipId s * 2 ^ 44 + syncAddr obj)
      (bytesLE 2 token ++ bytesLE 1 status ++ bytesLE 4 n ++ bytesLE 1 (syncObj s obj).type) []

/-- Can the oldest waiter be granted (R240)? Its grant leaves the value given. -/
def grantable (o : SyncObj) (n : Nat) : Option Nat :=
  if o.type = 0 then (if n ≤ o.value then some (o.value - n) else none)
  else if o.value = 0 then none
  else if o.type = 2 then some 0
  else some o.value

/-- Grant waiters, oldest first, while the oldest can be granted (R240); `fuel` is the number of waiters. -/
def grantLoop : Nat → Nat → State → State
  | 0, _, s => s
  | fuel + 1, n, s =>
    let o := syncObj s n
    match o.waiters with
    | [] => s
    | w :: rest =>
      match grantable o w.count with
      | none => s
      | some v => grantLoop fuel n (waiterEnd (setSync s n { o with value := v, waiters := rest }) n w 0)

/-- Evaluate the waiters of an object against its value. -/
def evalWaiters (s : State) (n : Nat) : State := grantLoop (syncObj s n).waiters.length n s

/-- A signal of `k` reaches a local object (R239, R243). On an object with EN at 0 it has no effect and is reported. -/
def signalLocal (s : State) (n k chip agent : Nat) : State :=
  let o := syncObj s n
  if !o.en then report s 0x0308 agent [n, chip, agent]
  else if k = 0 then s
  else if o.type = 0 then
    if 0xFFFFFFFF < o.value + k then
      evalWaiters (report (setSync s n { o with value := 0xFFFFFFFF, ovf := true }) 0x0302 0x7F [n]) n
    else evalWaiters (setSync s n { o with value := o.value + k }) n
  else evalWaiters (setSync s n { o with value := 1 }) n

/-- A unit of this chip signals a local object by 1 where its enable is set (DONE_SYNC and the like): once every earlier write of the unit has
been performed (R193). -/
def signalDone (s : State) (en : Bool) (n : Nat) (w : Who) : State :=
  if !en then s
  else if hasPosted s w then { s with posted := s.posted ++ [.signal w n] }
  else signalLocal s n 1 (chipId s) w.agent

/-- A signal to an object of any chip (R239, R242). -/
def signalChip (s : State) (chip n k agent : Nat) : State :=
  if chip = chipId s then signalLocal s n k chip agent
  else sendPkt s chip 0x31 agent (chip * 2 ^ 44 + syncAddr n) (bytesLE 4 k) []

/-- Waiter entries held at this home (R242). -/
def waiterCount (s : State) : Nat := (s.syncs.map (fun p => p.2.waiters.length)).sum

/-- A waiter arrives at its object's home: granted at once where the object has no waiter queued and the condition
holds, queued otherwise; the home holds at most 1024 entries. Gives the status of Table 7-3, or none while it
waits. -/
def waitLocal (s : State) (n : Nat) (w : Waiter) : Option Nat × State :=
  let o := syncObj s n
  if !o.en then (some 5, s)
  else
    match o.waiters, grantable o w.count with
    | [], some v => (some 0, setSync s n { o with value := v })
    | _, _ =>
      if 1024 ≤ waiterCount s then (some 6, s)
      else (none, setSync s n { o with waiters := o.waiters ++ [w] })

/-- A poll of an object (R240): granted only with no waiter queued. -/
def pollLocal (s : State) (n count : Nat) : Nat × State :=
  let o := syncObj s n
  if !o.en then (5, s)
  else
    match o.waiters, grantable o count with
    | [], some v => (0, setSync s n { o with value := v })
    | _, _ => (3, s)

/-- What a grant that was not taken gives back (R248). -/
def returnGrant (s : State) (chip n count type agent : Nat) : State :=
  if type = 0 then signalChip s chip n count agent
  else if type = 2 then signalChip s chip n 1 agent
  else s

/-- The release wait of a task that will not start is withdrawn at its object (R258). -/
def withdrawTask (s : State) (t : Task) : State :=
  if t.st = .waiting then
    let o := syncObj s t.waitSync
    setSync s t.waitSync { o with waiters := o.waiters.filter (fun w => match w with
      | .task _ num _ => num ≠ t.num
      | _ => true) }
  else s

/-- A task leaves its scheduler; a wait that it still has is withdrawn, and the waiters behind it are evaluated (R258, R266). -/
def taskDrop (s : State) (t : Task) (status cause : Nat) : State :=
  let s := taskRemove (withdrawTask s t) t status cause
  if t.st = .waiting then evalWaiters s t.waitSync else s

/-- End every waiter of an object with LOST (R251). -/
def loseWaiters (s : State) (n : Nat) : State :=
  let o := syncObj s n
  o.waiters.foldl (fun s w => waiterEnd s n w 7) (setSync s n { o with waiters := [] })

/-- The RESET register (R238, R251): a semaphore takes the value and its waiters are evaluated again; an event is
cleared and its waiters end with LOST. -/
def syncReset (s : State) (n v : Nat) : State :=
  let o := syncObj s n
  if o.type = 0 then evalWaiters (setSync s n { o with value := v % 2 ^ 32 }) n
  else loseWaiters (setSync s n { o with value := 0 }) n

/-- SCFG as Warden writes it (R237, R251). TYPE 3 names no type and is never written. An object that is disabled loses
its waiters. -/
def syncConfig (s : State) (n v : Nat) : State :=
  let o := syncObj s n
  if bitsOf v 1 0 = 3 then s
  else
    let o' : SyncObj := { o with type := bitsOf v 1 0, en := bitOf v 2, owner := bitsOf v 7 4 }
    let s := setSync s n o'
    if o'.en then evalWaiters s n else loseWaiters s n

/-- Remove the waiter entries of a core at every home: withdrawn here, and by message at other chips (R241, R248,
R251). -/
def withdrawCore (s : State) (c : Nat) (blocking : Bool) : State :=
  let mine (w : Waiter) : Bool := match w with
    | .pilot c' _ => blocking && c' = c
    | .async c' _ _ => c' = c
    | _ => false
  let s : State := { s with syncs := s.syncs.map (fun p => (p.1, { p.2 with waiters := p.2.waiters.filter (fun w => !mine w) })) }
  let s := (s.syncs.map Prod.fst).foldl evalWaiters s
  (core s c).asyncs.foldl (fun s a =>
    if a.chip = chipId s then s
    else sendPkt s a.chip 0x34 c (a.chip * 2 ^ 44 + syncAddr a.obj) (bytesLE 2 (8 * c + 1 + a.slot)) []) s

/-- Abandon the blocking wait of a core (R99, R248): withdraw it at its home. -/
def abandonWait (s : State) (c : Nat) : State :=
  match (core s c).run with
  | .wait obj chip _ _ _ =>
    if chip = chipId s then
      let o := syncObj s obj
      evalWaiters (setSync s obj { o with waiters := o.waiters.filter (fun w => match w with
        | .pilot c' _ => c' ≠ c
        | _ => true) }) obj
    else sendPkt s chip 0x34 c (chip * 2 ^ 44 + syncAddr obj) (bytesLE 2 (8 * c)) []
  | _ => s

/-- Ask another chip's object for a grant (R242). A token is 8 times the core plus 0 for its blocking wait, 1 to 4 for an async slot, 5
for a poll. -/
def askWait (s : State) (chip obj token n agent : Nat) : State :=
  sendPkt s chip 0x32 agent (chip * 2 ^ 44 + syncAddr obj) (bytesLE 2 token ++ bytesLE 2 n) []

/-- Arm an async wait of a core at its home (R241). -/
def armAsync (s : State) (c : Nat) (a : AsyncWait) : State :=
  if a.chip = chipId s then
    match waitLocal s a.obj (.async c a.slot a.n) with
    | (some st, s) => asyncEnd s c a.slot (st = 2) (st = 7 || st = 5 || st = 6)
    | (none, s) => s
  else askWait s a.chip a.obj (8 * c + 1 + a.slot) a.n c

/-- A remote wait registers at the object's home; a grant, or the refusal of the wait, returns (R242). -/
def syncWaitIn (s : State) (chip token obj n : Nat) : State :=
  let n := if n = 0 then 1 else n
  let w : Waiter := .remote chip token n
  if token % 8 = 5 then let r := pollLocal s obj n; waiterEnd r.2 obj w r.1
  else
  match waitLocal s obj w with
  | (some st, s) => waiterEnd s obj w st
  | (none, s) => s

/-- A grant, or another end of the wait, returns to the waiting chip. A grant whose wait has been abandoned goes back to the
object (R242, R248). -/
def syncGrantIn (s : State) (chip obj token status n type : Nat) : State :=
  let c := token / 8
  let waits : Bool :=
    if token % 8 = 0 then
      match (core s c).run with
      | .wait o ch _ _ _ => o = obj && ch = chip
      | _ => false
    else if token % 8 = 5 then
      match (core s c).run with
      | .poll o ch => o = obj && ch = chip
      | _ => false
    else
      let l := match (core s c).held with
        | some h => h.asyncs
        | none => (core s c).asyncs
      l.any (fun a => a.slot + 1 = token % 8 && a.obj = obj && a.chip = chip)
  if waits then
    if token % 8 = 0 ∨ token % 8 = 5 then pilotEnd s c status
    else asyncEnd s c (token % 8 - 1) (status = 2) (status = 7 || status = 5 || status = 6)
  else if status = 0 then returnGrant s chip obj n type c
  else s

/-- An abandoned remote wait is withdrawn at its home (R248). -/
def syncWithdrawIn (s : State) (chip token obj : Nat) : State :=
  let o := syncObj s obj
  let s := setSync s obj { o with waiters := o.waiters.filter (fun w => match w with
    | .remote ch tk _ => ¬ (ch = chip ∧ tk = token)
    | _ => true) }
  evalWaiters s obj

/-! ### Meanings -/

/-- SIGNAL (R239): a write of `k` to an object's SIGNAL by an agent of this chip acts as SSIG with that count. A Pilot
writes it only where OWNER names its partition or the chip (R238); for any other it is unmapped. -/
def signalWrite (s : State) (w : Who) (obj k : Nat) : State :=
  let may : Bool := match w with
    | .pilot c => (syncObj s obj).owner = 0xF || activePart s c = some (syncObj s obj).owner
    | _ => true
  if may then signalLocal s obj k (chipId s) w.agent
  else reportUnmapped s w (chipId s * 2 ^ 44 + syncAddr obj + 8) 1

/-- SIGNAL (R239). -/
def execSignal (w : Who) (obj k : Nat) (s : State) : Host.Outcome State Fault Refusal :=
  if obj < 16384 then finish (signalWrite s w obj k) else .fault .absentUnit

/-- SYNC_RESET (R251). -/
def execSyncReset (obj v : Nat) (s : State) : Host.Outcome State Fault Refusal :=
  if obj < 16384 then finish (syncReset s obj v) else .fault .absentUnit

/-- SWAIT_TIMEOUT (R240, R228): `after` ticks later, a timed wait whose deadline is reached expires: a blocking wait
with status TIMEOUT, an async slot with TIMED_OUT, also while a claim holds the core (R249). Its entry is withdrawn. -/
def execSwaitTimeout (after c : Nat) (slot : Option Nat) (s : State) : Host.Outcome State Fault Refusal :=
  if 96 ≤ c then .fault .absentUnit
  else
    let s := advance s after
    match slot with
    | none =>
      match (core s c).run with
      | .wait _ _ _ _ (some d) => if due s d then finish (pilotEnd (abandonWait s c) c 2) else finish s
      | _ => finish s
    | some j =>
      let l := match (core s c).held with
        | some h => h.asyncs
        | none => (core s c).asyncs
      match l.find? (fun a => a.slot = j) with
      | some a =>
        if (a.deadline.map (due s)).getD false then
          let s := if a.chip = chipId s then
              let o := syncObj s a.obj
              evalWaiters (setSync s a.obj { o with waiters := o.waiters.filter (fun w => match w with
                | .async c' j' _ => ¬ (c' = c ∧ j' = j)
                | _ => true) }) a.obj
            else sendPkt s a.chip 0x34 c (a.chip * 2 ^ 44 + syncAddr a.obj) (bytesLE 2 (8 * c + 1 + j)) []
          finish (asyncEnd s c j true false)
        else finish s
      | none => finish s

/-- SYNC_SIG (R239): a remote signal arrives at the object's home. OWNER is not checked (R238). -/
def execSyncSig (chip agent obj k : Nat) (s : State) : Host.Outcome State Fault Refusal :=
  if obj < 16384 then finish (signalLocal s obj k chip agent) else .fault .absentUnit

/-- SYNC_WAIT (R242): a remote wait registers at the object's home; a grant, or the refusal of the wait, returns. -/
def execSyncWait (chip token obj n : Nat) (s : State) : Host.Outcome State Fault Refusal :=
  if 16384 ≤ obj then .fault .absentUnit else finish (syncWaitIn s chip token obj n)

/-- SYNC_GRANT (R242, R248): a grant, or another end of the wait, returns to the waiting chip. -/
def execSyncGrant (chip obj token status n type : Nat) (s : State) : Host.Outcome State Fault Refusal :=
  if 768 ≤ token then .fault .absentUnit else finish (syncGrantIn s chip obj token status n type)

/-- SYNC_WITHDRAW (R248): an abandoned remote wait is withdrawn at its home. -/
def execSyncWithdraw (chip token obj : Nat) (s : State) : Host.Outcome State Fault Refusal :=
  if 16384 ≤ obj then .fault .absentUnit else finish (syncWithdrawIn s chip token obj)

end Sys2Proof.Machine
end

