-- ==== Sys2Proof/Machine/Queue.lean ====
section
/-!
DEFINITION. Hardware message queues and multicast channels (R218 to R236, R244, R249, R251, R252), the staging
buffers of every unit that is written in the manner of R222, and MSI-X (R448).
-/
namespace Sys2Proof.Machine

/-! ### MSI-X -/

/-- Raise a vector (R448): sent to the host, or marked in the PBA while it is masked. -/
def msix (s : State) (v : Nat) : State :=
  if flag s (R.MSIX.MASK v) then setFlag s ⟨(R.PBA.PENDING (v / 32)).off, v % 32, v % 32⟩ true
  else emit s .msix [v, fld s (R.MSIX.ADDR_LO v) + 2 ^ 32 * fld s (R.MSIX.ADDR_HI v), fld s (R.MSIX.DATA v)] []

/-- A unit raises a vector, once every earlier write of the unit has been performed (R448). -/
def msixAfter (s : State) (w : Who) (v : Nat) : State :=
  if hasPosted s w then { s with posted := s.posted ++ [.vector w v] } else msix s v

/-! ### Staging (R222, R223) -/

/-- The source of a write to a staged page: the agent, with the radio task of a borrowed core apart (R223). -/
def stageSrc (s : State) (w : Who) : Nat :=
  match w with
  | .pilot c => if (core s c).sysFlag R.CLAIM.BORROWED then 128 + c else c
  | .vec c => if (core s c).sysFlag R.CLAIM.BORROWED then 128 + c else c
  | .remote chip => 256 + chip
  | _ => w.agent

/-- The staging buffer of a unit (0 queue, 1 task submit, 2 lookup, 3 Weave, 4 host copy) for a source. -/
def stageKey (unit src : Nat) : Nat := 1024 * unit + src

/-- Stage bytes at an offset of a 64-byte window. A write that includes byte 0x3F is the commit: it gives the whole
message, and the buffer clears (R222). -/
def stage (s : State) (unit src off : Nat) (d : List Byte) : Option (List Byte) × State :=
  let key := stageKey unit src
  let buf := putBytes (tabGet s.queues.staging key (List.replicate 64 0)) off (d.take (64 - off))
  if 0x3F < off + d.length then
    (some buf, { s with queues := { s.queues with staging := tabErase s.queues.staging key } })
  else (none, { s with queues := { s.queues with staging := tabSet s.queues.staging key buf } })

/-- Clear what a source has staged without a commit, in every unit (R223). -/
def clearStaged (s : State) (src : Nat) : State :=
  let keep := s.queues.staging.filter (fun p => p.1 % 1024 ≠ src)
  { s with queues := { s.queues with staging := keep } }

/-! ### Queues -/

/-- Change the queue unit. -/
def onQueues (s : State) (f : Queues → Queues) : State := { s with queues := f s.queues }

/-- Entries a queue holds at most (R220). -/
def qDepth (s : State) (q : Nat) : Nat := 2 ^ fld s (R.QCFG.DEPTH_LOG2 q)

/-- The local address of ring entry `i` of queue `q` (R220). -/
def qEntry (s : State) (q i : Nat) : Nat :=
  64 * fld s (R.QRING_LO.RING_BASE q) + 2 ^ 32 * fld s (R.QRING_HI.RING_BASE q) + 64 * i

/-- A message with the fields the hardware sets (R218, R219). -/
def stampMsg (d : List Byte) (chip agent seq : Nat) (mc : Bool) : List Byte :=
  let w := fieldLE d 0x38 2 + 2 ^ 16 * chip + 2 ^ 20 * agent + 2 ^ 27 * num mc
  putBytes (putBytes d 0x38 (bytesLE 4 w)) 0x3C (bytesLE 2 seq)

/-- A message that a queue cannot take is dropped and counted (R231). -/
def qDrop (s : State) (q : Nat) : State :=
  let s := setFlag (bump s (R.QOVF_COUNT.val q)) (R.QSTAT.OVF q) true
  let s := signalDone s (flag s (R.QSYNC.OVF_EN q)) (fld s (R.QSYNC.OVF_SYNC q)) .queue
  onQueues s (fun u => { u with slotOvf := tabSet u.slotOvf q (tabGet u.slotOvf q 0 + 1) })

/-- Messages held in a queue whose sender is this one (R233). -/
def qHeldBy (s : State) (q chip agent : Nat) : Nat :=
  ((List.range (fld s (R.QSTAT.COUNT q))).filter (fun i =>
    let e := (readRange s .queue (ownGa s (qEntry s q ((fld s (R.QPTR.HEAD q) + i) % qDepth s q)) + 0x38) 4).bytes 4
    bitsOf (numLE e.1) 26 16 = chip + 16 * agent)).length

/-- Retire the oldest `k` messages of a queue; each retired message signals CREDIT_SYNC (R229, R232). -/
def qRetire (s : State) (q k : Nat) : State :=
  let k := min k (fld s (R.QSTAT.COUNT q))
  let s := setFld s (R.QPTR.HEAD q) ((fld s (R.QPTR.HEAD q) + k) % qDepth s q)
  let s := setFld s (R.QSTAT.COUNT q) (fld s (R.QSTAT.COUNT q) - k)
  times (fun s => signalDone s (flag s (R.QSYNC.CREDIT_EN q)) (fld s (R.QSYNC.CREDIT_SYNC q)) .queue) k s

/-- Move the oldest message of a queue to an offset of the core's own tile memory and retire it (R228). Gives the
status. -/
def qTake (s : State) (c q off : Nat) : Nat × State :=
  let (d, p, s) := (readRange s .queue (ownGa s (qEntry s q (fld s (R.QPTR.HEAD q)))) 64).bytes 64
  match writeRange s (.pilot c) (ownGa s (tileAddr c off)) d p with
  | .ok _ s => (0, qRetire s q 1)
  | .unmapped s => (5, reportUnmapped s (.pilot c) (ownGa s (tileAddr c off)) 1)
  | .wait s => (5, s)

/-- The core that waits in a QRECV on a queue: its consumer, blocked on it (R226, R228). -/
def qWaiter (s : State) (q : Nat) : Option (Nat × Nat) :=
  let c := fld s (R.QCFG.CONSUMER q)
  match (core s c).run with
  | .recv q' ea _ _ => if q' = q then some (c, ea) else none
  | _ => none

/-- After a message is stored: a waiting QRECV takes it, a MODE 3 queue that was empty raises its vector (R226,
R229). A MODE 1 queue needs nothing: its QUEUE interrupt is pending while it holds a message (R227). -/
def qWake (s : State) (q : Nat) : State :=
  let mode := fld s (R.QCFG.MODE q)
  if mode = 2 then
    match qWaiter s q with
    | some (c, off) => let r := qTake s c q off; pilotEnd r.2 c r.1
    | none => s
  else if mode = 3 ∧ fld s (R.QSTAT.COUNT q) = 1 then msix s (fld s (R.QCFG.CONSUMER q))
  else s

/-- Does a queue drop a message (R231, R233): a MODE 0 queue, a full queue, or a sender beyond its QUOTA? -/
def qRefuses (s : State) (m : Commit) : Bool :=
  let q := m.dest
  let quota := fld s (R.QCFG.QUOTA q)
  fld s (R.QCFG.MODE q) = 0 || qDepth s q ≤ fld s (R.QSTAT.COUNT q) || (quota ≠ 0 && quota ≤ qHeldBy s q m.chip m.agent)

/-- A message reaches its queue (R219, R231, R233): dropped, or stored as the newest entry with its source and SEQ. -/
def acceptMsg (s : State) (m : Commit) : State :=
  let q := m.dest
  if qRefuses s m then qDrop s q
  else
    let seq := tabGet s.queues.seq q 0
    let d := stampMsg m.data m.chip m.agent (m.mc.getD seq) m.mc.isSome
    let tail := fld s (R.QPTR.TAIL q)
    let s := unitWrite s .queue (ownGa s (qEntry s q tail)) d false
    let s := setFld s (R.QPTR.TAIL q) ((tail + 1) % qDepth s q)
    let s := bump s (R.QSTAT.COUNT q)
    let s := onQueues s (fun u => { u with seq := tabSet u.seq q ((seq + 1) % 2 ^ 16) })
    qWake s q

/-- Does the ring entry that a message would take wait for the home of its line (R202)? The message is then accepted later. -/
def ringWaits (s : State) (m : Commit) : Option State :=
  match resolve s .queue (ownGa s (qEntry s m.dest (fld s (R.QPTR.TAIL m.dest)))) with
  | .lp5x a =>
    match homeReady s .queue (a / 128) true with
    | .wait w => if qRefuses s m then none else some w
    | _ => none
  | _ => none

/-- The key of a waiting commit (R202, R233). -/
def Commit.key (m : Commit) : Nat := 128 * m.chip + m.agent

/-- Among the oldest commits of each key, the one whose key is first above the key accepted last, wrapping (R233). -/
def rotate (l : List Commit) (last : Nat) : Option Commit :=
  l.foldl (fun best m =>
    match best with
    | none => some m
    | some b =>
      if (m.key + 2048 - last - 1) % 2048 < (b.key + 2048 - last - 1) % 2048 then some m else best) none

/-- Remove the first commit equal to `m`. -/
def dropCommit : List Commit → Commit → List Commit
  | [], _ => []
  | x :: t, m => if x = m then t else x :: dropCommit t m

/-- A commit joins the waiting list of the Ring road's input or of Adruoth's (R233). -/
def enqueue (s : State) (adr : Bool) (m : Commit) : State :=
  onQueues s (fun u => if adr then { u with adrIn := u.adrIn ++ [m] } else { u with ringIn := u.ringIn ++ [m] })

/-- A unit sends a message to a queue of this chip, once every earlier write of the unit has been performed (R193). -/
def sendAfter (s : State) (w : Who) (q : Nat) (d : List Byte) : State :=
  if hasPosted s w then { s with posted := s.posted ++ [.message w q d] } else enqueue s false ⟨chipId s, w.agent, q, none, d⟩

/-- Perform the posted writes whose lines have come, and what no earlier write of its unit keeps waiting. -/
def drainPosted (s : State) : State :=
  let s := drainWrites s
  let todo := s.posted
  let s : State := { s with posted := [] }
  todo.foldl (fun s p =>
    match p with
    | .write _ _ _ _ => { s with posted := s.posted ++ [p] }
    | .signal w n => signalDone s true n w
    | .vector w v => msixAfter s w v
    | .message w q d => sendAfter s w q d) s

/-- The GA field of a queue message packet: the SEND window of its queue, with the kind in its low bits: 0 a queue, 1 a
channel, 2 a copy of a channel's message (log entry 23). -/
def qmsgGa (chip dest kind : Nat) : Nat := chip * 2 ^ 44 + 0x90010000000 + 0x4000 * dest + kind

/-- Send a message to a queue or a channel of any chip (R222, R224, R234). -/
def sendMsg (s : State) (chip dest agent : Nat) (mc : Bool) (d : List Byte) : State :=
  if chip = chipId s then
    if mc then onQueues s (fun u => { u with chanIn := u.chanIn ++ [⟨chip, agent, dest, none, d⟩] })
    else enqueue s false ⟨chip, agent, dest, none, d⟩
  else
    sendPkt s chip 0x30 agent (qmsgGa chip dest (num mc)) (d.take 16) (d.drop 16)

/-- A write to a SEND window: staged, and sent on the commit (R222). -/
def sendWrite (s : State) (w : Who) (q off : Nat) (d : List Byte) : State :=
  match stage s 0 (stageSrc s w) off d with
  | (none, s) => s
  | (some m, s) => enqueue s false ⟨chipId s, w.agent, q, none, m⟩

/-- A write to CONSUME (R221, R229): `k` messages of a MODE 3 queue are retired; messages left raise the vector
again. Any other such write retires nothing and is reported. -/
def consumeWrite (s : State) (w : Who) (q k : Nat) (word : Bool) : State :=
  if !word ∨ fld s (R.QCFG.MODE q) ≠ 3 then report s 0x0802 w.agent [0x90010000000 + 0x4000 * q + 0x44]
  else
    let s := qRetire s q k
    if fld s (R.QSTAT.COUNT q) = 0 then s else msix s (fld s (R.QCFG.CONSUMER q))

/-- A queue configuration takes effect (R244, R251): a change of ring or depth empties the queue and counts the
dropped messages; a waiting QRECV ends with BAD_QUEUE on any change of mode or consumer. -/
def qReconfig (s : State) (q : Nat) (old : Nat × Nat × Nat × Nat × Option (Nat × Nat)) : State :=
  let (mode, cons, depth, base, waiter) := old
  let s := if depth = fld s (R.QCFG.DEPTH_LOG2 q) ∧ base = qEntry s q 0 then s
    else
      let n := fld s (R.QSTAT.COUNT q)
      let s := setFld s (R.QOVF_COUNT.val q) (fld s (R.QOVF_COUNT.val q) + n)
      setFld (setFld (setFld s (R.QSTAT.COUNT q) 0) (R.QPTR.HEAD q) 0) (R.QPTR.TAIL q) 0
  match waiter with
  | some (c, _) =>
    if mode = fld s (R.QCFG.MODE q) ∧ cons = fld s (R.QCFG.CONSUMER q) then s else pilotEnd s c 4
  | none => s

/-- What `qReconfig` compares with: the configuration as it stands before the change. -/
def qSnapshot (s : State) (q : Nat) : Nat × Nat × Nat × Nat × Option (Nat × Nat) :=
  (fld s (R.QCFG.MODE q), fld s (R.QCFG.CONSUMER q), fld s (R.QCFG.DEPTH_LOG2 q), qEntry s q 0, qWaiter s q)

/-! ### QUEUE interrupt (R227) -/

/-- The MODE 1 queues of a core that hold a message, in rising order. -/
def coreQueues (s : State) (c : Nat) : List Nat :=
  (List.range 1024).filter (fun q =>
    fld s (R.QCFG.MODE q) = 1 && fld s (R.QCFG.CONSUMER q) = c && fld s (R.QSTAT.COUNT q) ≠ 0)

/-- The queue that a QUEUE entry latches: the lowest above the one dispatched last, wrapping. -/
def nextDispatch (s : State) (c : Nat) : Option Nat :=
  let l := coreQueues s c
  match l.find? (fun q => (core s c).sysFld R.QDISP.val < q) with
  | some q => some q
  | none => l.head?

/-- IPEND as it reads (Table 3-8): QUEUE and SYNC follow their units (R227, R241) and are held while the core is borrowed (R249). -/
def ipendWord (s : State) (c : Nat) : Nat :=
  let k := core s c
  let w := k.sysWord c R.IPEND.val.off
  if k.sysFlag R.CLAIM.BORROWED then w
  else putBits (putBits w 22 22 (num (k.sysFld R.SASTAT.DONE ≠ 0))) 20 20 (num (coreQueues s c ≠ []))

/-- A system register of a core as it reads. -/
def sysRead (s : State) (c i : Nat) : Nat := if i = R.IPEND.val.off then ipendWord s c else (core s c).sysWord c i

/-! ### Meanings -/

/-- SEND (R222): a write to a queue's SEND window. -/
def execSend (w : Who) (q off : Nat) (d : List Byte) (s : State) : Host.Outcome State Fault Refusal :=
  if q < 1024 ∧ off < 64 then finish (sendWrite s w q off d) else .fault .absentUnit

/-- QUEUE_ACCEPT (R233): an input of the queue unit accepts a waiting commit by rotation. -/
def execQueueAccept (adr : Bool) (s : State) : Host.Outcome State Fault Refusal :=
  let u := s.queues
  match rotate (if adr then u.adrIn else u.ringIn) (if adr then u.lastAdr else u.lastRing) with
  | none => finish s
  | some m =>
    match ringWaits s m with
    | some s => finish s
    | none =>
      let s := onQueues s (fun u =>
        if adr then { u with adrIn := dropCommit u.adrIn m, lastAdr := m.key }
        else { u with ringIn := dropCommit u.ringIn m, lastRing := m.key })
      finish (acceptMsg s m)

/-- CONSUME (R229): a write of `k` to a queue's CONSUME; `word` says that it is an aligned 4-byte write. -/
def execConsume (w : Who) (q k : Nat) (word : Bool) (s : State) : Host.Outcome State Fault Refusal :=
  if q < 1024 then finish (consumeWrite s w q k word) else .fault .absentUnit

/-- MC_DELIVER (R234, R235): the home of a channel takes the oldest message sent to it, assigns the channel's next
SEQ and sends one copy to each member, or counts an overflow where the domain lacks REMOTE_MCAST (R433); a message to a disabled channel is dropped and reported. -/
def execMcDeliver (ch : Nat) (s : State) : Host.Outcome State Fault Refusal :=
  if 64 ≤ ch then .fault .absentUnit
  else
    match s.queues.chanIn.find? (fun m => m.dest = ch) with
    | none => finish s
    | some m =>
      let s := onQueues s (fun u => { u with chanIn := dropCommit u.chanIn m })
      if !flag s (R.MC_CTL.EN ch) then finish (report s 0x0301 m.agent [2 ^ 10 + ch, 1])
      else
        let seq := fld s (R.MC_SEQ.val ch)
        let s := setFld s (R.MC_SEQ.val ch) (seq + 1)
        finish ((List.range 128).foldl (fun s j =>
          if !flag s (R.MC_MEMBER.VALID ch j) then s
          else
            let q := fld s (R.MC_MEMBER.QUEUE ch j)
            let chip := fld s (R.MC_MEMBER.CHIP ch j)
            if chip = chipId s then enqueue s false ⟨m.chip, m.agent, q, some seq, m.data⟩
            else if !isMember s chip then s
            else if !featOn s 1 then
              onQueues s (fun u => { u with slotOvf := tabSet u.slotOvf (1024 + ch) (tabGet u.slotOvf (1024 + ch) 0 + 1) })
            else
              let d := stampMsg m.data m.chip m.agent seq true
              sendPkt s chip 0x30 m.agent (qmsgGa chip q 2) (d.take 16) (d.drop 16)) s)

/-- QRECV_TIMEOUT (R228): `after` ticks later, a timed QRECV whose deadline is reached ends with TIMEOUT. -/
def execQrecvTimeout (after c : Nat) (s : State) : Host.Outcome State Fault Refusal :=
  if 96 ≤ c then .fault .absentUnit
  else
    let s := advance s after
    match (core s c).run with
    | .recv _ _ _ (some d) => if due s d then finish (pilotEnd s c 2) else finish s
    | _ => finish s

/-- A queue message from another chip reaches the queue unit or the home of its channel (R224, R234): `kind` is 0 for a queue, 1 for a
channel, 2 for a copy of a channel's message. -/
def qmsgArrives (s : State) (chip agent dest kind : Nat) (d : List Byte) : State :=
  if kind = 1 then onQueues s (fun u => { u with chanIn := u.chanIn ++ [⟨chip, agent, dest, none, d⟩] })
  else if kind = 2 then
    let w := fieldLE d 0x38 4
    enqueue s true ⟨bitsOf w 19 16, bitsOf w 26 20, dest, some (fieldLE d 0x3C 2), d⟩
  else enqueue s true ⟨chip, agent, dest, none, d⟩

/-- QMSG (R224): a queue message packet arrives from another chip. -/
def execQmsg (chip agent dest kind : Nat) (d : List Byte) (s : State) : Host.Outcome State Fault Refusal :=
  if dest < 1024 then finish (qmsgArrives s chip agent dest kind d) else .fault .absentUnit

end Sys2Proof.Machine
end

