-- ==== Sys2Proof/Machine/Radio.lean ====
section
/-!
DEFINITION. The JESD204C links, symbol buffers, slot boundaries of the radio, bit-loading maps and the whisper detector
(R315 to R347).
-/
namespace Sys2Proof.Machine

/-- Change the radio. -/
def onRadio (s : State) (f : RadioSt → RadioSt) : State := { s with radio := f s.radio }

/-! ### Modes and latencies (R316, R320) -/

/-- A row of Table 10-1: lanes, antennas, sample rate in units of 10 kHz, and multiblocks in a slot. -/
structure JMode where
  lanes : Nat
  ants : Nat
  rate : Nat
  blocks : Nat
deriving DecidableEq, Repr

/-- Table 10-1; modes 12 to 15 are reserved. -/
def jmode (m : Nat) : JMode :=
  match m with
  | 0 => ⟨1, 1, 3072, 240⟩
  | 1 => ⟨1, 1, 6144, 480⟩
  | 2 => ⟨1, 1, 12288, 960⟩
  | 3 => ⟨1, 2, 3072, 480⟩
  | 4 => ⟨2, 4, 3072, 480⟩
  | 5 => ⟨1, 2, 6144, 960⟩
  | 6 => ⟨2, 4, 6144, 960⟩
  | 7 => ⟨2, 2, 12288, 960⟩
  | 8 => ⟨4, 4, 12288, 960⟩
  | 9 => ⟨8, 4, 12288, 480⟩
  | 10 => ⟨1, 4, 12288, 3840⟩
  | 11 => ⟨1, 4, 24576, 5760⟩
  | _ => ⟨0, 0, 0, 1⟩

/-- The internal latency of a mode in units of 2^-8 ns: two multiblock periods, 65.10 ns, and 130.21 ns in mode 11
(R320; rounded to nearest, log entry 18). -/
def fixLat (m : Nat) : Nat :=
  let k := (jmode m).blocks
  let hundredths := 6510 + (if m = 11 then 13021 else 0)
  (256 * (2 * 500000 * 100 + hundredths * k) + 50 * k) / (100 * k)

/-- JRX_FIXLAT and JTX_FIXLAT. -/
def rxFixLat (s : State) : Nat := fixLat (fld s R.JRX_CTL.MODE)
def txFixLat (s : State) : Nat := fixLat (fld s R.JTX_CTL.MODE)

/-- Does the receive link run a watch mode (R316)? -/
def watchMode (s : State) : Bool := fld s R.JRX_CTL.MODE ≤ 2

/-- The corrected time, in ns, of a sample that leaves the deframer now (R320). -/
def correctedNow (s : State) : Nat :=
  let lat := (fld s R.JRX_DLAT.val + rxFixLat s) * 2 ^ 16
  (counter s + 2 ^ 56 - lat % 2 ^ 56) % 2 ^ 56 / 2 ^ 24

/-! ### Links (R318, R319) -/

/-- The receive link goes down: it retrains without software action. -/
def linkDown (s : State) : State := setFlag (setFlag s R.JRX_STAT.LINK_UP false) R.JRX_STAT.EMB_LOCK false

/-- A register of the JESD204C links has changed: the lanes of a link that is disabled or whose mode changes lock
again, and the symbol sequence starts again when the link is enabled (R345). -/
def jrxChanged (s : State) (oldEn : Bool) (oldMode : Nat) : State :=
  let en := flag s R.JRX_CTL.EN
  if en = oldEn ∧ fld s R.JRX_CTL.MODE = oldMode then s
  else
    let s := setFld (linkDown s) R.JRX_STAT.LANE_LOCK 0
    if en ∧ !oldEn then onRadio s (fun r => { r with seq := 0, rxNext := 0 }) else s

/-- A lane of the receive link locks. -/
def laneLock (s : State) (lane : Nat) : State :=
  if linkHeld s 2 0 then s
  else if flag s R.JRX_CTL.EN ∧ lane < (jmode (fld s R.JRX_CTL.MODE)).lanes then
    setFlag s ⟨R.JRX_STAT.LANE_LOCK.off, lane, lane⟩ true
  else s

/-- A lane loses lock: LINK_UP clears and the loss is reported. -/
def laneLoss (s : State) (lane : Nat) : State :=
  if !bitOf (fld s R.JRX_STAT.LANE_LOCK) lane then s
  else
    let s := setFlag s ⟨R.JRX_STAT.LANE_LOCK.off, lane, lane⟩ false
    if flag s R.JRX_STAT.LINK_UP then report (linkDown s) 0x0405 101 [2 ^ lane] else linkDown s

/-- The elastic buffers are released at the next LEMC edge once every lane has locked (R318); the LEMC is aligned to the
slot boundary from here on. -/
def linkUp (s : State) : State :=
  let n := (jmode (fld s R.JRX_CTL.MODE)).lanes
  if flag s R.JRX_CTL.EN ∧ 0 < n ∧ (List.range n).all (fun i => bitOf (fld s R.JRX_STAT.LANE_LOCK) i) then
    let s := setFlag (setFlag s R.JRX_STAT.EMB_LOCK true) R.JRX_STAT.LINK_UP true
    onRadio s (fun r => { r with lemcMoved := false })
  else s

/-- A multiblock arrives on a lane; `parts` are the samples it carried. One that fails CRC-12 is counted and its samples
are zeroed before they land (R319). -/
def multiblock (s : State) (lane : Nat) (ok : Bool) (parts : List BadSamples) : State :=
  if ok ∨ !flag s R.JRX_STAT.LINK_UP then s
  else
    let s := bump s R.JRX_CRC_ERR.val
    onRadio s (fun r => { r with
      bad := r.bad ++ parts, crcSec := tabSet r.crcSec lane (tabGet r.crcSec lane 0 + 1) })

/-- The JESD_CRC reports of the last second (R319, Table 18-4). -/
def crcReports (s : State) : State :=
  let l := s.radio.crcSec
  let s := onRadio s (fun r => { r with crcSec := [] })
  l.foldl (fun s p => report s 0x0401 101 [p.1, p.2]) s

/-! ### The frame (R326, R327) -/

/-- FFT size of a bandwidth code (Table 10-4). -/
def fftSize (bw : Nat) : Nat := 1024 * 2 ^ bw

/-- Cyclic-prefix samples of a symbol (Table 10-4, R327). -/
def cpLen (bw j : Nat) : Nat := (if j = 0 ∨ j = 7 then 80 else 72) * 2 ^ bw

/-- Bins of a bandwidth (Table 10-4). -/
def binsOf (bw : Nat) : Nat := if bw = 0 then 50 else if bw = 1 then 104 else 216

/-- t_j in ns (Table 10-5). -/
def symStart (j : Nat) : Nat :=
  [0, 35938, 71615, 107292, 142969, 178646, 214323, 250000, 285938, 321615, 357292, 392969, 428646, 464323].getD j 0

/-- BLK: bytes of an antenna block (R322). -/
def blkBytes (bw : Nat) : Nat := 128 * ceilDiv (4 * 1104 * fftSize bw / 1024) 128

/-- The time of a symbol of a slot, nearest to the current slot. KSLOT_PHASE is the boundary that ends the current
slot. -/
def symTime (s : State) (slot j : Nat) : Nat :=
  let d := signed 32 (slot + 2 ^ 32 - fld s R.KSLOT_NUM.val)
  wrapTo 32 ((fld s R.KSLOT_PHASE.val : Int) + (d - 1) * 500000 + symStart j)

/-- The map bound to a slot in a direction (R52, R338): of a slot whose binding is no longer held, the current one. -/
def boundMap (s : State) (slot dir : Nat) : Nat :=
  match s.radio.bound.find? (fun b => b.1 = slot) with
  | some b => if dir = 0 then b.2.1 else b.2.2
  | none => if dir = 0 then fld s R.KMAP_CUR.UL else fld s R.KMAP_CUR.DL

/-! ### Receive symbols (R322 to R324) -/

/-- A buffer's global address. -/
def rxBuf (s : State) (k : Nat) : Nat := fld s (R.RXB.val k) + 2 ^ 32 * fld s (R.RXB.val_HI k)
def txBuf (s : State) (k : Nat) : Nat := fld s (R.TXB.val k) + 2 ^ 32 * fld s (R.TXB.val_HI k)

/-- May the sample writer reach this range (R322)? -/
def writerOk (s : State) (ga n : Nat) : Bool := inLp5x s ga n || inBanks0to9 s (fld s R.JRX_CTL.RX_PART) ga n

/-- The samples of one antenna with those of failed multiblocks replaced by zero, and how many were replaced. -/
def zeroBad (bad : List BadSamples) (ant : Nat) (d : List Byte) : List Byte × Nat :=
  (bad.filter (fun b => b.ant = ant)).foldl (fun x b =>
    let n := min b.count (x.1.length / 4 - b.first)
    (putBytes x.1 (4 * b.first) (List.replicate (4 * n) 0), x.2 + n)) (d, 0)

/-- The header of a received symbol (Table 10-3). -/
def rxHeader (slot j ants map : Nat) (crcErr down : Bool) (ts samples cp zeroed seq : Nat) : List Byte :=
  bytesLE 4 slot ++ bytesLE 4 (j + 2 ^ 4 * ants + 2 ^ 8 * map + 2 ^ 16 * num crcErr + 2 ^ 17 * num down) ++
    bytesLE 4 ts ++ bytesLE 4 (samples + 2 ^ 16 * cp) ++ bytesLE 4 zeroed ++ bytesLE 4 seq ++ List.replicate 104 0

/-- The symbol is dropped (R323). -/
def rxDrop (s : State) : State :=
  onRadio (bump s R.JRX_OVERRUN.val) (fun r => { r with seq := r.seq + 1 })

/-- A receive symbol starts: a unit of FREE_SYNC is polled, and the symbol lands in the next buffer or is dropped.
`samples` holds each antenna's samples in time order, cyclic prefix first. -/
def symbolLand (s : State) (slot j : Nat) (samples : List (List Byte)) : State :=
  if !flag s R.KCTL.RX_EN ∨ !flag s R.JRX_CTL.EN then s
  else
    let bw := fld s R.KCTL.BW
    let n := fftSize bw + cpLen bw j
    let ants := (jmode (fld s R.JRX_CTL.MODE)).ants
    let down := !flag s R.JRX_STAT.LINK_UP
    let bad := s.radio.bad.filter (fun b => b.slot = slot && b.sym = j)
    let s := onRadio s (fun r => { r with bad := r.bad.filter (fun b => !(b.slot = slot && b.sym = j)) })
    match pollLocal s (fld s R.RXB_SYNC.FREE_SYNC) 1 with
    | (0, s) =>
      let ga := rxBuf s s.radio.rxNext
      let blk := blkBytes bw
      if !writerOk s ga (128 + ants * blk) then
        rxDrop (signalLocal (reportUnmapped s .jesd ga 1) (fld s R.RXB_SYNC.FREE_SYNC) 1 (chipId s) 101)
      else
        let ants' := (List.range ants).map (fun a =>
          if down then (List.replicate (4 * n) 0, 0) else zeroBad bad a (sliceBytes (samples.getD a []) 0 (4 * n)))
        let s := (List.zip (List.range ants) ants').foldl (fun s p =>
          unitWrite s .jesd (ga + 128 + p.1 * blk) p.2.1 false) s
        let zeroed := (ants'.map (fun x => x.2)).sum
        let ts := if down then symTime s slot j else correctedNow s
        let s := unitWrite s .jesd ga
          (rxHeader slot j ants (boundMap s slot 0) (bad ≠ []) down ts n (cpLen bw j) zeroed s.radio.seq) false
        let s := onRadio s (fun r => { r with
          seq := r.seq + 1, rxNext := if fld s R.RXB_CFG.NBUF ≤ r.rxNext then 0 else r.rxNext + 1 })
        signalDone s true (fld s R.RXB_SYNC.SYM_SYNC) .jesd
    | (_, s) => rxDrop s

/-! ### Transmit symbols (R325) -/

/-- Send zeros for a symbol. -/
def txZeros (s : State) (slot j : Nat) : State := emit s .symbol [slot, j, 0] []

/-- The launch time of symbol (n, j): the reader looks at buffers until one is not earlier; `fuel` is the value of
READY_SYNC. -/
def txLaunch : Nat → State → Nat → Nat → State
  | 0, s, slot, j => bump (txZeros s slot j) R.JTX_UNDERRUN.val
  | fuel + 1, s, slot, j =>
    let ready := fld s R.TXB_SYNC.READY_SYNC
    let free := fld s R.TXB_SYNC.FREE_SYNC
    let ga := txBuf s s.radio.txNext
    let bw := fld s R.KCTL.BW
    let ants := (jmode (fld s R.JTX_CTL.MODE)).ants
    match readRange s .jesd ga (128 + ants * blkBytes bw) with
    | .ok d s =>
      let hSlot := fieldLE d.1 0 4
      let hSym := bitsOf (fieldLE d.1 4 4) 3 0
      let dist := signed 32 (hSlot + 2 ^ 32 - slot) * 14 + ((hSym : Int) - j)
      let next (s : State) := onRadio s (fun r => { r with
        txNext := if fld s R.TXB_CFG.NBUF ≤ r.txNext then 0 else r.txNext + 1 })
      if dist < 0 then
        let s := next (pollLocal s ready 1).2
        txLaunch fuel (bump (signalLocal s free 1 (chipId s) 101) R.JTX_UNDERRUN.val) slot j
      else if dist = 0 then
        let s := next (pollLocal s ready 1).2
        let n := 4 * (fftSize bw + cpLen bw j)
        let out := (List.range ants).flatMap (fun a => sliceBytes d.1 (128 + a * blkBytes bw) n)
        signalLocal (emit s .symbol [slot, j, 1] out) free 1 (chipId s) 101
      else txZeros s slot j
    | .unmapped s => txZeros (reportUnmapped s .jesd ga 1) slot j
    | .wait s => bump (txZeros s slot j) R.JTX_UNDERRUN.val

/-- A symbol's launch time comes. -/
def symbolLaunch (s : State) (slot j : Nat) : State :=
  if !flag s R.KCTL.TX_EN ∨ !flag s R.JTX_CTL.EN ∨ watchMode s then s
  else txLaunch (syncObj s (fld s R.TXB_SYNC.READY_SYNC)).value s slot j

/-! ### Slot phase (R333) -/

/-- Is the radio off: both enables clear? -/
def radioOff (s : State) : Bool := !flag s R.KCTL.RX_EN && !flag s R.KCTL.TX_EN

/-- Advance KSLOT_PHASE and KSLOT_NUM by whole slots until the boundary lies ahead; the skipped boundaries do not
occur. -/
def skipSlots (s : State) : State :=
  if !due s (fld s R.KSLOT_PHASE.val) then s
  else
    let d := (nowNs s + 2 ^ 32 - fld s R.KSLOT_PHASE.val) % 2 ^ 32
    let k := d / 500000 + 1
    setFld (setFld s R.KSLOT_PHASE.val (fld s R.KSLOT_PHASE.val + 500000 * k)) R.KSLOT_NUM.val (fld s R.KSLOT_NUM.val + k)

/-- The slot boundary moves by `d` ns against the LEMC (R317, R345). -/
def lemcShift (s : State) (d : Int) : State :=
  let k := (jmode (fld s R.JRX_CTL.MODE)).blocks
  if d * k % 500000 = 0 then s else onRadio s (fun r => { r with lemcMoved := true })

/-- A write of KSLOT_PHASE: ignored and reported while a radio enable is set. -/
def phaseWrite (s : State) (w : Who) (v : Nat) : State :=
  if !radioOff s then report s 0x0802 w.agent [R.KSLOT_PHASE.val.off]
  else
    let s := lemcShift s ((v : Int) - fld s R.KSLOT_PHASE.val)
    skipSlots (setFld s R.KSLOT_PHASE.val v)

/-- A write of KSLOT_NUM, under the same rule. -/
def slotNumWrite (s : State) (w : Who) (v : Nat) : State :=
  if !radioOff s then report s 0x0802 w.agent [R.KSLOT_NUM.val.off] else setFld s R.KSLOT_NUM.val v

/-! ### SYSREF (R317) -/

/-- ARM is written: one pulse at the next slot boundary, with PERIODIC at 0. -/
def sysrefArm (s : State) : State := setFlag (setFlag s R.JSYSREF.ARM true) R.JSYSREF.SENT false

/-- SYSREF at the slot boundary of the time given. A pulse that finds the LEMC out of phase while the link is up sets SYSREF_ERR (R345). -/
def sysrefPulse (s : State) (phase : Nat) : State :=
  let once := !flag s R.JSYSREF.PERIODIC && flag s R.JSYSREF.ARM
  if !flag s R.JSYSREF.PERIODIC ∧ !once then s
  else
    let s := emit s .sysref [phase] []
    let s := if once then setFlag (setFlag s R.JSYSREF.ARM false) R.JSYSREF.SENT true else s
    if flag s R.JRX_STAT.LINK_UP ∧ s.radio.lemcMoved then setFlag s R.JRX_STAT.SYSREF_ERR true else s

/-! ### Bit-loading maps (R334 to R338) -/

/-- The local address of a stored map. -/
def mapAddr (s : State) (id : Nat) : Nat := 2 ^ 16 * fld s R.KMAP_BASE.val + 256 * id

/-- Is an ID verified? -/
def mapVerified (s : State) (id : Nat) : Bool := flag s ⟨(R.KMAP_VERIFIED.val (id / 32)).off, id % 32, id % 32⟩

/-- Set or clear an ID's verified bit. ID 0 is always verified. -/
def setVerified (s : State) (id : Nat) (b : Bool) : State :=
  if id = 0 then s else setFlag s ⟨(R.KMAP_VERIFIED.val (id / 32)).off, id % 32, id % 32⟩ b

/-- The canonical form of a map: reserved fields and nibbles beyond BINS at zero (R334). -/
def canonMap (d : List Byte) : List Byte :=
  let bins := fieldLE d 4 2
  bytesLE 4 (fieldLE d 0 4 % 2 ^ 10) ++ bytesLE 4 bins ++ bytesLE 4 0 ++ bytesLE 4 (fieldLE d 12 4) ++
    (List.range 240).map (fun i =>
      let b := fieldLE d (16 + i) 1
      let lo := if 2 * i < bins then b % 16 else 0
      let hi := if 2 * i + 1 < bins then b / 16 else 0
      BitVec.ofNat 8 (lo + 16 * hi))

/-- The CRC of a map over its canonical form matches. -/
def mapCrcOk (d : List Byte) : Bool :=
  let c := canonMap d
  crc32c (c.take 12 ++ c.drop 16) = fieldLE d 12 4

/-- The bits of a bin. -/
def mapBin (d : List Byte) (b : Nat) : Nat := fieldLE d (16 + b / 2) 1 / 16 ^ (b % 2) % 16

/-- The conditions of REGISTER (R337). -/
def mapGood (s : State) (id : Nat) (d : List Byte) : Bool :=
  let b := binsOf (fld s R.KCTL.BW)
  fieldLE d 0 1 = id && bitsOf (fieldLE d 0 4) 9 8 = fld s R.KCTL.BW && fieldLE d 4 2 = b &&
    (List.range b).all (fun i => mapBin d i ≤ 10) && mapCrcOk d

/-- Read a stored map. -/
def readMap (s : State) (id : Nat) : List Byte × Bool × State :=
  (readRange s .warden (ownGa s (mapAddr s id)) 256).bytes 256

/-- Is an ID in use (R337): current or pending, or short of the third boundary after it was last bound? -/
def mapInUse (s : State) (id : Nat) : Bool :=
  id = fld s R.KMAP_CUR.UL || id = fld s R.KMAP_CUR.DL ||
    [0, 1].any (fun d => flag s (R.KMAP_PEND.VALID d) && fld s (R.KMAP_PEND.ID d) = id) ||
    (match tabFind s.radio.lastBound id with
    | some n => s.radio.boundaries < n + 3
    | none => false)

/-- May an agent reach the radio control page (R336)? -/
def radioPageOpen (s : State) (w : Who) : Bool :=
  match w with
  | .warden => true
  | .pilot c => activePart s c = some (fld s R.JRX_CTL.RX_PART)
  | .vec c => activePart s c = some (fld s R.JRX_CTL.RX_PART)
  | _ => false

/-- An operation begins: BUSY with its ID and direction. -/
def kmapStart (s : State) (op : KmapOp) (id dir : Nat) : State :=
  let s := setReg s R.KMAP_RESULT.ID.off (id + 2 ^ 8 * dir + 2 ^ 31)
  onRadio s (fun r => { r with op := some op })

/-- A write to the radio control page (Table 10-10). While BUSY is set a write is ignored (R336). -/
def radioPageWrite (s : State) (w : Who) (off v : Nat) : State :=
  if !radioPageOpen s w then reportUnmapped s w (ownGa s (0xA0000511000 + off)) 1
  else if flag s R.KMAP_RESULT.BUSY then s
  else if off = 0 then
    let id := bitsOf v 7 0
    let s := if id = 0 ∨ mapInUse s id then s else setVerified s id false
    kmapStart s (.register id) id 0
  else if off = 4 then kmapStart s (.select (bitsOf v 7 0) (bitsOf v 8 8) (bitsOf v 31 9)) (bitsOf v 7 0) (bitsOf v 8 8)
  else if off = 0xC then
    let c := bitsOf v 3 0
    onRadio (bump s (R.WFCNT.val c)) (fun r => { r with falses := (c, 2 ^ 32 * epochEff s + nowNs s) :: r.falses })
  else s

/-- End the operation with a status. -/
def kmapEnd (s : State) (status : Nat) : State :=
  onRadio (setFlag (setFld s R.KMAP_RESULT.STATUS status) R.KMAP_RESULT.BUSY false) (fun r => { r with op := none })

/-- What a REGISTER ends with (R337). -/
def registerEnd (s : State) (id : Nat) : State :=
  if id = 0 then kmapEnd s 1
  else if mapInUse s id then kmapEnd s 3
  else
    let (d, bad, s) := readMap s id
    if !bad ∧ mapGood s id d then kmapEnd (setVerified s id true) 0 else kmapEnd (setVerified s id false) 2

/-- What a SELECT ends with (R338). The target is the next superframe whose low 23 bits match. -/
def selectEnd (s : State) (id dir target : Nat) : State :=
  let cur := fld s R.KSLOT_NUM.val / 20
  let ahead := (target + 2 ^ 23 - (cur + 1) % 2 ^ 23) % 2 ^ 23 + 1
  let slots := 20 * (cur + ahead) - fld s R.KSLOT_NUM.val - 1
  let wait : Int := signed 32 (fld s R.KSLOT_PHASE.val + 2 ^ 32 - nowNs s) + 500000 * slots
  if !mapVerified s id then kmapEnd s 5
  else if wait < 50000 ∨ 255 < ahead then kmapEnd s 4
  else
    let s := setFld (setFld s (R.KMAP_PEND.ID dir) id) (R.KMAP_PEND.TARGET dir) target
    kmapEnd (setFlag s (R.KMAP_PEND.VALID dir) true) 0

/-- The operation in progress ends (R336). -/
def kmapFinish (s : State) : State :=
  match s.radio.op with
  | none => s
  | some (.register id) => registerEnd s id
  | some (.select id dir target) => selectEnd s id dir target

/-- The target boundary of a pending map: recheck, and make it current or drop it (R338). -/
def mapSwitch (s : State) (dir : Nat) : State :=
  let n := fld s R.KSLOT_NUM.val
  if !flag s (R.KMAP_PEND.VALID dir) ∨ n % 20 ≠ 0 ∨ n / 20 % 2 ^ 23 ≠ fld s (R.KMAP_PEND.TARGET dir) then s
  else
    let id := fld s (R.KMAP_PEND.ID dir)
    let (d, bad, s) := readMap s id
    let s := setReg s (R.KMAP_PEND.ID dir).off 0
    if id = 0 ∨ (!bad ∧ mapCrcOk d) then setFld s (if dir = 0 then R.KMAP_CUR.UL else R.KMAP_CUR.DL) id
    else report (setVerified (bump s R.KMAP_ERR.val) id false) 0x0402 0x7F [id]

/-- At S_n: the pending maps whose target this is, and the binding of slot n (R52, R338). -/
def mapBoundary (s : State) : State :=
  let s := mapSwitch (mapSwitch s 0) 1
  let n := fld s R.KSLOT_NUM.val
  let ul := fld s R.KMAP_CUR.UL
  let dl := fld s R.KMAP_CUR.DL
  onRadio s (fun r => { r with
    boundaries := r.boundaries + 1,
    lastBound := tabSet (tabSet r.lastBound ul (r.boundaries + 1)) dl (r.boundaries + 1),
    bound := ((n, ul, dl) :: r.bound).take 4 })

/-! ### The whisper detector (R340 to R343) -/

/-- The bandwidth of a channel in units of 10 kHz. -/
def wchBw (s : State) (c : Nat) : Nat := 12 * 2 ^ fld s (R.WCH.BW c)

/-- Is a channel out of band (R340)? -/
def outOfBand (s : State) (c : Nat) : Bool :=
  let off := (signed 26 (fld s (R.WCHF.val c))).natAbs
  45 * (jmode (fld s R.JRX_CTL.MODE)).rate * 10000 < 100 * off + 50 * wchBw s c * 10000

/-- WSTAT: the enabled channels that are out of band. -/
def wstat (s : State) : Nat :=
  ((List.range 16).map (fun c => if flag s (R.WCH.EN c) ∧ outOfBand s c then 2 ^ c else 0)).sum

/-- Is the chip in WATCH (R509)? -/
def inWatch (s : State) : Bool := fld s R.PWR_STATE.STATE = 3

/-- The peak bin of a window, the lowest of equal ones. -/
def peakBin (p : List Nat) : Nat :=
  (List.range p.length).foldl (fun b i => if p.getD b 0 < p.getD i 0 then i else b) 0

/-- The sum of every bin except the peak and the two on each side of it, and their number (R341). -/
def noiseSum (p : List Nat) (k : Nat) : Nat × Nat :=
  let n := p.length
  let far (i : Nat) : Bool := 2 < (i + n - k) % n && 2 < (k + n - i) % n
  (((List.range n).filter far).map (fun i => p.getD i 0) |>.sum, ((List.range n).filter far).length)

/-- A window is a hit: 10 log10 Λ is at least `thr` / 8 dB, that is Λ^80 ≥ 10^thr. -/
def isHit (p : List Nat) (thr : Nat) : Bool :=
  let k := peakBin p
  let (sum, n) := noiseSum p k
  10 ^ thr * sum ^ 80 ≤ (p.getD k 0 * n) ^ 80

/-- Λ in dB in units of 2^-8, rounded down (log entry 19). -/
def lambdaDb (p : List Nat) : Nat :=
  let k := peakBin p
  let (sum, n) := noiseSum p k
  (List.range 16).foldl (fun l i =>
    let t := l + 2 ^ (15 - i)
    if 10 ^ t * sum ^ 2560 ≤ (p.getD k 0 * n) ^ 2560 then t else l) 0

/-- Are two peaks within one bin, cyclically? -/
def nearBin (n a b : Nat) : Bool := (a + n - b) % n ≤ 1 || (b + n - a) % n ≤ 1

/-- The detection record (Table 10-13). -/
def detection (s : State) (c sf lambda : Nat) (x : Search) : List Byte :=
  bytesLE 4 (c + 2 ^ 4 * (sf - 6) + 2 ^ 8 * num (inWatch s)) ++ bytesLE 4 (x.bin + 2 ^ 16 * lambda) ++
    bytesLE 4 x.time ++ bytesLE 4 (if inWatch s then 0 else x.ring) ++ bytesLE 4 (fld s (R.WCNT.val c)) ++
    List.replicate 44 0

/-- A detection is declared and delivered (R342). -/
def detect (s : State) (c sf lambda : Nat) (x : Search) : State :=
  let s := bump s (R.WCNT.val c)
  let d := detection s c sf lambda x
  if inWatch s then report s 0x0404 101 ((d.take 16).map (fun b => b.toNat))
  else sendAfter s .jesd (fld s R.WDET_Q.QID) (sliceBytes d 0 64)

/-- The ring of a channel takes the window's samples (R340). -/
def ringWrite (s : State) (c i : Nat) (d : List Byte) : State :=
  let size := 2 ^ fld s R.WRING_LOG2.val
  let base := 4096 * fld s R.WRING.val + 2 ^ 32 * fld s R.WRING.val_HI + c * size
  (List.range (d.length / 4)).foldl (fun s k =>
    unitWrite s .jesd (ownGa s (base + 4 * (i + k) % size)) (sliceBytes d (4 * k) 4) false) s

/-- One window of a channel at a spreading factor: `first` is the number of its first chip since the channel was
enabled, `time` its corrected time, `samples` its samples and `power` its FFT powers. -/
def whisperWindow (s : State) (c sf first time : Nat) (samples : List Byte) (power : List Nat) : State :=
  if !flag s R.WCTL.EN ∨ !flag s R.JRX_STAT.LINK_UP ∨ !flag s (R.WCH.EN c) ∨ sf < 6 ∨
      !bitOf (fld s (R.WCH.SFMASK c)) (sf - 6) ∨ outOfBand s c then s
  else
    let s := if inWatch s then s else ringWrite s c first samples
    let key := 16 * c + sf
    let x := tabGet s.radio.search key ⟨0, 0, 0, 0, 0, 0⟩
    let put (s : State) (x : Search) := onRadio s (fun r => { r with search := tabSet r.search key x })
    if x.ignore ≠ 0 then put s { x with ignore := x.ignore - 1 }
    else if !isHit power (fld s (R.WTHR.val (sf - 6)) + fld s (R.WADJ.val c)) then put s { x with run := 0 }
    else
      let p := peakBin power
      let fresh : Search := ⟨1, p, p, time, 4 * first % 2 ^ fld s R.WRING_LOG2.val, 0⟩
      let x' : Search := if x.run ≠ 0 ∧ nearBin power.length p x.last then { x with run := x.run + 1, last := p } else fresh
      if x'.run < fld s R.WCTL.H then put s x'
      else put (detect s c sf (lambdaDb power) x') ⟨0, 0, 0, 0, 0, 16⟩

/-- Every 60 s Warden computes each channel's false alarms per hour over the last ten minutes and adjusts its threshold
from the next boundary (R343). -/
def wadjAdjust (s : State) : State :=
  let now := 2 ^ 32 * epochEff s + nowNs s
  let recent := s.radio.falses.filter (fun f => now < f.2 + 600000000000)
  let target := fld s R.WFA_TARGET.val
  let adj (c : Nat) : Nat :=
    let rate := 6 * (recent.filter (fun f => f.1 = c)).length
    let w := fld s (R.WADJ.val c)
    if 3 * target < 2 * rate then min (w + 4) (max w 48)
    else if 2 * rate < target then w - 2
    else w
  onRadio s (fun r => { r with falses := recent, adjust := (List.range 16).map (fun c => (c, adj c)) })

/-- Adjustments take effect at a slot boundary. -/
def wadjBoundary (s : State) : State :=
  let l := s.radio.adjust
  l.foldl (fun s p => setFld s (R.WADJ.val p.1) p.2) (onRadio s (fun r => { r with adjust := [] }))

/-! ### Meanings -/

/-- LANE_LOCK (R318): a receive lane locks. -/
def execLaneLock (lane : Nat) (s : State) : Host.Outcome State Fault Refusal :=
  if lane < 8 then finish (laneLock s lane) else .fault .absentUnit

/-- LANE_LOCK_LOSS (R318): a receive lane loses lock. -/
def execLaneLockLoss (lane : Nat) (s : State) : Host.Outcome State Fault Refusal :=
  if lane < 8 then finish (laneLoss s lane) else .fault .absentUnit

/-- LINK_UP (R318): the elastic buffers are released at the next LEMC edge. -/
def execLinkUp (s : State) : Host.Outcome State Fault Refusal := finish (linkUp s)

/-- MULTIBLOCK (R319): a multiblock arrives and is checked. -/
def execMultiblock (lane : Nat) (ok : Bool) (parts : List BadSamples) (s : State) : Host.Outcome State Fault Refusal :=
  if lane < 8 then finish (multiblock s lane ok parts) else .fault .absentUnit

/-- SYMBOL_LAND (R323): the first sample of symbol `j` of a slot. -/
def execSymbolLand (slot j : Nat) (samples : List (List Byte)) (s : State) : Host.Outcome State Fault Refusal :=
  if j < 14 then finish (symbolLand s slot j samples) else .fault .absentUnit

/-- SYMBOL_LAUNCH (R325): the launch time of symbol `j` of a slot. -/
def execSymbolLaunch (slot j : Nat) (s : State) : Host.Outcome State Fault Refusal :=
  if j < 14 then finish (symbolLaunch s slot j) else .fault .absentUnit

/-- ARM (R317): JSYSREF.ARM is written. -/
def execArm (s : State) : Host.Outcome State Fault Refusal := finish (sysrefArm s)

/-- KSLOT_PHASE (R333): a write of KSLOT_PHASE by Warden. -/
def execKslotPhase (v : BitVec 32) (s : State) : Host.Outcome State Fault Refusal :=
  finish (phaseWrite s .warden v.toNat)

/-- KMAP_REGISTER (R337): a write of KMAP_REGISTER. -/
def execKmapRegister (w : Who) (v : BitVec 32) (s : State) : Host.Outcome State Fault Refusal :=
  finish (radioPageWrite s w 0 v.toNat)

/-- KMAP_SELECT (R338): a write of KMAP_SELECT. -/
def execKmapSelect (w : Who) (v : BitVec 32) (s : State) : Host.Outcome State Fault Refusal :=
  finish (radioPageWrite s w 4 v.toNat)

/-- KMAP_OPERATION_END (R336): the REGISTER or SELECT in progress ends. -/
def execKmapOperationEnd (s : State) : Host.Outcome State Fault Refusal := finish (kmapFinish s)

/-- WFALSE (R343): one whisper false alarm is counted for a channel. -/
def execWfalse (w : Who) (v : BitVec 32) (s : State) : Host.Outcome State Fault Refusal :=
  finish (radioPageWrite s w 0xC v.toNat)

/-- WHISPER_WINDOW (R341): the detector processes a window. -/
def execWhisperWindow (channel sf first time : Nat) (samples : List Byte) (power : List Nat) (s : State) :
    Host.Outcome State Fault Refusal :=
  if channel < 16 ∧ sf ≤ 13 then finish (whisperWindow s channel sf first time samples power) else .fault .absentUnit

/-- WADJ_ADJUST (R343): Warden adjusts the thresholds. -/
def execWadjAdjust (s : State) : Host.Outcome State Fault Refusal := finish (wadjAdjust s)

end Sys2Proof.Machine
end

