-- ==== Sys2Proof/Machine/Time.lean ====
section
/-!
DEFINITION. The time unit (R379 to R406): reads, the servo hooks, PPS, and the time checks of a domain.
-/
namespace Sys2Proof.Machine

/-- Let ticks pass until the counter has gone `rem` units of 2^-24 ns further; `fuel` bounds the rounds. -/
def runTo : Nat → Nat → State → State
  | 0, _, s => s
  | fuel + 1, rem, s =>
    let n := max 1 (rem / (s.time.inc + s.time.inc / 1024 + 1))
    let s' := advance s n
    let adv := (counter s' + 2 ^ 56 - counter s) % 2 ^ 56
    if rem ≤ adv ∨ !s.time.running then s' else runTo fuel (rem - adv) s'

/-- Let ticks pass until the counter next passes a multiple of `m`. -/
def runToNext (s : State) (m : Nat) : State := runTo 4096 (m - counter s % m) s

/-! ### Reads (R383, R384) -/

/-- The latch that belongs to a source (R188, R383): a core's Pilot and vector engine, its DMA, or another agent. -/
def latchKey : Who → Nat
  | .pilot c => c
  | .vec c => c
  | .dma c => 128 + c
  | .remote chip => 512 + chip
  | w => 300 + w.agent

/-- A 4-byte read of TIME_NS latches EPOCH_EFF and FRAC for its source. -/
def latchTime (s : State) (w : Who) : State :=
  onTime s (fun t => { t with
    latchHi := tabSet t.latchHi (latchKey w) (epochEff s), latchFrac := tabSet t.latchFrac (latchKey w) t.frac })

/-- TIME_HI and TIME_FRAC as a source reads them. -/
def latchedHi (s : State) (w : Who) : Nat := tabGet s.time.latchHi (latchKey w) 0
def latchedFrac (s : State) (w : Who) : Nat := tabGet s.time.latchFrac (latchKey w) 0

/-- May this agent read the time registers directly (R384)? -/
def timeReader : Who → Bool
  | .pilot _ => true
  | .vec _ => true
  | .host => true
  | .warden => true
  | _ => false

/-! ### Servo hooks (R387 to R390) -/

/-- Is a write held (R388)? -/
def timeHeld (s : State) : Bool := !radioOff s

/-- HELD and STEP_PEND as the held writes stand. -/
def heldFlags (s : State) : State :=
  let h := s.time.heldInc.isSome || s.time.heldStep.isSome || s.time.heldSlew.isSome
  setFlag (setFlag s R.TIME_STAT.HELD h) R.TIME_STAT.STEP_PEND s.time.heldStep.isSome

/-- An increment takes effect. -/
def incApply (s : State) (v : Nat) : State := onTime (setFld s R.TIME_INC.INC v) (fun t => { t with inc := v })

/-- TIME_INC is written: outside its range it is ignored and reported. -/
def incWrite (s : State) (v : Nat) : State :=
  if v < 0x0411AAAB - 0x10000 ∨ 0x0411AAAB + 0x10000 < v then report s 0x0802 100 [R.TIME_INC.INC.off]
  else if timeHeld s then heldFlags (onTime (setFld s R.TIME_INC.INC v) (fun t => { t with heldInc := some v }))
  else incApply s v

/-- A slew is added to the remaining slew, which saturates (R403). -/
def slewApply (s : State) (d : Int) : State :=
  let lim : Int := (2 ^ 31 - 1) * 2 ^ 24
  let s := onTime s (fun t => { t with slew := max (-lim) (min lim (t.slew + d * 2 ^ 24)) })
  setFlag (setFld s R.TIME_SLEW.val (wrapTo 32 (divHalfEven s.time.slew (2 ^ 24)))) R.TIME_STAT.SLEW_BUSY (s.time.slew ≠ 0)

/-- TIME_SLEW is written. Held writes add up (log entry 21). -/
def slewWrite (s : State) (v : Nat) : State :=
  if timeHeld s then
    heldFlags (onTime (setFld s R.TIME_SLEW.val v) (fun t => { t with
      heldSlew := some (wrapTo 32 (signed 32 (t.heldSlew.getD 0) + signed 32 v)) }))
  else slewApply s (signed 32 v)

/-- Shift a deadline by a step (R390). -/
def shiftNs (d : Int) (t : Nat) : Nat := wrapTo 32 ((t : Int) + d)

/-- Shift the deadlines of a core: its leash, its timed wait, and its timed async waits, with those a claim holds
aside. -/
def Core.shift (k : Core) (d : Int) : Core :=
  let k := if k.sysFlag R.LEASH_CTL.EN then k.setSys R.LEASH_DL.val (shiftNs d (k.sysFld R.LEASH_DL.val)) else k
  let dl (x : Option Nat) := x.map (shiftNs d)
  let run := match k.run with
    | .recv q ea rd t => Run.recv q ea rd (dl t)
    | .wait o c n rd t => Run.wait o c n rd (dl t)
    | r => r
  let as (l : List AsyncWait) := l.map (fun a => { a with deadline := dl a.deadline })
  let leash (t : Tab W32) : Tab W32 :=
    if bitOf (tabGet t R.LEASH_CTL.EN.off 0).toNat R.LEASH_CTL.EN.lo then
      tabSet t R.LEASH_DL.val.off (BitVec.ofNat 32 (shiftNs d (tabGet t R.LEASH_DL.val.off 0).toNat))
    else t
  { k with
    run := run, asyncs := as k.asyncs,
    held := k.held.map (fun h => { h with asyncs := as h.asyncs, sys := leash h.sys }) }

/-- After a backward step KSLOT_PHASE retreats by whole slots until the boundary is no more than one slot ahead (R390). -/
def retreatSlots (s : State) : State :=
  let d := signed 32 (fld s R.KSLOT_PHASE.val + 2 ^ 32 - nowNs s)
  if d ≤ 500000 then s
  else setFld s R.KSLOT_PHASE.val (wrapTo 32 ((fld s R.KSLOT_PHASE.val : Int) - 500000 * ((d - 1) / 500000)))

/-- A step that carries past 2^32 or borrows below 0 (R389). -/
def stepCarry (s : State) (t : Int) : State :=
  if (2 ^ 56 : Int) ≤ t then
    if flag s R.TIME_STAT.WRAP_PENDING then bump s R.TIME_EPOCH.EPOCH else timeWrap s
  else if t < 0 then
    if flag s R.TIME_STAT.WRAP_PENDING then setFlag s R.TIME_STAT.WRAP_PENDING false
    else setFld s R.TIME_EPOCH.EPOCH (fld s R.TIME_EPOCH.EPOCH + 2 ^ 32 - 1)
  else s

/-- A step of D ns at one tick (R387, R389, R390). -/
def stepApply (s : State) (d : Int) : State :=
  let t : Int := (counter s : Int) + d * 2 ^ 24
  let rise := 0 ≤ t && t < 2 ^ 56 && !flag s R.TIME_STAT.HALF && 2 ^ 55 ≤ t
  let s := stepCarry (setCounter s (wrapTo 56 t)) t
  let s := if rise then halfRise s else s
  let s := bump (setFld s R.TIME_STEP.val 0) R.TIME_STAT.STEP_SEQ
  let s : State := { s with cores := s.cores.map (fun p => (p.1, p.2.shift d)) }
  let s := lemcShift s d
  if 0 ≤ d then skipSlots s else retreatSlots s

/-- TIME_STEP is written. -/
def stepWrite (s : State) (v : Nat) : State :=
  if v = 0x80000000 then report s 0x0802 100 [R.TIME_STEP.val.off]
  else if timeHeld s then heldFlags (onTime (setFld s R.TIME_STEP.val v) (fun t => { t with heldStep := some v }))
  else stepApply s (signed 32 v)

/-- The held writes are applied: increment, then step, then slew (R388). -/
def heldApply (s : State) : State :=
  if timeHeld s then s
  else
    let t := s.time
    let s := onTime s (fun t => { t with heldInc := none, heldStep := none, heldSlew := none })
    let s := match t.heldInc with
      | some v => incApply s v
      | none => s
    let s := match t.heldStep with
      | some v => stepApply s (signed 32 v)
      | none => s
    let s := match t.heldSlew with
      | some v => slewApply s (signed 32 v)
      | none => s
    heldFlags s

/-- TIME_EPOCH is written: EPOCH is set and WRAP_PENDING clears (R381). -/
def epochWrite (s : State) (v : Nat) : State :=
  onTime (setFlag (setFld s R.TIME_EPOCH.EPOCH v) R.TIME_STAT.WRAP_PENDING false) (fun t => { t with wrapIrq := false })

/-- REF_TUNE is written; the applied value follows it as ticks pass. -/
def tuneWrite (s : State) (v : Nat) : State := setFld s R.REF_TUNE.val v

/-! ### PPS (R396, R397) -/

/-- PPS_OUT_PERIOD is written: out of range it is ignored and reported (R403). -/
def periodWrite (s : State) (v : Nat) : State :=
  if v < 1000000 ∨ 2 ^ 31 ≤ v then report s 0x0802 100 [R.PPS_OUT_PERIOD.PERIOD.off]
  else setFld s R.PPS_OUT_PERIOD.PERIOD v

/-- The output rises when PPS_OUT_NEXT is reached; PPS_OUT_NEXT advances by whole periods until it lies ahead. -/
def ppsOut (s : State) : State :=
  let next := fld s R.PPS_OUT_NEXT.val
  let per := fld s R.PPS_OUT_PERIOD.PERIOD
  if !flag s R.PPS_OUT_CTL.EN ∨ !due s next then s
  else
    let late := (nowNs s + 2 ^ 32 - next) % 2 ^ 32
    let s := setFld s R.PPS_OUT_NEXT.val (next + per * (late / per + 1))
    let s := emit s .pulse [nowNs s, 1000 * fld s R.PPS_OUT_CTL.WIDTH] []
    onTime s (fun t => { t with pulseEnd := some ((nowNs s + 1000 * fld s R.PPS_OUT_CTL.WIDTH) % 2 ^ 32) })

/-- An edge of PPS_IN; `falling` is its direction and `onStep` says that it fell on the tick of a step. -/
def ppsIn (s : State) (falling onStep : Bool) : State :=
  if !flag s R.PPS_IN_CTL.EN ∨ flag s R.PPS_IN_CTL.FALLING ≠ falling then s
  else if s.time.lastEdge.any (fun t => extTime s < t + 1000000) then s
  else
    let s := setFld (setFld s R.PPS_IN_TS.val (nowNs s)) R.PPS_IN_HI.val (epochEff s)
    let s := setFlag (setFlag (bump s R.PPS_IN_COUNT.val) R.PPS_IN_CTL.LOST false) R.PPS_IN_CTL.STEPPED onStep
    onTime s (fun t => { t with lastEdge := some (extTime s), edgeIrq := true })

/-- No edge for 1.5 periods (R397). Without an earlier edge the time runs from 0. -/
def ppsLost (s : State) : State :=
  let t := s.time.lastEdge.getD 0
  if !flag s R.PPS_IN_CTL.EN ∨ flag s R.PPS_IN_CTL.LOST ∨
      2 * (extTime s - t) < 3000000 * fld s R.PPS_IN_CTL.PERIOD_MS then s
  else report (setFlag s R.PPS_IN_CTL.LOST true) 0x0506 0x7F [fld s R.PPS_IN_COUNT.val]

/-! ### Agreement (R398 to R401) -/

/-- Is this chip the quorum leader? -/
def isLeader (s : State) : Bool :=
  flag s R.ADR_LEADER.LEADER_VALID && fld s R.ADR_LEADER.LEADER = chipId s && fld s R.ADR_CHIP.SELF_STATE = 2

/-- Set or clear TIME_SUSPECT: a change is reported to this Warden and to the leader's (R399). The leader is never
suspect. -/
def setSuspect (s : State) (b : Bool) : State :=
  let b := b && !isLeader s
  if flag s R.TIME_STAT.TIME_SUSPECT = b then s
  else
    let args := [chipId s, num b, fld s R.TCHK_OFFSET.val]
    let s := report (setFlag s R.TIME_STAT.TIME_SUSPECT b) 0x0504 0x7F args
    if flag s R.ADR_LEADER.LEADER_VALID then
      let l := fld s R.ADR_LEADER.LEADER
      sendPkt s l 0x3C 100 (l * 2 ^ 44) ([BitVec.ofNat 8 9, BitVec.ofNat 8 (num b)] ++ bytesLE 4 (fld s R.TCHK_OFFSET.val)) []
    else s

/-- Does this chip check its time with the leader: a member, or admitted and short of COMMIT (R398)? -/
def checksTime (s : State) : Bool := fld s R.ADR_CHIP.SELF_STATE = 2 || s.domain.admitted

/-- A time check leaves for the leader: correction, number, t1. `self` is the name this chip goes by (R429). -/
def checkSend (s : State) : State :=
  if !flag s R.TCHK_CTL.EN ∨ !checksTime s ∨ isLeader s ∨ !flag s R.ADR_LEADER.LEADER_VALID then s
  else
    let n := s.time.nextCheck
    let l := fld s R.ADR_LEADER.LEADER
    let s := onTime s (fun t => { t with
      nextCheck := (n + 1) % 2 ^ 16, sent := t.sent ++ [(n, nowNs s, fld s R.TIME_STAT.STEP_SEQ)] })
    sendPkt s l 0x37 100 (l * 2 ^ 44) (bytesLE 4 0 ++ bytesLE 2 n ++ bytesLE 4 (nowNs s)) []

/-- The leader answers a check in the same way: t2 less the forward correction, and t3 (R398). -/
def checkAnswer (s : State) (chip n corr : Nat) : State :=
  if !isLeader s then s
  else
    let t2 := (nowNs s + 2 ^ 32 - corr % 2 ^ 32) % 2 ^ 32
    sendPkt s chip 0x38 100 (chip * 2 ^ 44)
      (bytesLE 4 0 ++ bytesLE 2 n ++ bytesLE 4 t2 ++ bytesLE 4 (nowNs s) ++ bytesLE 1 (fld s R.TIME_STAT.STEP_SEQ)) []

/-- The answer reaches the requester: θ, the round trip, and the runs of R399. `t2` is less the forward correction, and
`stepped` says that the leader's stamps span a step. A check that spans a step is discarded (R404). -/
def checkDone (s : State) (n t2 t3 corr : Nat) (stepped : Bool) : State :=
  match s.time.sent.find? (fun x => x.1 = n) with
  | none => s
  | some (_, t1, seq) =>
    let s := onTime s (fun t => { t with sent := t.sent.filter (fun x => x.1 ≠ n) })
    if stepped ∨ seq ≠ fld s R.TIME_STAT.STEP_SEQ then s
    else
      let t4 := nowNs s
      let up := signed 32 (t2 + 2 ^ 32 - t1)
      let down := signed 32 (t4 + 2 ^ 32 - t3) - corr
      let theta := divHalfEven (down - up) 2
      let s := setFld (setFld s R.TCHK_OFFSET.val (wrapTo 32 theta)) R.TCHK_RTT.val (wrapTo 32 (up + down))
      let s := setFlag (bump s R.TCHK_COUNT.DONE) R.TIME_STAT.CHECK_LOST false
      let s := onTime s (fun t => { t with
        lastCheck := extTime s, sinceAdmit := t.sinceAdmit + 1,
        badRun := if 1000 < theta.natAbs then t.badRun + 1 else 0,
        goodRun := if theta.natAbs ≤ 500 then t.goodRun + 1 else 0 })
      if 3 ≤ s.time.badRun then setSuspect s true
      else if 16 ≤ s.time.goodRun ∧ 16 ≤ s.time.sinceAdmit then setSuspect s false
      else s

/-- No check has completed for 10 ms (R399). -/
def checkLost (s : State) : State :=
  if !flag s R.TCHK_CTL.EN ∨ !checksTime s ∨ isLeader s ∨ extTime s < s.time.lastCheck + 10000000 then s
  else
    let n := s.time.sent.length
    let s := onTime s (fun t => { t with sent := [], goodRun := 0 })
    let s := setFld s R.TCHK_COUNT.LOST (fld s R.TCHK_COUNT.LOST + n)
    setSuspect (setFlag s R.TIME_STAT.CHECK_LOST true) true

/-! ### Meanings -/

/-- TIME_WRAP (R380): ticks pass until the counter wraps. -/
def execTimeWrap (s : State) : Host.Outcome State Fault Refusal := finish (runToNext s (2 ^ 56))

/-- TIME_EPOCH_LATE (R382): ticks pass until HALF rises; with WRAP_PENDING set the hardware increments EPOCH. -/
def execTimeEpochLate (s : State) : Host.Outcome State Fault Refusal :=
  finish (runTo 4096 ((2 ^ 56 + 2 ^ 55 - counter s - 1) % 2 ^ 56 + 1) s)

/-- TIME_EPOCH (R381): Warden writes TIME_EPOCH. -/
def execTimeEpoch (v : BitVec 32) (s : State) : Host.Outcome State Fault Refusal := finish (epochWrite s v.toNat)

/-- TIME_NS (R383, R384): a 4-byte read of TIME_NS. An agent that may not read it finds it unmapped. -/
def execTimeNs (w : Who) (s : State) : Host.Outcome State Fault Refusal :=
  if timeReader w then finish (emit (latchTime s w) .response [w.agent, nowNs s] [])
  else finish (reportUnmapped s w (ownGa s (0xA0000000000 + R.TIME_NS.NS.off)) 1)

/-- TIME_INC (R387): Warden writes a new increment. -/
def execTimeInc (v : BitVec 32) (s : State) : Host.Outcome State Fault Refusal := finish (incWrite s v.toNat)

/-- TIME_SLEW (R387): Warden adds to the remaining slew. -/
def execTimeSlew (v : BitVec 32) (s : State) : Host.Outcome State Fault Refusal := finish (slewWrite s v.toNat)

/-- TIME_STEP (R389): Warden steps the counter. -/
def execTimeStep (v : BitVec 32) (s : State) : Host.Outcome State Fault Refusal := finish (stepWrite s v.toNat)

/-- REF_TUNE (R387): Warden steers the reference oscillator. -/
def execRefTune (v : BitVec 16) (s : State) : Host.Outcome State Fault Refusal := finish (tuneWrite s v.toNat)

/-- HELD_APPLY (R388): the held time writes are applied. -/
def execHeldApply (s : State) : Host.Outcome State Fault Refusal := finish (heldApply s)

/-- PPS_OUT (R396): `after` ticks later the output rises at PPS_OUT_NEXT. -/
def execPpsOut (after : Nat) (s : State) : Host.Outcome State Fault Refusal := finish (ppsOut (advance s after))

/-- PPS_IN (R397): an edge of PPS_IN. -/
def execPpsIn (falling onStep : Bool) (s : State) : Host.Outcome State Fault Refusal := finish (ppsIn s falling onStep)

/-- PPS_LOST (R397): `after` ticks later no edge has arrived for 1.5 periods. -/
def execPpsLost (after : Nat) (s : State) : Host.Outcome State Fault Refusal := finish (ppsLost (advance s after))

/-- TCHK (R398): the leader receives a time check. -/
def execTchk (chip check corr : Nat) (s : State) : Host.Outcome State Fault Refusal :=
  if chip < 16 then finish (checkAnswer s chip check corr) else .fault .absentUnit

/-- TCHK_RESP (R398): the requester receives the answer of a check. -/
def execTchkResp (check t2 t3 corr : Nat) (stepped : Bool) (s : State) : Host.Outcome State Fault Refusal :=
  finish (checkDone s check t2 t3 corr stepped)

/-- CHECK_LOST (R399): `after` ticks later no check has completed for 10 ms. -/
def execCheckLost (after : Nat) (s : State) : Host.Outcome State Fault Refusal := finish (checkLost (advance s after))

end Sys2Proof.Machine
end

