-- ==== Sys2Proof/Machine/Link.lean ====
section
/-!
DEFINITION. Adruoth links and routing (R407 to R425): port states and training, flits, retry, credits, packets on ports, and
end-to-end order.
-/
namespace Sys2Proof.Machine

/-- A port as reset leaves it. -/
def Port.reset : Port := ⟨0, 0, [], [], 0, false, 0, [24, 40, 12, 56, 8, 8, 4, 8], [], [], 0, 0, 0, false⟩

/-- Port `p`. -/
def port (s : State) (p : Nat) : Port := tabGet s.ports p Port.reset

/-- Change port `p`. -/
def onPort (s : State) (p : Nat) (f : Port → Port) : State := { s with ports := tabSet s.ports p (f (port s p)) }

/-- Change the domain. -/
def onDomain (s : State) (f : Domain → Domain) : State := { s with domain := f s.domain }

/-- The state of a port (Table 13-1). -/
def portState (s : State) (p : Nat) : Nat := fld s (R.ADR_PSTAT.STATE p)

/-- Enter a port state; routes are to be installed again (R422). -/
def setPortState (s : State) (p st : Nat) : State :=
  let s := setFld s (R.ADR_PSTAT.STATE p) st
  onDomain (onPort s p (fun x => { x with since := extTime s })) (fun d => { d with routesDue := true })

/-! ### Flits (R411 to R414) -/

/-- Bits [239:0] of a flit: payload, ACK_SEQ, virtual channel and kind. CR is 0 here: credits return in CREDIT flits
(log entry 27). -/
def flitBody (payload ack vc fk : Nat) : Nat := payload % 2 ^ 224 + 2 ^ 224 * (ack % 256) + 2 ^ 236 * vc + 2 ^ 238 * fk

/-- The flit's CRC-16, over FSEQ and bits [239:0], most significant bit first (R413). -/
def flitCrc (fseq body : Nat) : Nat :=
  crcBits 16 0x8BB7 0xFFFF ((List.range 248).map (fun i => bitOf (2 ^ 240 * (fseq % 256) + body % 2 ^ 240) (247 - i)))

/-- ACK_SEQ: the FSEQ of the last sequenced flit received good. -/
def ackSeq (s : State) (p : Nat) : Nat := ((port s p).rxNext + 255) % 256

/-- A flit leaves a port, with the ACK_SEQ of this moment. -/
def flitOut (s : State) (p fseq body : Nat) : State :=
  let body := putBits body 231 224 (ackSeq s p)
  emit s .flit [p, body + 2 ^ 240 * flitCrc fseq body] []

/-- An unsequenced flit (R412, R414). -/
def sendUnseq (s : State) (p payload fk : Nat) : State := flitOut s p 0 (flitBody payload 0 0 fk)

/-- Move waiting flits into the replay buffer while it holds fewer than 64 (R415). -/
def pump : Nat → State → Nat → State
  | 0, s, _ => s
  | fuel + 1, s, p =>
    let x := port s p
    match x.txq with
    | [] => s
    | b :: t =>
      if 64 ≤ x.replay.length ∨ portState s p ≠ 2 ∧ portState s p ≠ 4 then s
      else
        let s := onPort s p (fun x => { x with
          txq := t, replay := x.replay ++ [(x.txNext, b)], txNext := (x.txNext + 1) % 256 })
        pump fuel (flitOut s p x.txNext b) p

/-- Send a sequenced flit. -/
def sendSeq (s : State) (p body : Nat) : State :=
  let s := onPort s p (fun x => { x with txq := x.txq ++ [body], total := x.total + 1 })
  pump (port s p).txq.length s p

/-- ACK_SEQ frees every flit up to and including the one it names (R415). -/
def ackFlits (s : State) (p ack : Nat) : State :=
  let x := port s p
  match x.replay with
  | [] => s
  | (f, _) :: _ =>
    let n := (ack + 256 - f) % 256 + 1
    if x.replay.length < n then s
    else
      let s := onPort s p (fun x => { x with
        replay := x.replay.drop n, resends := 0, freed := x.freed + n,
        sent := x.sent.filter (fun q => x.freed + n < q.1) })
      pump (port s p).txq.length s p

/-- Resend every unacknowledged flit in order. -/
def resendAll (s : State) (p : Nat) : State := (port s p).replay.foldl (fun s f => flitOut s p f.1 f.2) s

/-! ### Port states (R408, R409, R416, R417, R422) -/

/-- A port leaves UP: the hardware removes it from every route (R422). -/
def maskRoutes (s : State) (p : Nat) : State :=
  (List.range 16).foldl (fun s d =>
    let s := setFld s (R.ADR_ROUTE.MIN_PORTS d) (fld s (R.ADR_ROUTE.MIN_PORTS d) - (if bitOf (fld s (R.ADR_ROUTE.MIN_PORTS d)) p then 2 ^ p else 0))
    if fld s (R.ADR_ROUTE.ESC_PORT d) = p then setFlag s (R.ADR_ROUTE.ESC_VALID d) false else s) s

/-- Training starts: no lane is locked yet. A port that a test holds stays DOWN (R561). -/
def portTrain (s : State) (p : Nat) : State :=
  if linkHeld s 4 p then s else
  onPort (setPortState s p 1) p (fun x => { x with lanes := 0, part := [] })

/-- A port without a link, or with a new one: each packet with an unacknowledged flit is routed again from this chip,
whole (R417), and FSEQ and credits start anew. -/
def freshPort (s : State) (p : Nat) : State :=
  let x := port s p
  let s := onPort s p (fun x => { Port.reset with lanes := x.lanes, since := x.since })
  { s with fabric := { s.fabric with waiting := s.fabric.waiting ++ x.sent.map (fun q => { q.2 with port := none }) } }

/-- The port goes DOWN (R417, R422). -/
def portDown (s : State) (p : Nat) : State :=
  let s := maskRoutes (setPortState (bump s (R.ADR_RETRAIN.DOWNS p)) p 0) p
  freshPort (onPort s p (fun x => { x with lanes := 0 })) p

/-- The port enters RETRAIN; its replay buffer and FSEQ are kept (R416). -/
def portRetrain (s : State) (p : Nat) : State :=
  let s := maskRoutes (setPortState (bump s (R.ADR_RETRAIN.RETRAINS p)) p 3) p
  onPort s p (fun x => { x with lanes := 0, resends := 0 })

/-- The widest width code whose lanes all locked, from WIDTH_MAX on: 0 x4, 1 x2, 2 x1 (R409). -/
def widthOf (lanes max : Nat) : Option Nat :=
  [(0, 15), (1, 3), (2, 1)].findSome? (fun w => if max ≤ w.1 ∧ (Nat.land lanes w.2) = w.2 then some w.1 else none)

/-- The HELLO payload of a port (Table 13-3). -/
def helloPayload (s : State) (p : Nat) : Nat :=
  3 + 2 ^ 8 * (s.domain.die % 2 ^ 64) + 2 ^ 72 * selfName s + 2 ^ 76 * p + 2 ^ 80 * fld s R.ADR_PROTO.OWN +
    2 ^ 96 * 0xF + 2 ^ 128 * (reg s R.ADR_DIGEST.val.off + 2 ^ 32 * reg s R.ADR_DIGEST.val_HI.off +
      2 ^ 64 * reg s R.ADR_DIGEST.val_W2.off)

/-- Lanes have locked, or their time is over: the port takes its width and sends HELLO, or starts training again. -/
def trainDone (s : State) (p : Nat) : State :=
  match widthOf (port s p).lanes (fld s (R.ADR_PCTL.WIDTH_MAX p)) with
  | some w => sendUnseq (setFld s (R.ADR_PSTAT.WIDTH p) w) p (helloPayload s p) 3
  | none => onPort s p (fun x => { x with lanes := 0 })

/-- A lane finds block lock during training. With all four the port trains at once. -/
def blockLock (s : State) (p lane : Nat) : State :=
  if portState s p ≠ 1 ∧ portState s p ≠ 3 then s
  else
    let s := onPort s p (fun x => { x with lanes := putBits x.lanes lane lane 1 })
    if (port s p).lanes = 15 then trainDone s p else s

/-- The block's entry for this chip's port: peer chip, peer port, CONNECTED (Table 13-7). -/
def blockPort (b : List Byte) (c p : Nat) : Nat × Nat × Bool :=
  let x := fieldLE b (0x18 + 16 * c + p) 1
  (bitsOf x 3 0, bitsOf x 6 4, bitOf x 7)

/-- A chip's DIE_ID in the block. -/
def blockDie (b : List Byte) (c : Nat) : Nat := fieldLE b (0x10 + 16 * c) 8

/-- HELLO arrives: the peer is compared with the block, and the port goes UP or to QUARANTINE (R429). A port that retrained
resends its replay buffer; a new link starts from FSEQ 0, with the packets of an old one routed again (R412, R417). -/
def helloArrives (s : State) (p die chip pport : Nat) : State :=
  let st := portState s p
  if st ≠ 1 ∧ st ≠ 3 ∧ st ≠ 4 then s
  else
    let s := setFld (setFld s (R.ADR_PSTAT.PEER_CHIP p) chip) (R.ADR_PSTAT.PEER_PORT p) pport
    let s := setFlag s (R.ADR_PSTAT.PEER_VALID p) true
    let good := s.domain.block.any (fun b =>
      blockPort b s.domain.own p = (chip, pport, true) && blockDie b chip = die)
    if !good then report (setPortState s p 4) 0x0503 100 [chip, 1]
    else if st = 3 then
      let s := report (setPortState s p 2) 0x0501 100 [p, fld s (R.ADR_PSTAT.WIDTH p)]
      pump (port s p).txq.length (resendAll s p) p
    else
      freshPort (setPortState s p 2) p

/-- A resend without an advance of ACK_SEQ; after eight in a row, RETRAIN is sent in place of the next (R415, R416). -/
def resend (s : State) (p : Nat) : State :=
  if (port s p).replay = [] then s
  else if 8 ≤ (port s p).resends then portRetrain (sendUnseq s p 4 3) p
  else resendAll (onPort (bump s (R.ADR_REPLAY.val p)) p (fun x => { x with resends := x.resends + 1 })) p

/-- A NAK: the flits up to the one it names are good; the rest are sent again. -/
def nakArrives (s : State) (p last : Nat) : State :=
  if portState s p = 2 ∨ portState s p = 4 then resend (ackFlits s p last) p else s

/-- ADR_PCTL has changed (R436): EN starts training, clearing it takes the port down. -/
def pctlChanged (s : State) (p : Nat) (oldEn : Bool) : State :=
  let en := flag s (R.ADR_PCTL.EN p)
  if en = oldEn then s
  else if en then portTrain s p
  else if portState s p = 0 then s else portDown s p

/-! ### Packets as flits (R418, R421) -/

/-- DATA flits of a packet. -/
def Packet.dflits (k : Packet) : Nat := ceilDiv k.data.length 28

/-- Flits of a packet. -/
def Packet.flits (k : Packet) : Nat := 1 + k.dflits

/-- The HEAD payload (Table 13-5). -/
def Packet.head (k : Packet) : Nat :=
  k.dst + 2 ^ 4 * k.src + 2 ^ 8 * k.seq + 2 ^ 18 * k.ptype + 2 ^ 24 * k.agent + 2 ^ 31 * num k.esc +
    2 ^ 32 * (k.ga % 2 ^ 48) + 2 ^ 80 * k.dflits + 2 ^ 96 * numLE (sliceBytes k.inl 0 16)

/-- The packet that a HEAD payload and DATA payloads spell. -/
def packetOf (head : Nat) (datas : List Nat) (p now : Nat) : Packet :=
  ⟨bitsOf head 3 0, bitsOf head 7 4, bitsOf head 17 8, bitsOf head 23 18, bitsOf head 30 24, bitOf head 31, bitsOf head 79 32,
    bytesLE 16 (head / 2 ^ 96), datas.flatMap (bytesLE 28), some p, now⟩

/-- The PTYPE codes of Table 13-6. -/
def ptypeOk (t : Nat) : Bool :=
  (1 ≤ t && t ≤ 8) || (0x10 ≤ t && t ≤ 0x12) || (0x20 ≤ t && t ≤ 0x2B) || (0x30 ≤ t && t ≤ 0x3A) || t = 0x3C

/-- Credits of a kind and virtual channel a port holds. -/
def creditsOf (s : State) (p vc : Nat) (esc : Bool) : Nat := (port s p).credits.getD (vc + 4 * num esc) 0

/-- Add to or take from a credit count. -/
def addCredit (l : List Nat) (i : Nat) (f : Nat → Nat) : List Nat :=
  (List.zip (List.range l.length) l).map (fun x => if x.1 = i then f x.2 else x.2)

/-- Return the credits of a packet that leaves the receive buffers of its port, in one CREDIT flit (R418, log entry 27). -/
def returnCredits (s : State) (k : Packet) : State :=
  match k.port with
  | none => s
  | some p =>
    if portState s p ≠ 2 ∧ portState s p ≠ 4 then s
    else
      let i := ptypeVc k.ptype + 4 * num k.esc
      sendSeq s p (flitBody (2 + 2 ^ 8 * (k.flits * 2 ^ (8 * i))) 0 0 3)

/-- Reply kinds of the message channel (R419), which the last 4 escape flits are kept for. -/
def replyKind (t : Nat) : Bool := t = 0x33 || t = 0x3A || t = 0x38 || t = 0x36

/-- Has this packet of this chip left before, without an acknowledgement: one that is routed again (R417, R424)? -/
def isUnacked (s : State) (k : Packet) : Bool :=
  s.fabric.unacked.any (fun q => q.dst = k.dst && ptypeVc q.ptype = ptypeVc k.ptype && q.seq = k.seq)

/-- Send a packet on a port with one kind of credit. -/
def portSend (s : State) (k : Packet) (p : Nat) (esc : Bool) : State :=
  let k' := { k with esc := k.esc || esc }
  let vc := ptypeVc k.ptype
  let s := returnCredits s k
  let s := onPort s p (fun x => { x with credits := addCredit x.credits (vc + 4 * num esc) (fun c => c - k.flits) })
  let bodies := flitBody k'.head 0 vc 1 ::
    (List.range k.dflits).map (fun i => flitBody (numLE (sliceBytes k.data (28 * i) 28)) 0 vc 2)
  let s := bodies.foldl (fun s b => sendSeq s p b) s
  let s := onPort s p (fun x => { x with
    sent := x.sent ++ [(x.total, k')]
    lastMsg := if vc = 3 then true else if vc = 0 then false else x.lastMsg })
  if k.src = selfName s ∧ k.port.isNone ∧ k.ptype ≠ 0x2B ∧ !isUnacked s k then
    { s with fabric := { s.fabric with unacked := s.fabric.unacked ++ [k'] } }
  else s

/-! ### Routing (R422, R423) -/

/-- The port a packet takes, and whether by escape credits (R423). -/
def routePort (s : State) (k : Packet) : Option (Nat × Bool) :=
  let vc := ptypeVc k.ptype
  let n := k.flits
  let up (p : Nat) : Bool := portState s p = 2 || (portState s p = 4 && (k.ptype = 0x3C || k.ptype = 0x35 || k.ptype = 0x36))
  let mins := (List.range 8).filter (fun p => bitOf (fld s (R.ADR_ROUTE.MIN_PORTS k.dst)) p && up p && n ≤ creditsOf s p vc false)
  let best := mins.foldl (fun b p =>
    match b with
    | none => some p
    | some q => if creditsOf s q vc false < creditsOf s p vc false then some p else some q) none
  let ep := fld s (R.ADR_ROUTE.ESC_PORT k.dst)
  let need := if vc = 3 ∧ !replyKind k.ptype then n + 4 else n
  let esc := if flag s (R.ADR_ROUTE.ESC_VALID k.dst) ∧ up ep ∧ need ≤ creditsOf s ep vc true then some (ep, true) else none
  if k.esc then esc
  else
    match best with
    | some p => some (p, false)
    | none => esc

/-- Has the chip any route to a destination? -/
def hasRoute (s : State) (d : Nat) : Bool := fld s (R.ADR_ROUTE.MIN_PORTS d) ≠ 0 || flag s (R.ADR_ROUTE.ESC_VALID d)

/-- A packet that passes through adds its residence to a time check's correction (R398). -/
def addResidence (s : State) (k : Packet) : Packet :=
  if k.port.isSome ∧ (k.ptype = 0x37 ∨ k.ptype = 0x38) then
    { k with inl := putBytes k.inl 0 (bytesLE 4 (fieldLE k.inl 0 4 + (nowNs s + 2 ^ 32 - k.at_) % 2 ^ 32)) }
  else k

/-- Packets of a destination and channel that it has not acknowledged. -/
def unackedOf (s : State) (d vc : Nat) : Nat :=
  (s.fabric.unacked.filter (fun k => k.dst = d && ptypeVc k.ptype = vc)).length

/-- May an own packet start, with at most 256 unacknowledged (R424)? -/
def windowOpen (s : State) (k : Packet) : Bool :=
  k.port.isSome || k.ptype = 0x2B || isUnacked s k || unackedOf s k.dst (ptypeVc k.ptype) < 256

/-- Has a packet waited 256 flit times, of 2.0625 ns each at width x4 (R407, R420)? -/
def waitedLong (s : State) (p : Nat) (k : Packet) : Bool :=
  528 * 2 ^ fld s (R.ADR_PSTAT.WIDTH p) ≤ (nowNs s + 2 ^ 32 - k.at_) % 2 ^ 32

/-- The class of a packet at a port's output: response, one that has waited long, snoop, then message and request (R420). -/
def outputClass (s : State) (p : Nat) (k : Packet) : Nat :=
  if ptypeVc k.ptype = 1 then 0 else if waitedLong s p k then 1 else if ptypeVc k.ptype = 2 then 2 else 3

/-- Goes packet `q` before `k` at the output of port `p`? Message and request take turns (R420). -/
def goesBefore (s : State) (p : Nat) (q k : Packet) : Bool :=
  outputClass s p q < outputClass s p k ||
    (outputClass s p q = 3 && outputClass s p k = 3 && ptypeVc q.ptype ≠ ptypeVc k.ptype &&
      decide ((port s p).lastMsg = decide (ptypeVc k.ptype = 3)))

/-- Is another packet ready for the port that goes before this one (R420)? -/
def outputBusy (s : State) (p : Nat) (k : Packet) : Bool :=
  s.fabric.waiting.any (fun q =>
    q.dst ≠ selfName s && windowOpen s q && (routePort s q).any (fun r => r.1 = p) && goesBefore s p q k)

/-- Remove the first packet equal to `k`. -/
def dropPacket : List Packet → Packet → List Packet
  | [], _ => []
  | x :: t, k => if x = k then t else x :: dropPacket t k

/-! ### End-to-end order (R424) -/

/-- The cumulative acknowledgement of a source and channel. -/
def sendE2eAck (s : State) (src vc : Nat) : State :=
  let key := 4 * src + vc
  let s : State := { s with fabric := { s.fabric with sinceAck := tabErase s.fabric.sinceAck key } }
  sendPkt s src 0x2B 100 (src * 2 ^ 44) (bytesLE 1 vc ++ bytesLE 2 ((tabGet s.fabric.expect key 0 + 1023) % 1024)) []

/-- Packets now in order: the arriving one where it is expected, with the early ones that follow it. -/
def inOrder : Nat → Nat → Nat → Fabric → Fabric × List Packet
  | 0, _, _, f => (f, [])
  | fuel + 1, src, vc, f =>
    let key := 4 * src + vc
    let e := tabGet f.expect key 0
    match f.early.find? (fun k => k.src = src ∧ ptypeVc k.ptype = vc ∧ k.seq = e) with
    | none => (f, [])
    | some k =>
      let f := { f with
        early := dropPacket f.early k, expect := tabSet f.expect key ((e + 1) % 1024),
        sinceAck := tabSet f.sinceAck key (tabGet f.sinceAck key 0 + 1) }
      let (f, l) := inOrder fuel src vc f
      (f, k :: l)

/-- A packet for this chip arrives: the packets it lets be delivered, in order; a copy already delivered is discarded. -/
def e2eArrive (s : State) (k : Packet) : State × List Packet :=
  let s := returnCredits s k
  if k.ptype = 0x2B then (s, [k])
  else
    let vc := ptypeVc k.ptype
    let key := 4 * k.src + vc
    let e := tabGet s.fabric.expect key 0
    if 512 ≤ (k.seq + 1024 - e) % 1024 then (s, [])
    else
      let f := { s.fabric with early := s.fabric.early ++ [k] }
      let (f, l) := inOrder f.early.length k.src vc f
      let s : State := { s with fabric := f }
      (if 32 ≤ tabGet f.sinceAck key 0 then sendE2eAck s k.src vc else s, l)

/-- An acknowledgement frees packets up to and including the E2E_SEQ it names (R424). -/
def e2eAcked (s : State) (chip vc seq : Nat) : State :=
  let keep (k : Packet) : Bool := !(k.dst = chip && ptypeVc k.ptype = vc && (seq + 1024 - k.seq) % 1024 < 512)
  { s with fabric := { s.fabric with unacked := s.fabric.unacked.filter keep } }

/-! ### Receiving flits (R412 to R415) -/

/-- A whole packet has arrived on a port; a reserved PTYPE is dropped and counted (R421). In QUARANTINE only domain control
and mailbox traffic passes (R408). -/
def packetIn (s : State) (k : Packet) (p : Nat) : State :=
  if !ptypeOk k.ptype then returnCredits (bump s R.ADR_BAD_PKT.BAD) k
  else if portState s p = 4 ∧ k.ptype ≠ 0x3C ∧ k.ptype ≠ 0x35 ∧ k.ptype ≠ 0x36 then returnCredits s k
  else { s with fabric := { s.fabric with waiting := s.fabric.waiting ++ [k] } }

/-- A payload of a packet arrives: HEAD first, then its DATA; DATA of no packet is discarded. -/
def payloadIn (s : State) (p payload : Nat) (isHead : Bool) : State :=
  let old := (port s p).part
  let part := if isHead then [payload] else if old = [] then [] else old ++ [payload]
  match part with
  | [] => s
  | h :: datas =>
    if bitsOf h 82 80 ≤ datas.length then
      packetIn (onPort s p (fun x => { x with part := [] })) (packetOf h datas p (nowNs s)) p
    else onPort s p (fun x => { x with part := part })

/-- Credits of a CREDIT flit, or of CR in any flit. -/
def creditsIn (s : State) (p : Nat) (counts : List Nat) : State :=
  onPort s p (fun x => { x with credits := (List.zip x.credits counts).map (fun c => c.1 + c.2) })

/-- The content of a CTRL flit (Table 13-3). Reserved types are discarded. -/
def ctrlIn (s : State) (p payload : Nat) : State :=
  match bitsOf payload 7 0 with
  | 1 => nakArrives s p (bitsOf payload 15 8)
  | 2 => creditsIn s p ((List.range 8).map (fun i => bitsOf payload (8 * i + 15) (8 * i + 8)))
  | 3 => helloArrives s p (bitsOf payload 71 8) (bitsOf payload 75 72) (bitsOf payload 78 76)
  | 4 => if portState s p = 2 ∨ portState s p = 4 then portRetrain s p else s
  | _ => s

/-- Is a flit sequenced: HEAD, DATA, or a CREDIT (R412, Table 13-3)? -/
def isSeq (flit : Nat) : Bool :=
  let fk := bitsOf flit 239 238
  fk = 1 || fk = 2 || (fk = 3 && bitsOf flit 7 0 = 2)

/-- A flit arrives on a port (R413, R415): one whose CRC fails is discarded whole and, where it was sequenced, answered by
a NAK unless one is outstanding. -/
def flitIn (s : State) (p flit : Nat) : State :=
  let body := flit % 2 ^ 240
  let seq := isSeq flit
  let st := portState s p
  if st = 0 ∨ (seq ∧ st ≠ 2 ∧ st ≠ 4) then s
  else if flitCrc (if seq then (port s p).rxNext else 0) body ≠ bitsOf flit 255 240 then
    let nak := seq && !(port s p).nakked
    let s := if seq ∧ (port s p).nakked then s else bump s (R.ADR_CRC_ERR.val p)
    if nak then onPort (sendUnseq s p (1 + 2 ^ 8 * ackSeq s p) 3) p (fun x => { x with nakked := true }) else s
  else
    let s := ackFlits s p (bitsOf flit 231 224)
    let s := if bitOf flit 234 then
        creditsIn s p ((List.range 8).map (fun i => num (i = bitsOf flit 233 232 + 4 * bitsOf flit 235 235)))
      else s
    let s := if seq then onPort s p (fun x => { x with rxNext := (x.rxNext + 1) % 256, nakked := false }) else s
    let payload := bitsOf flit 223 0
    let s := match bitsOf flit 239 238 with
      | 1 => payloadIn s p payload true
      | 2 => payloadIn s p payload false
      | 3 => ctrlIn s p payload
      | _ => s
    if seq then sendUnseq s p 0 0 else s

/-! ### Meanings -/

/-- A port row. -/
def portRow (p : Nat) (f : State → State) (s : State) : Host.Outcome State Fault Refusal :=
  if p < 8 then finish (f s) else .fault .absentUnit

/-- BLOCK_LOCK (R409): a lane finds block lock during training. -/
def execBlockLock (p lane : Nat) (s : State) : Host.Outcome State Fault Refusal :=
  if lane < 4 then portRow p (fun s => blockLock s p lane) s else .fault .absentUnit

/-- TRAINING_TIMEOUT (R409): 10 ms have passed; lanes that have not locked are excluded. -/
def execTrainingTimeout (p : Nat) (s : State) : Host.Outcome State Fault Refusal :=
  portRow p (fun s => if portState s p = 1 ∨ portState s p = 3 then trainDone s p else s) s

/-- IDLE (R412): an IDLE flit arrives with its ACK_SEQ. -/
def execIdle (p ack : Nat) (s : State) : Host.Outcome State Fault Refusal := portRow p (fun s => ackFlits s p ack) s

/-- SEQUENCED_FLIT (R415): a flit of 256 bits arrives. -/
def execSequencedFlit (p : Nat) (flit : BitVec 256) (s : State) : Host.Outcome State Fault Refusal :=
  portRow p (fun s => flitIn s p flit.toNat) s

/-- NAK (R415): a NAK arrives with the last good FSEQ. -/
def execNak (p last : Nat) (s : State) : Host.Outcome State Fault Refusal := portRow p (fun s => nakArrives s p last) s

/-- CREDIT (R418): a CREDIT flit arrives good and in order, with eight counts, adaptive then escape. -/
def execCredit (p : Nat) (counts : List Nat) (s : State) : Host.Outcome State Fault Refusal :=
  portRow p (fun s =>
    if portState s p = 2 ∨ portState s p = 4 then
      sendUnseq (creditsIn (onPort s p (fun x => { x with rxNext := (x.rxNext + 1) % 256, nakked := false })) p counts) p 0 0
    else s) s

/-- HELLO (R429): a HELLO flit arrives. -/
def execHello (p die chip peerPort : Nat) (s : State) : Host.Outcome State Fault Refusal :=
  portRow p (fun s => helloArrives s p die chip peerPort) s

/-- RETRAIN (R416): the peer asks for retraining. -/
def execRetrain (p : Nat) (s : State) : Host.Outcome State Fault Refusal :=
  portRow p (fun s => if portState s p = 2 ∨ portState s p = 4 then portRetrain s p else s) s

/-- REPLAY_TIMEOUT (R415): ACK_SEQ has not advanced for 1 µs while flits are unacknowledged. -/
def execReplayTimeout (p : Nat) (s : State) : Host.Outcome State Fault Refusal :=
  portRow p (fun s => if portState s p = 2 ∨ portState s p = 4 then resend s p else s) s

/-- RETRAIN_TIMEOUT (R416): `after` ticks later the port has been 1 ms in RETRAIN. -/
def execRetrainTimeout (after p : Nat) (s : State) : Host.Outcome State Fault Refusal :=
  portRow p (fun s =>
    let s := advance s after
    if portState s p = 3 ∧ (port s p).since + 1000000 ≤ extTime s then portDown s p else s) s

/-- DOWN_RETRY (R416): a DOWN port that is enabled starts training again. -/
def execDownRetry (p : Nat) (s : State) : Host.Outcome State Fault Refusal :=
  portRow p (fun s => if portState s p = 0 ∧ flag s (R.ADR_PCTL.EN p) then portTrain s p else s) s

/-- E2E_ACK (R424): the sender frees packets up to the acknowledged E2E_SEQ. -/
def execE2eAck (chip vc seq : Nat) (s : State) : Host.Outcome State Fault Refusal := finish (e2eAcked s chip vc seq)

/-- E2E_ACK_TIMEOUT (R424): 1 µs after the oldest unacknowledged delivery the destination acknowledges. -/
def execE2eAckTimeout (chip vc : Nat) (s : State) : Host.Outcome State Fault Refusal :=
  if chip < 16 ∧ vc < 4 then
    finish (if tabGet s.fabric.sinceAck (4 * chip + vc) 0 = 0 then s else sendE2eAck s chip vc)
  else .fault .absentUnit

end Sys2Proof.Machine
end

