-- ==== Sys2Proof/Machine/Float.lean ====
section
/-!
DEFINITION. The number formats of Table 4-2 (R106), rounding to nearest even (R107), exact float arithmetic (R107,
R114, R139), and the conversions of R121.
-/
namespace Sys2Proof.Machine

/-- A floating-point format: exponent and fraction bits, bias, and whether it has infinities (R106). -/
structure FFmt where
  ebits : Nat
  mbits : Nat
  bias : Nat
  hasInf : Bool
deriving DecidableEq, Repr

/-- FP32, BF16, FP16, FP8 E4M3 and FP8 E5M2. -/
def fp32 : FFmt := ⟨8, 23, 127, true⟩
def bf16 : FFmt := ⟨8, 7, 127, true⟩
def fp16 : FFmt := ⟨5, 10, 15, true⟩
def e4m3 : FFmt := ⟨4, 3, 7, false⟩
def e5m2 : FFmt := ⟨5, 2, 15, true⟩

/-- The width of a format in bits. -/
def FFmt.width (f : FFmt) : Nat := 1 + f.ebits + f.mbits

/-- The weight of the sign bit. -/
def FFmt.signBit (f : FFmt) : Nat := 2 ^ (f.ebits + f.mbits)

/-- The canonical quiet NaN (R107). -/
def FFmt.nan (f : FFmt) : Nat :=
  if f.hasInf then (2 ^ f.ebits - 1) * 2 ^ f.mbits + 2 ^ (f.mbits - 1) else f.signBit - 1

/-- The code of positive infinity. -/
def FFmt.inf (f : FFmt) : Nat := (2 ^ f.ebits - 1) * 2 ^ f.mbits

/-- The code of the largest finite value (R106). -/
def FFmt.largest (f : FFmt) : Nat := if f.hasInf then f.inf - 1 else f.signBit - 2

/-- A value: NaN, an infinity, or ± m × 2^e exactly. -/
inductive FVal where
  | nan
  | inf (neg : Bool)
  | fin (neg : Bool) (m : Nat) (e : Int)
deriving DecidableEq, Repr

/-- The value of a code (R106). -/
def fdecode (f : FFmt) (x : Nat) : FVal :=
  let neg := bitOf x (f.ebits + f.mbits)
  let a := x % f.signBit
  let ex := a / 2 ^ f.mbits
  let fr := a % 2 ^ f.mbits
  if f.largest < a then (if f.hasInf ∧ fr = 0 then .inf neg else .nan)
  else if ex = 0 then .fin neg fr (1 - (f.bias : Int) - f.mbits)
  else .fin neg (2 ^ f.mbits + fr) ((ex : Int) - f.bias - f.mbits)

/-- What an operation raises (R108). -/
structure Flags where
  sat : Bool
  invalid : Bool
  overflow : Bool
  underflow : Bool
deriving DecidableEq, Repr

/-- No flag. -/
def Flags.zero : Flags := ⟨false, false, false, false⟩

/-- Flags of two operations together. -/
def Flags.join (a b : Flags) : Flags :=
  ⟨a.sat || b.sat, a.invalid || b.invalid, a.overflow || b.overflow, a.underflow || b.underflow⟩

/-- Round ± m × 2^e to a format, to nearest, ties to even (R107): the magnitude code, whether it overflows the finite
range, and whether R108 counts it as an underflow. -/
def froundMag (f : FFmt) (m : Nat) (e : Int) : Nat × Bool × Bool :=
  if m = 0 then (0, false, false)
  else
    let top : Int := e + Nat.log2 m
    let emin : Int := 1 - (f.bias : Int)
    let q : Int := max top emin - f.mbits
    let n : Nat := if q ≤ e then m * 2 ^ (e - q).toNat else (divHalfEven m (2 ^ (q - e).toNat)).toNat
    let exact : Bool := if q ≤ e then true else n * 2 ^ (q - e).toNat = m
    let code : Nat := if n < 2 ^ f.mbits then n else (q + f.mbits + f.bias).toNat * 2 ^ f.mbits + (n - 2 ^ f.mbits)
    (code, f.largest < code, top < emin && !exact && code ≠ 0)

/-- Put a sign on a magnitude code. -/
def fsigned (f : FFmt) (neg : Bool) (mag : Nat) : Nat := if neg then f.signBit + mag else mag

/-- The code of a result in a format, with its flags: overflow gives infinity, or NaN where the format has none
(R108, R121 with SAT at 0). -/
def fround (f : FFmt) (v : FVal) : Nat × Flags :=
  match v with
  | .nan => (f.nan, Flags.zero)
  | .inf neg => (if f.hasInf then fsigned f neg f.inf else f.nan, Flags.zero)
  | .fin neg m e =>
    let (mag, ovf, unf) := froundMag f m e
    if ovf then (if f.hasInf then fsigned f neg f.inf else f.nan, { Flags.zero with overflow := true })
    else (fsigned f neg mag, { Flags.zero with underflow := unf })

/-- The exact product; an infinity times zero is NaN. -/
def fmulExact (a b : FVal) : FVal :=
  match a, b with
  | .nan, _ => .nan
  | _, .nan => .nan
  | .inf s, .inf t => .inf (s != t)
  | .inf s, .fin t m _ => if m = 0 then .nan else .inf (s != t)
  | .fin s m _, .inf t => if m = 0 then .nan else .inf (s != t)
  | .fin s m e, .fin t n d => .fin (s != t) (m * n) (e + d)

/-- The exact sum of two values. Opposite infinities give NaN; a zero sum is −0 only when both are −0. -/
def faddExact (a b : FVal) : FVal :=
  match a, b with
  | .nan, _ => .nan
  | _, .nan => .nan
  | .inf s, .inf t => if s = t then .inf s else .nan
  | .inf s, .fin _ _ _ => .inf s
  | .fin _ _ _, .inf t => .inf t
  | .fin s m e, .fin t n d =>
    let lo := min e d
    let x : Int := (m * 2 ^ (e - lo).toNat : Nat)
    let y : Int := (n * 2 ^ (d - lo).toNat : Nat)
    let z := (if s then -x else x) + (if t then -y else y)
    if z = 0 then .fin (s && t && m = 0 && n = 0) 0 0 else .fin (z < 0) z.natAbs lo

/-- The exact sum of a list of values. -/
def fsumExact (l : List FVal) : FVal :=
  match l with
  | [] => .fin false 0 0
  | x :: t => t.foldl faddExact x

/-- INVALID: a NaN from operands of which none is NaN (R108). -/
def invalidOf (r : FVal) (ops : List FVal) : Flags :=
  { Flags.zero with invalid := r = .nan && ops.all (· ≠ .nan) }

/-- A result from exact arithmetic on operands, rounded once into a format. -/
def fresult (f : FFmt) (r : FVal) (ops : List FVal) : Nat × Flags :=
  let (c, fl) := fround f r
  (c, fl.join (invalidOf r ops))

/-- Numeric order of two values that are not NaN: less than. −0 and +0 are equal. -/
def fless (a b : FVal) : Bool :=
  match a, b with
  | .inf true, .inf true => false
  | .inf true, _ => true
  | .inf false, _ => false
  | .fin _ _ _, .inf t => !t
  | .fin s m e, .fin t n d =>
    let lo := min e d
    let x : Int := (m * 2 ^ (e - lo).toNat : Nat)
    let y : Int := (n * 2 ^ (d - lo).toNat : Nat)
    (if s then -x else x) < (if t then -y else y)
  | _, _ => false

/-- Is a value negative (its sign bit)? -/
def FVal.isNeg : FVal → Bool
  | .nan => false
  | .inf s => s
  | .fin s _ _ => s

/-- FMIN and FMAX by code (R107): the operand that is not NaN when exactly one is, −0 below +0. -/
def fminmax (f : FFmt) (isMax : Bool) (x y : Nat) : Nat :=
  let a := fdecode f x
  let b := fdecode f y
  if a = .nan ∧ b = .nan then f.nan
  else if a = .nan then y
  else if b = .nan then x
  else
    let lt := fless a b || (!fless b a && a.isNeg && !b.isNeg)
    if isMax then (if lt then y else x) else (if lt then x else y)

/-- Integer square root, rounded down, bit by bit from bit `k`. -/
def isqrt : Nat → Nat → Nat → Nat
  | 0, _, r => r
  | k + 1, n, r => let t := r + 2 ^ k; isqrt k n (if t * t ≤ n then t else r)

/-- The factor 2^32 (1 + δ) of an estimate, with |δ| below 2^-12 and otherwise free (R115). -/
def estimateFactor (recip : Bool) (ty code : Nat) : Nat :=
  2 ^ 32 - (2 ^ 20 - 1) + Config.estimateError recip ty code % (2 ^ 21 - 1)

/-- FRCPE (R115): the reciprocal, with a relative error below 2^-12 before the rounding into the format. -/
def frcpe (f : FFmt) (ty x : Nat) : Nat × Flags :=
  match fdecode f x with
  | .nan => (f.nan, Flags.zero)
  | .inf s => (fsigned f s 0, Flags.zero)
  | .fin s 0 _ => (fsigned f s f.inf, Flags.zero)
  | .fin s m e =>
    let n := estimateFactor true ty x * 2 ^ 64
    fround f (.fin s (2 * (n / m) + num (n % m ≠ 0)) (-e - 97))

/-- FRSQE (R115): the reciprocal square root; NaN and INVALID for a negative nonzero input. -/
def frsqe (f : FFmt) (ty x : Nat) : Nat × Flags :=
  match fdecode f x with
  | .nan => (f.nan, Flags.zero)
  | .inf true => (f.nan, { Flags.zero with invalid := true })
  | .inf false => (0, Flags.zero)
  | .fin s 0 _ => (fsigned f s f.inf, Flags.zero)
  | .fin true _ _ => (f.nan, { Flags.zero with invalid := true })
  | .fin false m e =>
    let odd := e % 2 ≠ 0
    let m' := if odd then 2 * m else m
    let e' := if odd then e - 1 else e
    let n := estimateFactor false ty x ^ 2 * 2 ^ 128
    let r := isqrt 100 (n / m') 0
    fround f (.fin false (2 * r + 1) (-(e' / 2) - 97))

/-! ### Conversions (R120, R121) -/

/-- A format of Table 4-6: floating point, or a two's-complement code of `w` bits with `frac` fraction bits. -/
inductive NFmt where
  | flt (f : FFmt)
  | fix (w frac : Nat)
deriving DecidableEq, Repr

/-- The format codes of Table 4-6; 11 to 15 are reserved. -/
def fmtCode (c : Nat) : Option NFmt :=
  match c with
  | 0 => some (.flt fp32)
  | 1 => some (.flt bf16)
  | 2 => some (.flt fp16)
  | 3 => some (.flt e4m3)
  | 4 => some (.flt e5m2)
  | 5 => some (.fix 32 0)
  | 6 => some (.fix 16 0)
  | 7 => some (.fix 8 0)
  | 8 => some (.fix 4 0)
  | 9 => some (.fix 16 15)
  | 10 => some (.fix 32 31)
  | _ => none

/-- The width of a format. -/
def NFmt.width : NFmt → Nat
  | .flt f => f.width
  | .fix w _ => w

/-- The value of a code in a format. -/
def ndecode (f : NFmt) (x : Nat) : FVal :=
  match f with
  | .flt f => fdecode f x
  | .fix w frac => let v := signed w x; .fin (v < 0) v.natAbs (-(frac : Int))

/-- Clamp an integer to `w` signed bits: the code and whether it was clamped. -/
def clampS (w : Nat) (v : Int) : Nat × Bool :=
  let hi : Int := 2 ^ (w - 1) - 1
  let lo : Int := -(2 ^ (w - 1))
  if hi < v then (wrapTo w hi, true) else if v < lo then (wrapTo w lo, true) else (wrapTo w v, false)

/-- Round ± m × 2^e half to even to an integer. -/
def roundInt (neg : Bool) (m : Nat) (e : Int) : Int :=
  let a : Int := if 0 ≤ e then (m * 2 ^ e.toNat : Nat) else divHalfEven m (2 ^ (-e).toNat)
  if neg then -a else a

/-- Convert a value into a format (R121). `fromFlt` says that the source is a floating-point format. -/
def nconvert (dst : NFmt) (sat fromFlt : Bool) (v : FVal) : Nat × Flags :=
  match dst, v with
  | .flt f, .nan => (f.nan, Flags.zero)
  | .flt f, .inf neg =>
    if f.hasInf then (fsigned f neg f.inf, Flags.zero)
    else if sat then (fsigned f neg f.largest, { Flags.zero with sat := true })
    else (f.nan, { Flags.zero with invalid := true })
  | .flt f, .fin neg m e =>
    let (mag, ovf, unf) := froundMag f m e
    if !ovf then (fsigned f neg mag, { Flags.zero with underflow := unf })
    else if sat then (fsigned f neg f.largest, { Flags.zero with sat := true })
    else (if f.hasInf then fsigned f neg f.inf else f.nan, { Flags.zero with overflow := true })
  | .fix _ _, .nan => (0, { Flags.zero with invalid := true })
  | .fix w _, .inf neg =>
    ((clampS w (if neg then -(2 ^ w) else 2 ^ w)).1, { Flags.zero with sat := true })
  | .fix w frac, .fin neg m e =>
    let i := roundInt neg m (e + frac)
    let (c, clamped) := clampS w i
    if fromFlt ∨ sat then (c, { Flags.zero with sat := clamped }) else (wrapTo w i, Flags.zero)

end Sys2Proof.Machine
end

