-- ==== Sys2Proof/Machine/Pool.lean ====
section
/-!
DEFINITION. The embedding pool (R287 to R314): tables, directories and rows, bindings, lookups, skew counters and
actions, moves, reclaim and scrub.
-/
namespace Sys2Proof.Machine

/-- Change the pool. -/
def onPool (s : State) (f : PoolSt → PoolSt) : State := { s with pool := f s.pool }

/-! ### Tables and rows (R288 to R292) -/

/-- DIM of a table. -/
def tdDim (s : State) (t : Nat) : Nat := fld s (R.TD_CTL.DIM t) + 1

/-- CB of a table: the bytes of a row's codes (R289). -/
def tdCodes (s : State) (t : Nat) : Nat := if flag s (R.TD_CTL.FMT t) then ceilDiv (tdDim s t) 2 else tdDim s t

/-- ROW_BYTES of a table (R289). -/
def tdRowBytes (s : State) (t : Nat) : Nat := 32 * ceilDiv (4 + tdCodes s t) 32

/-- Rows of a table: the 25-bit count of TD_ROWS. -/
def tdRows (s : State) (t : Nat) : Nat := fld s (R.TD_ROWS.val t)

/-- A row in canonical form: padding bytes and the unused nibble at zero (R290). -/
def canonRow (s : State) (t : Nat) (d : List Byte) : List Byte :=
  let n := 4 + tdCodes s t
  let body := sliceBytes d 0 n
  let body :=
    if flag s (R.TD_CTL.FMT t) ∧ tdDim s t % 2 = 1 then
      putBytes body (n - 1) [BitVec.ofNat 8 (fieldLE body (n - 1) 1 % 16)]
    else body
  body ++ List.replicate (tdRowBytes s t - n) 0

/-- The shard of a row (R291). -/
def shardOf (s : State) (t r : Nat) : Nat :=
  (Nat.xor r (fld s (R.TD_SEED.val t)) * 0x9E3779B1) % 2 ^ 32 / 2 ^ 24

/-- The owner chip that the shard map names (R288). -/
def shardOwner (s : State) (t sh : Nat) : Nat := fld s ⟨(R.SHARD_MAP.OWNERS t (sh / 8)).off, 4 * (sh % 8) + 3, 4 * (sh % 8)⟩

/-- Name a shard's owner. -/
def setShardOwner (s : State) (t sh chip : Nat) : State :=
  setFld s ⟨(R.SHARD_MAP.OWNERS t (sh / 8)).off, 4 * (sh % 8) + 3, 4 * (sh % 8)⟩ chip

/-- The local address of a row's directory entry (R292). -/
def dirAddr (s : State) (t r : Nat) : Nat :=
  4096 * fld s (R.TD_DIR.val t) + 2 ^ 32 * fld s (R.TD_DIR.val_HI t) + 16 * r

/-- The local address of a heap slot (R292). -/
def slotAddr (s : State) (t k : Nat) : Nat :=
  32 * fld s (R.TD_HEAP.val t) + 2 ^ 32 * fld s (R.TD_HEAP.val_HI t) + k * tdRowBytes s t

/-- A directory entry (Table 9-3). -/
structure Entry where
  curSlot : Nat
  curValid : Bool
  prevValid : Bool
  role : Nat
  former : Bool
  curGen : Nat
  prevSlot : Nat
  prevGen : Nat
deriving DecidableEq, Repr

/-- The entry that 16 bytes hold. -/
def entryOf (d : List Byte) : Entry :=
  let w := fieldLE d 0 4
  ⟨bitsOf w 23 0, bitOf w 24, bitOf w 25, bitsOf w 27 26, bitOf w 28, fieldLE d 4 4, bitsOf (fieldLE d 8 4) 23 0,
    fieldLE d 12 4⟩

/-- The 16 bytes of an entry. -/
def Entry.bytes (e : Entry) : List Byte :=
  bytesLE 4 (e.curSlot + 2 ^ 24 * num e.curValid + 2 ^ 25 * num e.prevValid + 2 ^ 26 * e.role + 2 ^ 28 * num e.former) ++
    bytesLE 4 e.curGen ++ bytesLE 4 e.prevSlot ++ bytesLE 4 e.prevGen

/-- No version and no role. -/
def Entry.empty : Entry := ⟨0, false, false, 0, false, 0, 0, 0⟩

/-- The slot that a generation selects, CUR before PREV (R293). -/
def Entry.select (e : Entry) (g : Nat) : Option Nat :=
  if e.curValid ∧ e.curGen ≤ g then some e.curSlot
  else if e.prevValid ∧ e.prevGen ≤ g then some e.prevSlot
  else none

/-- Warden's or the engine's read of an entry, one access (R292); none when it is poisoned. -/
def readEntry (s : State) (w : Who) (t r : Nat) : Res (Option Entry) :=
  (readRange s w (ownGa s (dirAddr s t r)) 16).andThen (fun d s => .ok (if d.2 then none else some (entryOf d.1)) s)

/-- Warden's view of an entry; an entry that cannot be read counts as empty. -/
def entryAt (s : State) (t r : Nat) : Entry × State :=
  match readEntry s .warden t r with
  | .ok (some e) s => (e, s)
  | .ok none s => (Entry.empty, s)
  | .unmapped s => (Entry.empty, s)
  | .wait s => (Entry.empty, s)

/-- One directory write. -/
def putEntry (s : State) (t r : Nat) (e : Entry) : State :=
  unitWrite s .warden (ownGa s (dirAddr s t r)) e.bytes false

/-- Is a heap slot in use? -/
def slotUsed (s : State) (t k : Nat) : Bool := s.pool.used.contains (2 ^ 24 * t + k)

/-- The lowest free slot of a table's heap (R301). -/
def freeSlot (s : State) (t : Nat) : Option Nat :=
  (List.range (min (fld s (R.TD_SLOTS.val t)) (s.pool.used.length + 1))).find? (fun k => !slotUsed s t k)

/-- Free a slot. -/
def dropSlot (s : State) (t k : Nat) : State := onPool s (fun p => { p with used := setDel p.used (2 ^ 24 * t + k) })

/-- Write a version into a free slot in canonical form (R290, R301). None when the heap is full. -/
def writeVersion (s : State) (t : Nat) (d : List Byte) : Option Nat × State :=
  match freeSlot s t with
  | none => (none, s)
  | some k =>
    let s := unitWrite s .warden (ownGa s (slotAddr s t k)) (canonRow s t d) false
    (some k, onPool s (fun p => { p with used := setAdd p.used (2 ^ 24 * t + k) }))

/-- Install a row's versions under a role, with their generations (R307, R308, R310). -/
def installRow (s : State) (m : RowCopy) (role : Nat) : State :=
  let put (s : State) (v : Option RowVer) : Option (Nat × Nat) × State :=
    match v with
    | none => (none, s)
    | some v => let r := writeVersion s m.table v.data; (r.1.map (fun k => (k, v.gen)), r.2)
  let (c, s) := put s m.cur
  let (p, s) := put s m.prev
  putEntry s m.table m.row
    ⟨(c.getD (0, 0)).1, c.isSome, p.isSome, role, false, (c.getD (0, 0)).2, (p.getD (0, 0)).1, (p.getD (0, 0)).2⟩

/-- Free both slots of an entry. -/
def freeEntry (s : State) (t : Nat) (e : Entry) : State :=
  let s := if e.curValid then dropSlot s t e.curSlot else s
  if e.prevValid then dropSlot s t e.prevSlot else s

/-! ### Dequantisation (R299) -/

/-- The signed code of element `k` of a stored row (R104, R289). -/
def rowCode (s : State) (t : Nat) (d : List Byte) (k : Nat) : Int :=
  if flag s (R.TD_CTL.FMT t) then signed 4 (fieldLE d (4 + k / 2) 1 / 2 ^ (4 * (k % 2)))
  else signed 8 (fieldLE d (4 + k) 1)

/-- The output format of OUT_FMT 1 to 3. -/
def outFlt (fmt : Nat) : FFmt := if fmt = 1 then fp32 else if fmt = 2 then bf16 else fp16

/-- Bytes of one output element. -/
def outElem (fmt : Nat) : Nat := if fmt = 1 then 4 else 2

/-- Bytes of one result. -/
def outBytes (s : State) (t fmt : Nat) : Nat := if fmt = 0 then tdRowBytes s t else tdDim s t * outElem fmt

/-- One dequantised element: SCALE × c + OFFSET in FP32 with one rounding, then converted with SAT at 1. -/
def dequantElem (fmt scale offset : Nat) (c : Int) : Nat :=
  let cv : FVal := .fin (c < 0) c.natAbs 0
  let x := faddExact (fmulExact (fdecode fp16 scale) cv) (fdecode fp16 offset)
  let r := (fresult fp32 x []).1
  (nconvert (.flt (outFlt fmt)) true true (fdecode fp32 r)).1

/-- A stored row as the result of a lookup: RAW, or dequantised into OUT_FMT. -/
def rowResult (s : State) (t fmt : Nat) (d : List Byte) : List Byte :=
  if fmt = 0 then d
  else (List.range (tdDim s t)).flatMap (fun k =>
    bytesLE (outElem fmt) (dequantElem fmt (fieldLE d 0 2) (fieldLE d 2 2) (rowCode s t d k)))

/-! ### Serving a row (R293, R294, R298, R305, R306) -/

/-- The hot-row entry that a sample of a row takes: the row's own, the first free one, or the one with the lowest
count (R306). -/
def hotPick (s : State) (t r : Nat) : Nat × Bool :=
  let all := List.range 64
  match all.find? (fun i => flag s (R.HOT.VALID i) && fld s (R.HOT.ROW i) = r && fld s (R.HOT.TABLE i) = t) with
  | some i => (i, true)
  | none =>
    match all.find? (fun i => !flag s (R.HOT.VALID i)) with
    | some i => (i, false)
    | none => (all.foldl (fun b i => if fld s (R.HOT.COUNT i) < fld s (R.HOT.COUNT b) then i else b) 0, false)

/-- Count a lookup this chip serves: the open skew window of its shard, and one sample in 16 (R305, R306). -/
def countServe (s : State) (t r : Nat) : State :=
  let s := if flag s (R.TD_CTL.WATCH t) then
      let key := 256 * fld s (R.TD_CTL.WSLOT t) + shardOf s t r
      onPool s (fun p => { p with win := tabSet p.win key (tabGet p.win key 0 + 1) })
    else s
  let n := s.pool.sample + 1
  let s := onPool s (fun p => { p with sample := n % 16 })
  if n < 16 then s
  else
    let (i, own) := hotPick s t r
    if own then bump s (R.HOT.COUNT i)
    else
      let s := setFld (setFld s (R.HOT.ROW i) r) (R.HOT.TABLE i) t
      setFld (setFlag s (R.HOT.VALID i) true) (R.HOT.COUNT i) 1

/-- What serving a row gives: its stored bytes, or a status of Table 9-6. -/
inductive Served where
  | row (d : List Byte)
  | fail (status : Nat)
deriving DecidableEq, Repr

/-- Serve a row from this chip's heap with the version that a generation selects. -/
def serveRow (s : State) (t r g : Nat) (e : Entry) : Res Served :=
  match e.select g with
  | none => .ok (.fail 3) s
  | some k =>
    (readRange s .lookup (ownGa s (slotAddr s t k)) (tdRowBytes s t)).andThen (fun d s =>
      if d.2 then .ok (.fail 6) s else .ok (.row d.1) (countServe s t r))

/-- Serve another chip's request, or this chip's own as the owner: any row held with a selectable version by an owner
or former owner (R294). A shard that failed its check fails with OWNER_LOST until the host reloads it (R435). -/
def serveOwner (s : State) (t r g : Nat) : Res Served :=
  if s.pool.unavail.contains (256 * t + shardOf s t r) then .ok (.fail 5) s
  else (readEntry s .lookup t r).andThen (fun e s =>
    match e with
    | none => .ok (.fail 6) s
    | some e => if e.role = 1 ∨ e.role = 2 ∨ e.former then serveRow s t r g e else .ok (.fail 3) s)

/-- Where a row of a batch is resolved (R294): served here, or the chip it is sent to. -/
inductive Resolved where
  | here (x : Served)
  | there (chip : Nat)
deriving DecidableEq, Repr

/-- Resolve a row at the requester (R294, R313). On a FROZEN table only local owners and replicas serve. -/
def resolveRow (s : State) (t r g : Nat) : Res Resolved :=
  (readEntry s .lookup t r).andThen (fun e s =>
    match e with
    | none => .ok (.here (.fail 6)) s
    | some e =>
      if (e.role = 1 ∨ e.role = 2) ∧ (e.select g).isSome ∧ !(e.role = 1 ∧ s.pool.unavail.contains (256 * t + shardOf s t r)) then
        (serveRow s t r g e).andThen (fun x s => .ok (.here x) s)
      else
        let chip := if e.role = 3 then e.curSlot % 16 else shardOwner s t (shardOf s t r)
        if chip = chipId s then (serveOwner s t r g).andThen (fun x s => .ok (.here x) s)
        else if !isMember s chip ∨ fld s (R.TD_STATE.STATE t) = 2 then .ok (.here (.fail 5)) s
        else .ok (.there chip) s)

/-! ### Descriptors (Table 9-5) -/

def Batch.f (b : Batch) (byte n hi lo : Nat) : Nat := bitsOf (fieldLE b.desc byte n) hi lo
def Batch.table (b : Batch) : Nat := b.f 0 4 5 0
def Batch.op (b : Batch) : Nat := b.f 0 4 7 6
def Batch.bslot (b : Batch) : Nat := b.f 0 4 13 8
def Batch.count (b : Batch) : Nat := b.f 0 4 26 16
def Batch.gen (b : Batch) : Nat := b.f 4 4 31 0
def Batch.idxGa (b : Batch) : Nat := b.f 8 6 47 0
def Batch.outGa (b : Batch) (i : Nat) : Nat := b.f 0x10 6 47 0 + i * b.f 0x18 4 23 0
def Batch.fmt (b : Batch) : Nat := b.f 0x18 4 27 24
def Batch.doneSync (b : Batch) : Nat := b.f 0x1C 2 13 0
def Batch.doneEn (b : Batch) : Bool := b.f 0x1C 2 15 15 = 1
def Batch.statusGa (b : Batch) : Nat := b.f 0x20 6 47 0

/-- May a batch of partition `p` reach this range (R297)? -/
def lookupOk (s : State) (p ga n : Nat) : Bool := inLp5x s ga n || inBanks0to9 s p ga n

/-- Is the slot enabled for this partition (R295)? -/
def slotOk (s : State) (b : Batch) : Bool := flag s (R.BIND_CFG.EN b.bslot) && fld s (R.BIND_CFG.PART b.bslot) = b.part

/-- Is the address of the status record good? -/
def Batch.recordOk (b : Batch) (s : State) : Bool := b.statusGa % 16 = 0 && lookupOk s b.part b.statusGa 16

/-- Does a descriptor break a rule of BAD_DESCRIPTOR (Table 9-6)? -/
def Batch.bad (b : Batch) (s : State) : Bool :=
  b.op = 3 || !b.recordOk s || !slotOk s b ||
    (b.op = 0 && (3 < b.fmt || b.count = 0 || 1024 < b.count || !flag s (R.TD_CTL.EN b.table) ||
      b.idxGa % 4 ≠ 0 || b.outGa 0 % 32 ≠ 0 || (b.outGa 1 - b.outGa 0) % 32 ≠ 0 ||
      !lookupOk s b.part b.idxGa (4 * b.count) ||
      (List.range b.count).any (fun i => !lookupOk s b.part (b.outGa i) (outBytes s b.table b.fmt))))

/-- The status that fails a batch whole as it is committed (Table 9-6), tried in rising order. -/
def Batch.refusal (b : Batch) (s : State) : Option Nat :=
  if b.bad s then some 1
  else if b.op ≠ 0 then none
  else if fld s (R.TD_STATE.STATE b.table) = 1 then some 4
  else if b.gen ≠ fld s (R.BIND.GEN b.bslot) ∨ b.gen < fld s (R.TD_SWAP_GEN.val b.table) then some 7
  else if 64 ≤ s.pool.batches.length then some 8
  else none

/-- Write the status record and signal DONE_SYNC (R300). With a record that cannot be written neither happens (R31). -/
def batchRecord (s : State) (b : Batch) (status failed word1 : Nat) : State :=
  if !b.recordOk s then reportUnmapped s .lookup b.statusGa 1
  else
    let s := unitWrite s .lookup b.statusGa (bytesLE 16 (status + 2 ^ 16 * failed + 2 ^ 32 * word1)) false
    signalDone s b.doneEn b.doneSync .lookup

/-! ### Running a batch (R298, R300) -/

/-- Put a changed batch back. -/
def putBatch (s : State) (b : Batch) : State :=
  onPool s (fun p => { p with batches := p.batches.map (fun x => if x.num = b.num then b else x) })

/-- The batch with a number. -/
def batchNum (s : State) (n : Nat) : Option Batch := s.pool.batches.find? (fun b => b.num = n)

/-- Write an output of a batch; an unmapped write ends the batch with BAD_DESCRIPTOR (Table 1-6). -/
def batchWrite (s : State) (b : Batch) (i : Nat) (d : List Byte) : State :=
  match writeRange s .lookup (b.outGa i) d false with
  | .ok _ s => putBatch s b
  | .wait s => putBatch { s with posted := s.posted ++ [.write .lookup (b.outGa i) d false] } b
  | .unmapped s => putBatch (reportUnmapped s .lookup (b.outGa i) 1) { b with todo := [], sent := [], whole := some 1 }

/-- A position has its result: the output, or zeros where it failed (R300). -/
def batchPos (s : State) (b : Batch) (i : Nat) (x : Served) : State :=
  match x with
  | .row d => batchWrite s b i (rowResult s b.table b.fmt d)
  | .fail st =>
    batchWrite s { b with failed := (i, st) :: b.failed } i (List.replicate (outBytes s b.table b.fmt) 0)

/-- The request packet of a position: table, row, generation, batch, position and OUT_FMT. -/
def sendLookup (s : State) (b : Batch) (i r chip : Nat) : State :=
  sendPkt s chip 0x39 96 (chip * 2 ^ 44)
    (bytesLE 1 b.table ++ bytesLE 3 r ++ bytesLE 4 b.gen ++ bytesLE 2 i ++ bytesLE 4 b.num ++ bytesLE 1 b.fmt) []

/-- Resolve one position of a batch; one that waits for a line stays to be done. -/
def batchStep (s : State) (n i : Nat) : State :=
  match batchNum s n with
  | none => s
  | some b =>
    let r := (b.idx.getD []).getD i 0
    let b' := { b with todo := b.todo.filter (· ≠ i) }
    if !b.todo.contains i then s
    else if tdRows s b.table ≤ r then batchPos s b' i (.fail 2)
    else
      match resolveRow s b.table r b.gen with
      | .ok (.here x) s => batchPos s b' i x
      | .ok (.there chip) s => sendLookup (putBatch s { b' with sent := b'.sent ++ [i] }) b i r chip
      | .wait s => s
      | .unmapped s => putBatch s { b with todo := [], sent := [], whole := some 1 }

/-- Is an index of a batch poisoned? -/
def indexPoisoned (s : State) (ga : Nat) : Bool :=
  match readRange s .lookup ga 4 with
  | .ok d _ => d.2
  | _ => true

/-- Run what a batch can run: its index read, then its positions. -/
def batchRun (s : State) (n : Nat) : State :=
  match batchNum s n with
  | none => s
  | some b =>
    let s := match b.idx, b.whole with
      | none, none =>
        match readRange s .lookup b.idxGa (4 * b.count) with
        | .ok d s =>
          let l := (List.range b.count).map (fun i => fieldLE d.1 (4 * i) 4)
          let (lost, good) := (List.range b.count).partition (fun i => d.2 && indexPoisoned s (b.idxGa + 4 * i))
          let b := { b with idx := some l, todo := good }
          lost.foldl (fun s i =>
            let b := (batchNum s n).getD b
            if b.whole.isSome then s else batchPos s b i (.fail 6)) (putBatch s b)
        | .wait s => s
        | .unmapped s => putBatch (reportUnmapped s .lookup b.idxGa 1) { b with whole := some 1 }
      | _, _ => s
    (List.range b.count).foldl (fun s i => batchStep s n i) s

/-- The lowest failed position with its status. -/
def lowestFailed (l : List (Nat × Nat)) : Nat × Nat :=
  match l with
  | [] => (0, 0)
  | x :: t => t.foldl (fun b y => if y.1 < b.1 then y else b) x

/-- Count failed rows (LOOKUP_ERR). -/
def lookupErr (s : State) (n : Nat) : State := setFld s R.LOOKUP_ERR.val (fld s R.LOOKUP_ERR.val + n)

/-- A batch ends when every result has been written or has failed (R300). -/
def batchEnd (s : State) (n : Nat) : State :=
  match batchNum s n with
  | none => s
  | some b =>
    let s' := onPool s (fun p => { p with batches := p.batches.filter (fun x => x.num ≠ n) })
    match b.whole with
    | some st => batchRecord (lookupErr s' b.count) b st b.count 0
    | none =>
      if b.idx = none ∨ b.todo ≠ [] ∨ b.sent ≠ [] then s
      else
        let (i, st) := lowestFailed b.failed
        batchRecord (lookupErr s' b.failed.length) b st b.failed.length i

/-- BIND and UNBIND (R295). -/
def bindOp (s : State) (b : Batch) : State :=
  if b.op = 1 then
    let g := fld s R.POOL_GEN.val
    batchRecord (setFld s (R.BIND.GEN b.bslot) g) b 0 0 g
  else batchRecord (setFld s (R.BIND.GEN b.bslot) 0) b 0 0 0

/-- A batch that fails whole at its commit. With TABLE_PAUSED and STALE_BINDING every position fails and is written as
zeros; with BAD_DESCRIPTOR and BUSY nothing is written (R300, log entry 17). -/
def batchRefuse (s : State) (b : Batch) (st : Nat) : State :=
  let n := if b.op = 0 then b.count else 0
  let s := if st = 4 ∨ st = 7 then
      (List.range n).foldl (fun s i =>
        unitWrite s .lookup (b.outGa i) (List.replicate (outBytes s b.table b.fmt) 0) false) s
    else s
  batchRecord (lookupErr s n) b st n 0

/-- A descriptor is committed on the request page of partition `p` (R297, R298). -/
def lookupCommit (s : State) (p : Nat) (d : List Byte) : State :=
  let b : Batch := ⟨s.pool.next, p, d, none, [], [], [], [], none⟩
  match b.refusal s with
  | some st => batchRefuse s b st
  | none =>
    if b.op = 0 then
      let s := onPool s (fun x => { x with batches := x.batches ++ [b], next := x.next + 1 })
      batchRun s b.num
    else bindOp s b

/-- May this agent write the request page of partition `p` (R297)? -/
def lookupPageOpen (s : State) (w : Who) (p : Nat) : Bool :=
  match w with
  | .warden => true
  | .pilot c => activePart s c = some p
  | .vec c => activePart s c = some p
  | _ => false

/-- A write to a lookup request page: staged, and committed in the manner of R222. -/
def lookupWrite (s : State) (w : Who) (p off : Nat) (d : List Byte) : State :=
  if !lookupPageOpen s w p then reportUnmapped s w (ownGa s (0xA0000420000 + 0x1000 * p + off)) 1
  else
    match stage s 2 (stageSrc s w) off d with
    | (none, s) => s
    | (some m, s) => lookupCommit s p m

/-! ### The exchange (R298) -/

/-- DEQ_OWNER in effect: 0 where the domain lacks OWNER_DEQ (R433). -/
def deqOwner (s : State) (t : Nat) : Bool := flag s (R.TD_CTL.DEQ_OWNER t) && featOn s 2

/-- What the target returns of a row: the stored bytes, or elements where DEQ_OWNER is set. -/
def targetResult (s : State) (q : LkupReq) (d : List Byte) : List Byte :=
  if !deqOwner s q.table ∨ q.fmt = 0 then d else rowResult s q.table q.fmt d

/-- Answer a request with a status and data, 128 bytes a packet: batch, position, status and the length of the whole
(log entry 24). -/
def lookupReply (s : State) (q : LkupReq) (status : Nat) (d : List Byte) : State :=
  let inl := bytesLE 4 q.token ++ bytesLE 2 q.pos ++ bytesLE 1 status ++ bytesLE 2 d.length
  (List.range (max 1 (ceilDiv d.length 128))).foldl (fun s i =>
    sendPkt s q.chip 0x3A 96 (q.chip * 2 ^ 44) inl ((d.drop (128 * i)).take 128)) s

/-- Serve one request of another chip, or keep it while its line is fetched. -/
def lookupServe (s : State) (q : LkupReq) : State :=
  match serveOwner s q.table q.row q.gen with
  | .ok (.row d) s => lookupReply s q 0 (targetResult s q d)
  | .ok (.fail st) s => lookupReply s q st []
  | .unmapped s => lookupReply s q 3 []
  | .wait s => onPool s (fun p => { p with later := p.later ++ [q] })

/-- Serve the requests that waited. -/
def lookupLater (s : State) : State :=
  let l := s.pool.later
  l.foldl lookupServe (onPool s (fun p => { p with later := [] }))

/-- Returned data of a position reaches the requester (R298), `total` bytes in all. -/
def lookupData (s : State) (n i status total : Nat) (d : List Byte) : State :=
  match batchNum s n with
  | none => s
  | some b =>
    if !b.sent.contains i then s
    else
      let got := tabGet b.got i [] ++ d
      if status = 0 ∧ got.length < total then putBatch s { b with got := tabSet b.got i got }
      else
        let b := { b with sent := b.sent.filter (· ≠ i), got := tabErase b.got i }
        if status ≠ 0 then batchPos s b i (.fail status)
        else if deqOwner s b.table ∨ b.fmt = 0 then batchWrite s b i got
        else batchPos s b i (.row got)

/-- Every position sent to a lost chip fails with OWNER_LOST (R313). -/
def lookupLost (s : State) (chip : Nat) : State :=
  s.pool.batches.foldl (fun s b => b.sent.foldl (fun s i =>
    match batchNum s b.num with
    | none => s
    | some b =>
      let r := (b.idx.getD []).getD i 0
      let (e, s) := entryAt s b.table r
      let dst := if e.role = 3 then e.curSlot % 16 else shardOwner s b.table (shardOf s b.table r)
      if dst = chip then lookupData s b.num i 5 0 [] else s) s) s

/-! ### Generations and READY_SYNC (R295, R302, R304) -/

/-- LOW_GEN (R295). -/
def lowGen (s : State) : Nat :=
  let l := ((List.range 64).filter (fun b => flag s (R.BIND_CFG.EN b) && fld s (R.BIND.GEN b) ≠ 0)).map (fun b =>
    fld s (R.BIND.GEN b))
  match l with
  | [] => fld s R.POOL_GEN.val
  | x :: t => t.foldl min x

/-- Set TD_STATE of a table; READY_SYNC is set while it is SERVING (R288, R304). -/
def setTableState (s : State) (t st : Nat) : State :=
  let s := setFld s (R.TD_STATE.STATE t) st
  let obj := fld s (R.TD_STATE.READY_SYNC t)
  if st = 0 then signalLocal s obj 1 (chipId s) 100 else syncReset s obj 0

/-- Reclaim the PREV version of a row whose CUR_GEN is at or below the floor (R302). -/
def reclaimRow (s : State) (t r floor : Nat) : State :=
  let (e, s) := entryAt s t r
  if e.prevValid ∧ e.curValid ∧ e.curGen ≤ floor ∧ e.role ≠ 3 then
    dropSlot (putEntry s t r { e with prevValid := false }) t e.prevSlot
  else s

/-- Reclaim over every enabled table. -/
def reclaim (s : State) (floor : Nat) : State :=
  (List.range 64).foldl (fun s t =>
    if flag s (R.TD_CTL.EN t) then forN (tdRows s t) (fun r s => reclaimRow s t r floor) s else s) s

/-! ### Skew (R305 to R307) -/

/-- One counter at the end of a 1 ms window. -/
def skewClose (s : State) (k n : Nat) : State :=
  let s := setFld s (R.SKEW.LAST k) (min n 65535)
  let s := setFld s (R.SKEW.PEAK k) (max (fld s (R.SKEW.PEAK k)) (min n 65535))
  setFld s (R.SKEW.TOTAL k) (fld s (R.SKEW.TOTAL k) + n)

/-- A 1 ms window closes: the counters of every watched table take its counts (R305). -/
def skewWindow (s : State) : State :=
  let slots := ((List.range 64).filter (fun t => flag s (R.TD_CTL.EN t) && flag s (R.TD_CTL.WATCH t))).map (fun t =>
    fld s (R.TD_CTL.WSLOT t))
  let win := s.pool.win
  let s := ((List.range 8).filter slots.contains).foldl (fun s w =>
    forN 256 (fun i s => skewClose s (256 * w + i) (tabGet win (256 * w + i) 0)) s) s
  onPool s (fun p => { p with win := [] })

/-- A read of TOTAL clears PEAK and TOTAL (R305). -/
def skewRead (s : State) (k : Nat) : State := setFld (setFld s (R.SKEW.PEAK k) 0) (R.SKEW.TOTAL k) 0

/-- Warden reads and clears the hot-row table (R306): the samples join those it has collected. -/
def hotCollect (s : State) : State :=
  (List.range 64).foldl (fun s i =>
    if !flag s (R.HOT.VALID i) then s
    else
      let x : SkewReport := ⟨fld s (R.HOT.TABLE i), fld s (R.HOT.ROW i), chipId s, fld s (R.HOT.COUNT i)⟩
      let s := onPool s (fun p => { p with seen := x :: p.seen })
      setReg (setReg s (R.HOT.ROW i).off 0) (R.HOT.COUNT i).off 0) s

/-- Samples of a row, at one chip or at all. -/
def samplesOf (l : List SkewReport) (t r : Nat) (chip : Option Nat) : Nat :=
  ((l.filter (fun x => x.table = t && x.row = r && (chip = none || chip = some x.chip))).map (fun x => x.count)).sum

/-- Samples of a table. -/
def samplesTable (l : List SkewReport) (t : Nat) : Nat := ((l.filter (fun x => x.table = t)).map (fun x => x.count)).sum

/-- Bits of `policy`: the host has disabled replication (0), shard moves (1), replica removal (2) of a table. -/
def skewOff (s : State) (t bit : Nat) : Bool := bitOf (tabGet s.pool.policy t 0) bit

/-- The rows to replicate, and the chips (R307): at least 25 % of the row's samples, and 1 % of the table's. -/
def skewReplicas (s : State) (l : List SkewReport) : List PoolAct :=
  (l.filter (fun x => !skewOff s x.table 0 && 4 * samplesOf l x.table x.row (some x.chip) ≥ samplesOf l x.table x.row none &&
    100 * samplesOf l x.table x.row none ≥ samplesTable l x.table)).map (fun x => .replicate x.table x.row x.chip)

/-- Is the most loaded chip above 1.25 times the domain mean? `loads` pairs each member with its served load. -/
def skewOver (loads : List (Nat × Nat)) : Option (Nat × Nat) :=
  match loads with
  | [] => none
  | x :: t =>
    let hi := t.foldl (fun b y => if b.2 < y.2 then y else b) x
    let lo := t.foldl (fun b y => if y.2 < b.2 then y else b) x
    let sum := (loads.map (fun y => y.2)).sum
    if 4 * hi.2 * loads.length > 5 * sum then some (hi.1, lo.1) else none

/-- The first shard of a table that a chip owns. -/
def firstShard (s : State) (t chip : Nat) : Option Nat := (List.range 256).find? (fun sh => shardOwner s t sh = chip)

/-- The shard moves of an evaluation: the fifth overload in a row of a table moves one shard (R307). `loads` gives
(table, chip, load). -/
def skewMoves (s : State) (loads : List (Nat × Nat × Nat)) : State × List PoolAct :=
  (List.range 64).foldl (fun (s, acts) t =>
    if !flag s (R.TD_CTL.EN t) then (s, acts)
    else
      match skewOver ((loads.filter (fun x => x.1 = t)).map (fun x => x.2)) with
      | none => (onPool s (fun p => { p with overload := tabErase p.overload t }), acts)
      | some (a, b) =>
        let n := tabGet s.pool.overload t 0 + 1
        let s := onPool s (fun p => { p with overload := tabSet p.overload t n })
        if n < 5 ∨ skewOff s t 1 then (s, acts)
        else
          match firstShard s t a with
          | some sh => (onPool s (fun p => { p with overload := tabErase p.overload t }), acts ++ [.moveShard t sh a b])
          | none => (s, acts)) (s, [])

/-- Replicas of this chip without a sample in ten evaluations are removed (R307). -/
def skewDrop (s : State) (l : List SkewReport) : State × List PoolAct :=
  (List.range 64).foldl (fun x t =>
    if !flag x.1 (R.TD_CTL.EN t) ∨ skewOff x.1 t 2 then x
    else forN (tdRows x.1 t) (fun r (s, acts) =>
      let (e, s) := entryAt s t r
      let key := 2 ^ 24 * t + r
      if e.role ≠ 2 then (s, acts)
      else if samplesOf l t r (some (chipId s)) ≠ 0 then
        (onPool s (fun p => { p with idle := tabErase p.idle key }), acts)
      else
        let n := tabGet s.pool.idle key 0 + 1
        if n < 10 then (onPool s (fun p => { p with idle := tabSet p.idle key n }), acts)
        else
          let s := freeEntry (putEntry s t r Entry.empty) t e
          (onPool s (fun p => { p with idle := tabErase p.idle key }), acts ++ [.dropReplica t r])) x) (s, [])

/-- The evaluation of every 60 s (R307). `copies` are the versions the owners send of the rows replicated here. -/
def skewEvaluate (s : State) (peers : List SkewReport) (loads : List (Nat × Nat × Nat)) (copies : List RowCopy) : State :=
  let l := s.pool.seen ++ peers
  let reps := skewReplicas s l
  let (s, moves) := skewMoves s loads
  let (s, drops) := skewDrop s l
  let s := (copies.filter (fun m => reps.contains (.replicate m.table m.row (chipId s)) && !m.poison)).foldl (fun s m =>
    let (e, s) := entryAt s m.table m.row
    if e.role = 0 then installRow s m 2 else s) s
  onPool s (fun p => { p with acts := reps ++ moves ++ drops, seen := [] })

/-! ### Moves (R308) -/

/-- Rows of a table in a shard, or the one row. -/
def moveRows (s : State) (t n : Nat) (isRow : Bool) : List Nat :=
  if isRow then [n] else (List.range (tdRows s t)).filter (fun r => shardOf s t r = n)

/-- Is the table's replacement of a row frozen by a move? -/
def moveFrozen (s : State) (t r : Nat) : Bool :=
  s.pool.frozen.any (fun x => x.1 = t && (if x.2.2 then x.2.1 = r else x.2.1 = shardOf s t r))

/-- One step of a live move of a shard or a row from chip `a` to chip `b`, as this chip takes it. Rows
move only where the domain has ROW_MOVE (R433). -/
def moveStep (s : State) (t n : Nat) (isRow : Bool) (a b : Nat) (st : MoveStep) : State :=
  if isRow ∧ !featOn s 3 then s
  else match st with
  | .freeze => onPool s (fun p => { p with frozen := (t, n, isRow) :: p.frozen })
  | .copyIn rows =>
    if chipId s ≠ b then s
    else (rows.filter (fun m => m.table = t && (moveRows s t n isRow).contains m.row)).foldl (fun s m =>
      let (e, s) := entryAt s t m.row
      installRow (freeEntry s t e) m 1) s
  | .switch =>
    let s := if isRow then s else setShardOwner s t n b
    (moveRows s t n isRow).foldl (fun s r =>
      let (e, s) := entryAt s t r
      if chipId s = a then putEntry s t r { e with former := true }
      else if isRow ∧ chipId s ≠ b then putEntry (freeEntry s t e) t r { Entry.empty with role := 3, curSlot := b }
      else s) s
  | .release lows =>
    if chipId s ≠ a then s
    else
      let floor := lows.foldl min (lowGen s)
      (moveRows s t n isRow).foldl (fun s r =>
        let (e, s) := entryAt s t r
        if !e.former ∨ floor < e.curGen then s
        else
          let s := freeEntry s t e
          putEntry s t r (if isRow then { Entry.empty with role := 3, curSlot := b } else Entry.empty)) s
  | .resume => onPool s (fun p => { p with frozen := p.frozen.filter (fun x => x ≠ (t, n, isRow)) })

/-! ### Scrub (R309, R310) -/

/-- Compare one version at equal generation: 0 equal, 1 a benign divergence, 2 a mismatch (R309). -/
def scrubVersion (s : State) (t k : Nat) (v : RowVer) : Nat × State :=
  let (d, _, s) := (readRange s .warden (ownGa s (slotAddr s t k)) (tdRowBytes s t)).bytes (tdRowBytes s t)
  (if d = v.data then 0 else if canonRow s t d = canonRow s t v.data then 1 else 2, s)

/-- Compare a replicated row with its owner's copy, or copy it again after a mismatch. -/
def scrubRow (s : State) (m : RowCopy) : State :=
  let (e, s) := entryAt s m.table m.row
  if fld s (R.TD_STATE.STATE m.table) = 2 ∨ s.pool.repl.any (fun x => x.table = m.table && x.rows.contains m.row) then s
  else if s.pool.recopy.contains (m.table, m.row) then
    if m.poison then s
    else
      let s := installRow (freeEntry s m.table e) m 2
      onPool s (fun p => { p with recopy := p.recopy.filter (· ≠ (m.table, m.row)) })
  else if e.role ≠ 2 ∨ m.poison then s
  else
    let one (s : State) (valid : Bool) (gen slot : Nat) : Nat × State :=
      match [m.cur, m.prev].find? (fun v => v.any (fun v => valid && v.gen = gen)) with
      | some (some v) => scrubVersion s m.table slot v
      | _ => (0, s)
    let (x, s) := one s e.curValid e.curGen e.curSlot
    let (y, s) := one s e.prevValid e.prevGen e.prevSlot
    if x = 2 ∨ y = 2 then
      let s := report (bump s R.REPLICA_MISMATCH.val) 0x0507 0x7F [m.table, m.row]
      let s := putEntry s m.table m.row { e with role := 0 }
      onPool s (fun p => { p with recopy := (m.table, m.row) :: p.recopy })
    else if x = 1 ∨ y = 1 then bump s R.BENIGN_DIVERGENCE.val
    else s

/-! ### Shard checks (R314, R435) -/

/-- The CRC32C of a shard's rows in canonical form: the CUR version of each row of it that this chip owns, in rising
order. -/
def shardCrc (s : State) (t sh : Nat) : Nat :=
  crc32c ((moveRows s t sh false).flatMap (fun r =>
    let e := (entryAt s t r).1
    if e.role = 1 ∧ e.curValid then bytesAt s (slotAddr s t e.curSlot) (tdRowBytes s t) else []))

/-- The shards of a table that this chip owns. -/
def ownShards (s : State) (t : Nat) : List Nat := (List.range 256).filter (fun sh => shardOwner s t sh = chipId s)

/-- A commit of a table records the CRC32C of each own shard, and POOL_GEN, in flash (R314). -/
def recordShards (s : State) (t : Nat) : State :=
  let l := (ownShards s t).map (fun sh => (256 * t + sh, shardCrc s t sh))
  onPool s (fun p => { p with
    crcs := l.foldl (fun c x => tabSet c x.1 x.2) p.crcs, genFlash := fld s R.POOL_GEN.val })

/-- Check the own shards of a table against flash; one that fails is unavailable (R435). -/
def checkShards (s : State) (t : Nat) : State :=
  let bad := (ownShards s t).filter (fun sh => tabFind s.pool.crcs (256 * t + sh) ≠ some (shardCrc s t sh))
  onPool s (fun p => { p with
    unavail := bad.foldl (fun l sh => setAdd l (256 * t + sh)) (p.unavail.filter (fun x => x / 256 ≠ t)) })

/-! ### Meanings -/

/-- LOOKUP (R297, R298): a write to the request page of partition `p`; one that includes byte 0x3F commits the staged
descriptor. -/
def execLookup (w : Who) (p off : Nat) (d : List Byte) (s : State) : Host.Outcome State Fault Refusal :=
  if p < 12 ∧ off < 64 then finish (lookupWrite s w p off d) else .fault .absentUnit

/-- The descriptor of a BIND or UNBIND: the fields it uses (R297). -/
def bindDesc (op bslot doneSync statusGa : Nat) (doneEn : Bool) : List Byte :=
  bytesLE 4 (2 ^ 6 * op + 2 ^ 8 * (bslot % 64)) ++ List.replicate 24 0 ++
    bytesLE 4 (doneSync % 2 ^ 14 + 2 ^ 15 * num doneEn) ++ bytesLE 6 statusGa ++ List.replicate 26 0

/-- BIND (R295): a BIND descriptor is committed for partition `p`. -/
def execBind (p bslot doneSync statusGa : Nat) (doneEn : Bool) (s : State) : Host.Outcome State Fault Refusal :=
  if p < 12 then finish (lookupCommit s p (bindDesc 1 bslot doneSync statusGa doneEn)) else .fault .absentUnit

/-- UNBIND (R295): an UNBIND descriptor is committed for partition `p`. -/
def execUnbind (p bslot doneSync statusGa : Nat) (doneEn : Bool) (s : State) : Host.Outcome State Fault Refusal :=
  if p < 12 then finish (lookupCommit s p (bindDesc 2 bslot doneSync statusGa doneEn)) else .fault .absentUnit

/-- LKUP_REQ (R298): the target serves another chip's request with the selected version. -/
def execLkupReq (chip token table row gen pos fmt : Nat) (s : State) : Host.Outcome State Fault Refusal :=
  if table < 64 then finish (lookupServe (lookupLater s) ⟨chip, token, table, row, gen, pos, fmt⟩)
  else .fault .absentUnit

/-- LKUP_DATA (R298): the requester writes the returned data of a position. -/
def execLkupData (batch pos status total : Nat) (data : List Byte) (s : State) : Host.Outcome State Fault Refusal :=
  finish (lookupData s batch pos status total data)

/-- LOOKUP_DONE (R300): a batch whose every result is in ends. -/
def execLookupDone (batch : Nat) (s : State) : Host.Outcome State Fault Refusal :=
  finish (batchEnd (batchRun (lookupLater s) batch) batch)

/-- SKEW_WINDOW (R305): a 1 ms window closes. -/
def execSkewWindow (s : State) : Host.Outcome State Fault Refusal := finish (skewWindow s)

/-- SKEW_COUNTER_READ (R305): TOTAL of counter `k` (256 WSLOT + shard) is read. -/
def execSkewCounterRead (w : Who) (k : Nat) (s : State) : Host.Outcome State Fault Refusal :=
  if k < 2048 then finish (emit (skewRead s k) .response [w.agent, fld s (R.SKEW.TOTAL k)] []) else .fault .absentUnit

/-- SKEW_EVALUATION (R307): Warden's evaluation of every 60 s. -/
def execSkewEvaluation (peers : List SkewReport) (loads : List (Nat × Nat × Nat)) (copies : List RowCopy) (s : State) :
    Host.Outcome State Fault Refusal := finish (skewEvaluate s peers loads copies)

/-- SHARD_MOVE (R308): one step of a live move. -/
def execShardMove (table number : Nat) (isRow : Bool) (a b : Nat) (step : MoveStep) (s : State) :
    Host.Outcome State Fault Refusal :=
  if table < 64 then finish (moveStep s table number isRow a b step) else .fault .absentUnit

/-- PREV_RECLAIM (R302): the domain floor from the LOW_GEN of every chip, and the reclaim of PREV versions. -/
def execPrevReclaim (lows : List Nat) (s : State) : Host.Outcome State Fault Refusal :=
  finish (reclaim s (lows.foldl min (lowGen s)))

/-- REPLICA_SCRUB (R309, R310): replicated rows are compared with the copies their owners send. -/
def execReplicaScrub (owners : List RowCopy) (s : State) : Host.Outcome State Fault Refusal :=
  finish (owners.foldl scrubRow s)

end Sys2Proof.Machine
end

