-- ==== Sys2Proof/Machine/Domain.lean ====
section
/-!
DEFINITION. The domain (R426 to R435, R215, R251): the configuration block, sides and quorum, joining, losses, leaves and
routes.
-/
namespace Sys2Proof.Machine

/-- A set of chips as a mask: with one chip more. -/
def maskAdd (m c : Nat) : Nat := putBits m c c 1

/-- A set of chips as a mask: with one chip less. -/
def maskDel (m c : Nat) : Nat := putBits m c c 0

/-- Chips in a mask. -/
def maskList (m : Nat) : List Nat := (List.range 16).filter (bitOf m)

/-- State of this chip in its domain (R428): 0 SOLO, 1 JOINING, 2 MEMBER, 3 QUARANTINED, 4 LEAVING. -/
def selfState (s : State) : Nat := fld s R.ADR_CHIP.SELF_STATE

/-! ### The block (Table 13-7, R427) -/

/-- Bytes of the block that its layout names. -/
def blockNamed (i : Nat) : Bool :=
  i < 0xA || (0xC ≤ i && i < 0xE) || (0x10 ≤ i && i < 0x110) ||
    (0x200 ≤ i && i < 0xA00 && i % 32 < 20 && !(0xD ≤ i % 32 && i % 32 < 0x10)) || (0x1000 ≤ i && i < 0x3000)

/-- The bits of a named byte that no field holds: reserved bits of TD_CTL, TD_ROWS and TD_STATE (R288). -/
def blockMask (i : Nat) : Nat :=
  if 0x200 ≤ i ∧ i < 0xA00 then
    if i % 32 = 0 then 0x7F else if i % 32 = 2 then 0x1F else if i % 32 = 3 then 0
    else if i % 32 = 7 then 1 else if i % 32 = 0xC then 3 else 0xFF
  else if 0x10 ≤ i ∧ i < 0x110 ∧ 8 ≤ i % 16 then 0xFF
  else 0xFF

/-- The canonical form: every reserved bit zero (R427). -/
def canonBlock (b : List Byte) : List Byte :=
  (List.zip (List.range 16384) (sliceBytes b 0 16384)).map (fun x =>
    if blockNamed x.1 then BitVec.ofNat 8 (Nat.land x.2.toNat (blockMask x.1)) else 0)

/-- The table part of the block as the registers stand. -/
def tableBytes (s : State) (t : Nat) : List Byte :=
  bytesLE 4 (reg s (R.TD_CTL.EN t).off) ++ bytesLE 4 (reg s (R.TD_ROWS.val t).off) ++ bytesLE 4 (reg s (R.TD_SEED.val t).off) ++
    bytesLE 4 (fld s (R.TD_STATE.STATE t)) ++ bytesLE 4 (reg s (R.TD_SWAP_GEN.val t).off) ++ List.replicate 12 0

/-- The block with the tables as they stand: domain actions change them (R427). -/
def blockNow (s : State) (b : List Byte) : List Byte :=
  canonBlock (b.take 0x200 ++ (List.range 64).flatMap (tableBytes s) ++ sliceBytes b 0xA00 0x600 ++
    (List.range 2048).flatMap (fun i => bytesLE 4 (reg s ((R.SHARD_MAP.OWNERS 0 0).off + 4 * i))) ++ List.replicate 4096 0)

/-- The digest of a canonical block: the first 16 bytes of its SHA-384 (R427). -/
def digestOf (b : List Byte) : Nat := (Config.sha384 b).toNat % 2 ^ 128

/-- ADR_DIGEST. -/
def digest (s : State) : Nat :=
  reg s R.ADR_DIGEST.val.off + 2 ^ 32 * reg s R.ADR_DIGEST.val_HI.off + 2 ^ 64 * reg s R.ADR_DIGEST.val_W2.off +
    2 ^ 96 * reg s R.ADR_DIGEST.val_W3.off

/-- Store ADR_DIGEST. -/
def setDigest (s : State) (d : Nat) : State :=
  setReg (setReg (setReg (setReg s R.ADR_DIGEST.val.off d) R.ADR_DIGEST.val_HI.off (d / 2 ^ 32)) R.ADR_DIGEST.val_W2.off
    (d / 2 ^ 64)) R.ADR_DIGEST.val_W3.off (d / 2 ^ 96)

/-- The digest of the block with the tables as they stand. -/
def digestDue (s : State) : Nat :=
  match s.domain.block with
  | some b => digestOf (blockNow s b)
  | none => 0

/-- A member computes its digest again at a boundary, over the block as domain actions have left it (R427). -/
def digestBoundary (s : State) : State :=
  match s.domain.block with
  | some b =>
    if selfState s = 2 then
      setDigest (onDomain s (fun d => { d with block := some (blockNow s b) })) (digestOf (blockNow s b))
    else s
  | none => s

/-- Members of a block. -/
def blockMembers (b : List Byte) : Nat := fieldLE b 0xC 2

/-- Is the port map symmetric (R426)? Each connected entry of a member is answered by its peer's. -/
def blockSymmetric (b : List Byte) : Bool :=
  (maskList (blockMembers b)).all (fun c => (List.range 8).all (fun p =>
    let e := blockPort b c p
    !e.2.2 || (bitOf (blockMembers b) e.1 && e.1 ≠ c && blockPort b e.1 e.2.1 = (c, p, true))))

/-- Does Warden accept a block (R426)? -/
def blockOk (s : State) (b : List Byte) : Bool :=
  let dies := (maskList (blockMembers b)).map (blockDie b)
  fieldLE b 0 4 = 0x41445231 && fieldLE b 9 1 = bitsOf (fld s R.ADR_PROTO.OWN) 15 8 &&
    dies.countP (· = s.domain.die) = 1 && dies.Nodup && blockSymmetric b

/-- Take the tables' part of the block: descriptors, states, swap generations and shard maps (R435); shards of this chip
that fail their check are unavailable. Local addresses stay (R288). With `thaw` unset a table that is FROZEN here stays so. -/
def adoptTables (s : State) (thaw : Bool) : State :=
  match s.domain.block with
  | none => s
  | some b =>
    let s := (List.range 2048).foldl (fun s i => setReg s ((R.SHARD_MAP.OWNERS 0 0).off + 4 * i) (fieldLE b (0x1000 + 4 * i) 4)) s
    (List.range 64).foldl (fun s t =>
      let at_ := 0x200 + 32 * t
      let frozen := !thaw && fld s (R.TD_STATE.STATE t) = 2
      let s := setReg (setReg (setReg s (R.TD_CTL.EN t).off (fieldLE b at_ 4)) (R.TD_ROWS.val t).off (fieldLE b (at_ + 4) 4))
        (R.TD_SEED.val t).off (fieldLE b (at_ + 8) 4)
      let s := setReg s (R.TD_SWAP_GEN.val t).off (fieldLE b (at_ + 16) 4)
      let s := if flag s (R.TD_CTL.EN t) then if frozen then s else setTableState s t (fieldLE b (at_ + 12) 4 % 4)
        else setFld s (R.TD_STATE.STATE t) (fieldLE b (at_ + 12) 4)
      if flag s (R.TD_CTL.EN t) then checkShards s t else s) s

/-- Every REPLICA entry of this chip takes ROLE none, and its slots are freed (R435). -/
def dropReplicas (s : State) : State :=
  (List.range 64).foldl (fun s t =>
    if !flag s (R.TD_CTL.EN t) then s
    else forN (tdRows s t) (fun r s =>
      let (e, s) := entryAt s t r
      if e.role = 2 then freeEntry (putEntry s t r Entry.empty) t e else s) s) s

/-- Every table of this chip takes a state: FROZEN without quorum (R434), SERVING again after (R435). -/
def tablesState (s : State) (from_ to_ : Nat) : State :=
  (List.range 64).foldl (fun s t =>
    if flag s (R.TD_CTL.EN t) ∧ fld s (R.TD_STATE.STATE t) = from_ then setTableState s t to_ else s) s

/-! ### Messages between Wardens -/

/-- Send a domain control message: its kind, its fields and its data. -/
def dctl (s : State) (chip kind : Nat) (fields data : List Byte) : State :=
  sendPkt s chip 0x3C 100 (chip * 2 ^ 44) (BitVec.ofNat 8 kind :: fields) data

/-- Send a domain control message to every current member but this chip. -/
def dctlAll (s : State) (kind : Nat) (fields : List Byte) : State :=
  ((maskList (fld s R.ADR_MEMBERS.CURRENT)).filter (· ≠ s.domain.own)).foldl (fun s c => dctl s c kind fields []) s

/-! ### Sides (R428) -/

/-- Chips this chip reaches through one port in UP. -/
def ownReach (s : State) : Nat :=
  (List.range 8).foldl (fun m p =>
    if portState s p = 2 ∧ flag s (R.ADR_PSTAT.PEER_VALID p) then maskAdd m (fld s (R.ADR_PSTAT.PEER_CHIP p)) else m) 0

/-- Chips a chip reaches through one of its ports. -/
def reachOf (s : State) (c : Nat) : Nat := if c = s.domain.own then ownReach s else tabGet s.domain.reach c 0

/-- May a chip belong to a side: configured, not quarantined, not left? -/
def sideChip (s : State) (c : Nat) : Bool :=
  bitOf (fld s R.ADR_MEMBERS.CONFIGURED) c && !bitOf (fld s R.ADR_PEERS.QUARANTINED) c && !s.domain.left.contains c

/-- A set of chips with those one port further. -/
def sideGrow (s : State) (m : Nat) : Nat :=
  (maskList m).foldl (fun m c => ((maskList (reachOf s c)).filter (sideChip s)).foldl maskAdd m) m

/-- The side of this chip. -/
def sideOf (s : State) : Nat := times (sideGrow s) 16 (maskAdd 0 s.domain.own)

/-- Has a side quorum? -/
def hasQuorum (s : State) (side : Nat) : Bool :=
  let all := maskList (fld s R.ADR_MEMBERS.CONFIGURED)
  let n := ((maskList side).filter all.contains).length
  2 * n > all.length || (2 * n = all.length && (all.head?.map (bitOf side)).getD false)

/-- FEATURES and minor of the domain: the intersection and the lowest over the current members (R433). -/
def setFeats (s : State) : State :=
  let l := maskList (fld s R.ADR_MEMBERS.CURRENT)
  let own := s.domain.own
  let feat := l.foldl (fun x c => Nat.land x (if c = own then 0xF else tabGet s.domain.feats c 0xF)) 0xF
  let minor := l.foldl (fun x c =>
    min x (if c = own then fld s R.ADR_PROTO.OWN % 256 else tabGet s.domain.protos c (fld s R.ADR_PROTO.OWN) % 256)) 255
  setFld (setFld s R.ADR_FEAT.val feat) R.ADR_PROTO.MINOR minor

/-- The lowest chip of a side with quorum becomes MEMBER and leader at once (R429); POOL_GEN is the last one committed,
or 1 where the domain forms (R287, R314). -/
def becomeLeader (s : State) : State :=
  let own := s.domain.own
  let s := setFld (setFld s R.ADR_CHIP.SELF_STATE 2) R.ADR_CHIP.ID own
  let s := setFeats (setFld s R.ADR_MEMBERS.CURRENT (maskAdd (fld s R.ADR_MEMBERS.CURRENT) own))
  let s := if fld s R.POOL_GEN.val = 0 then setFld s R.POOL_GEN.val (max 1 s.pool.genFlash) else s
  digestBoundary (adoptTables (bump s R.ADR_CHIP.MEPOCH) true)

/-- This chip must join again (R430, R435). -/
def joinAgain (s : State) : State :=
  let s := setFld (setFld (setFld s R.ADR_CHIP.SELF_STATE 1) R.ADR_CHIP.ID 0) R.ADR_MEMBERS.CURRENT 0
  onDomain s (fun d => { d with admitted := false, joinSent := false })

/-- The side is computed again: quorum, leader, and what follows of them (R428, R429, R434, R405). With another leader
the silence of peers is counted anew (R430, log entry 75). -/
def recompute (s : State) : State :=
  if s.domain.block = none ∨ selfState s = 0 ∨ selfState s = 3 ∨ selfState s = 4 then s
  else
    let side := sideOf s
    let q := hasQuorum s side
    let old := flag s R.ADR_LEADER.QUORUM
    let oldLeader := fld s R.ADR_LEADER.LEADER
    let leader := (maskList side).headD 0
    let s := setFlag (setFlag (setFld s R.ADR_LEADER.LEADER leader) R.ADR_LEADER.QUORUM q) R.ADR_LEADER.LEADER_VALID q
    let s := onDomain s (fun d => { d with routesDue := true })
    let s :=
      if leader = oldLeader ∧ old = q then s
      else onDomain (onTime s (fun t => { t with sinceAdmit := 0, goodRun := 0 })) (fun d => { d with
        hb := (maskList (fld s R.ADR_MEMBERS.CURRENT)).map (fun c => (c, extTime s)) })
    if !q then (if selfState s = 2 ∧ old then tablesState s 0 2 else s)
    else if selfState s = 1 then (if leader = s.domain.own then becomeLeader s else s)
    else if old then s
    else if leader = s.domain.own then tablesState s 2 0
    else joinAgain s

/-! ### Losses (R430, R215, R251) -/

/-- The home's own part (R215): lines that the lost chip held are poisoned, its copies and requests are forgotten. A chip
that left has written its lines back. -/
def homeLost (s : State) (chip : Nat) (poison : Bool) : State :=
  let s := s.coh.dir.foldl (fun s e =>
    match e.2 with
    | .excl c =>
      if c ≠ chip then s
      else setDir (if poison then poisonRange s (128 * e.1) 128 else s) e.1 none
    | .shared l =>
      let l := l.filter (· ≠ chip)
      setDir s e.1 (if l = [] then none else some (.shared l))) s
  let mine := s.coh.queue.filter (fun r => r.chip = chip)
  let s := mine.foldl (fun s r => sendPkt s chip 0x28 r.agent (128 * globalLine s r.line) [] []) s
  let s := onCoh s (fun h => { h with
    queue := h.queue.filter (fun r => r.chip ≠ chip)
    starving := h.starving.filter (fun x => x.2 / 128 ≠ chip)
    serving := h.serving.map (fun e =>
      if e.2.req.chip = chip then
        (e.1, { e.2 with req := ⟨if e.2.req.kind = .rdS then .rdS else .rdX, e.1, chipId s, 100, []⟩ })
      else e) })
  (s.coh.serving.map Prod.fst).foldl (fun s ln => homeAck s ln chip false none false) s

/-- The caching agent's part: copies of the lost chip's lines are discarded. -/
def cacheLost (s : State) (chip : Nat) : State :=
  onCoh s (fun h => { h with
    lines := h.lines.filter (fun l => homeOf l.1 ≠ chip)
    wbOut := h.wbOut.filter (fun l => homeOf l.1 ≠ chip)
    await := h.await.filter (fun r => homeOf r.line ≠ chip)
    held := h.held.filter (fun sn => sn.home ≠ chip)
    ucOut := h.ucOut.filter (fun x => x.1 / 2 ^ 44 ≠ chip)
    ucGot := h.ucGot.filter (fun x => x.1.1 / 2 ^ 44 ≠ chip) })

/-- Sync objects, queues and channels (R251): waiter entries and channel members of the lost chip go, waits homed there end
with LOST. -/
def syncLost (s : State) (chip : Nat) : State :=
  let gone (w : Waiter) : Bool := match w with
    | .remote c _ _ => c = chip
    | _ => false
  let s : State := { s with
    syncs := s.syncs.map (fun x => (x.1, { x.2 with waiters := x.2.waiters.filter (fun w => !gone w) })) }
  let s := (s.syncs.map Prod.fst).foldl evalWaiters s
  let s := (List.range 64).foldl (fun s ch => forN 128 (fun j s =>
    if flag s (R.MC_MEMBER.VALID ch j) ∧ fld s (R.MC_MEMBER.CHIP ch j) = chip then setFlag s (R.MC_MEMBER.VALID ch j) false
    else s) s) s
  let s := (s.cores.map Prod.fst).foldl (fun s c =>
    let k := core s c
    let s := match k.run with
      | .wait _ ch _ _ _ => if ch = chip then pilotEnd s c 7 else s
      | .poll _ ch => if ch = chip then pilotEnd s c 7 else s
      | _ => s
    let l := match k.held with
      | some h => h.asyncs
      | none => k.asyncs
    (l.filter (fun a => a.chip = chip)).foldl (fun s a => asyncEnd s c a.slot false true) s) s
  onQueues s (fun u => { u with
    adrIn := u.adrIn.filter (fun m => m.chip ≠ chip), chanIn := u.chanIn.filter (fun m => m.chip ≠ chip) })

/-- Packets to or from the lost chip are lost (R251), and their numbers start again. -/
def fabricLost (s : State) (chip : Nat) : State :=
  let other (k : Packet) : Bool := k.dst ≠ chip && k.src ≠ chip
  { s with fabric :=
    { waiting := s.fabric.waiting.filter other
      nextSeq := s.fabric.nextSeq.filter (fun x => x.1 / 4 ≠ chip)
      unacked := s.fabric.unacked.filter other
      expect := s.fabric.expect.filter (fun x => x.1 / 4 ≠ chip)
      early := s.fabric.early.filter other
      sinceAck := s.fabric.sinceAck.filter (fun x => x.1 / 4 ≠ chip) } }

/-- A chip ceases to be a member: LOST with poison (R215), or ABSENT after its leave without (R431). -/
def dropChip (s : State) (chip : Nat) (lost : Bool) : State :=
  let s := setFld s R.ADR_MEMBERS.CURRENT (maskDel (fld s R.ADR_MEMBERS.CURRENT) chip)
  let s := if lost then setFld s R.ADR_PEERS.LOST (maskAdd (fld s R.ADR_PEERS.LOST) chip) else s
  let s := bump s R.ADR_CHIP.MEPOCH
  let s := cacheLost (homeLost s chip lost) chip
  let s := lookupLost (syncLost s chip) chip
  let s := onPool s (fun p => { p with later := p.later.filter (fun q => q.chip ≠ chip) })
  let s := fabricLost s chip
  let s := onDomain s (fun d => { d with
    pend := (d.pend.filter (fun x => x.chip ≠ chip)).map (fun x => { x with confirms := setDel x.confirms chip })
    hb := tabErase d.hb chip })
  recompute (if isLeader s then setFeats s else s)

/-- A chip declares a peer lost, on its own declaration or the leader's broadcast, which the leader sends (R430). -/
def declareLost (s : State) (chip : Nat) : State :=
  if chip = s.domain.own ∨ !bitOf (fld s R.ADR_MEMBERS.CURRENT) chip then s
  else
    let lead := isLeader s
    let s := report (dropChip s chip true) 0x0502 100 [chip]
    if lead ∨ isLeader s then dctlAll s 8 [BitVec.ofNat 8 chip] else s

/-- Has a peer been silent for 5 ms, or is there no route to it (R430)? The leader hears the heartbeats, the others its
answers. -/
def peerGone (s : State) (chip : Nat) : Bool :=
  bitOf (fld s R.ADR_MEMBERS.CURRENT) chip && selfState s = 2 && chip ≠ s.domain.own &&
    (!hasRoute s chip || ((isLeader s || chip = fld s R.ADR_LEADER.LEADER) &&
      decide (tabGet s.domain.hb chip 0 + 5000000 ≤ extTime s)))

/-- A peer leaves as planned: it is ABSENT (R431). -/
def peerLeft (s : State) (chip : Nat) : State :=
  if chip = s.domain.own ∨ !bitOf (fld s R.ADR_MEMBERS.CURRENT) chip then s
  else dropChip (onDomain s (fun d => { d with left := setAdd d.left chip })) chip false

/-- Hold a chip QUARANTINED: its ports leave UP, and a member is lost (R432). -/
def quarantine (s : State) (chip : Nat) : State :=
  let s := report (setFld s R.ADR_PEERS.QUARANTINED (maskAdd (fld s R.ADR_PEERS.QUARANTINED) chip)) 0x0503 100 [chip, 2]
  let s := (List.range 8).foldl (fun s p =>
    if portState s p = 2 ∧ flag s (R.ADR_PSTAT.PEER_VALID p) ∧ fld s (R.ADR_PSTAT.PEER_CHIP p) = chip then
      maskRoutes (setPortState s p 4) p
    else s) s
  dctl (declareLost s chip) chip 13 [] []

/-! ### Joining (R429, R432, R433) -/

/-- Reachability of a chip arrives, and goes on hop by hop where it is new. -/
def reachIn (s : State) (chip mask : Nat) : State :=
  let s := onDomain s (fun d => { d with left := setDel d.left chip })
  if tabGet s.domain.reach chip 0 = mask ∨ chip = s.domain.own then s
  else
    let s := onDomain s (fun d => { d with reach := tabSet d.reach chip mask })
    let s := ((maskList (ownReach s)).filter (· ≠ chip)).foldl (fun s c =>
      dctl s c 1 (BitVec.ofNat 8 chip :: bytesLE 2 mask) []) s
    recompute s

/-- This chip tells its neighbours what it reaches. -/
def reachOut (s : State) : State :=
  let m := ownReach s
  let s := (maskList m).foldl (fun s c => dctl s c 1 (BitVec.ofNat 8 s.domain.own :: bytesLE 2 m) []) s
  recompute s

/-- JOIN leaves once the leader is known and a route to it exists. -/
def joinSend (s : State) : State :=
  let l := fld s R.ADR_LEADER.LEADER
  if selfState s = 1 ∧ flag s R.ADR_LEADER.LEADER_VALID ∧ l ≠ s.domain.own ∧ !s.domain.joinSent ∧ hasRoute s l then
    let s := onDomain s (fun d => { d with joinSent := true })
    dctl s l 2 (bytesLE 2 (fld s R.ADR_PROTO.OWN) ++ bytesLE 4 0xF ++ bytesLE 8 s.domain.die) (bytesLE 16 (digest s))
  else s

/-- The leader sends COMMIT to a joiner that every member has confirmed: members, minor, features, epoch, POOL_GEN. -/
def commitCheck (s : State) (chip : Nat) : State :=
  match s.domain.pend.find? (fun x => x.chip = chip) with
  | none => s
  | some x =>
    let need := (maskList (fld s R.ADR_MEMBERS.CURRENT)).filter (fun c => c ≠ s.domain.own ∧ c ≠ chip)
    if isLeader s ∧ x.applied ∧ need.all x.confirms.contains then
      let s := onDomain s (fun d => { d with pend := d.pend.filter (fun y => y.chip ≠ chip) })
      dctl s chip 6 (bytesLE 2 (fld s R.ADR_MEMBERS.CURRENT) ++ bytesLE 1 (fld s R.ADR_PROTO.MINOR) ++
        bytesLE 4 (fld s R.ADR_FEAT.val) ++ bytesLE 2 (fld s R.ADR_CHIP.MEPOCH) ++ bytesLE 4 (fld s R.POOL_GEN.val)) []
    else s

/-- The leader receives JOIN and checks PROTO and digest (R432). `expect` is the digest that will hold after the next
boundary (R438). Of two chips that claim one ID, the one with the lower DIE_ID is compared. -/
def joinIn (s : State) (chip die proto feats dig expect : Nat) : State :=
  if !isLeader s ∨ !bitOf (fld s R.ADR_MEMBERS.CONFIGURED) chip ∨ chip = s.domain.own then s
  else if (tabFind s.domain.dies chip).any (fun d => d < die) then report s 0x0503 100 [chip, 2]
  else
    let s := if (tabFind s.domain.dies chip).any (fun d => die < d) then declareLost (report s 0x0503 100 [chip, 2]) chip else s
    let s := onDomain s (fun d => { d with dies := tabSet d.dies chip die, left := setDel d.left chip })
    if proto / 256 ≠ fld s R.ADR_PROTO.OWN / 256 ∨ (dig ≠ digest s ∧ dig ≠ expect) then quarantine s chip
    else
      let s := setFld s R.ADR_PEERS.QUARANTINED (maskDel (fld s R.ADR_PEERS.QUARANTINED) chip)
      let s := onDomain s (fun d => { d with
        protos := tabSet d.protos chip proto, feats := tabSet d.feats chip feats
        pend := d.pend.filter (fun x => x.chip ≠ chip) ++ [⟨chip, extTime s, false, []⟩] })
      let s := dctl s chip 3 [] []
      ((maskList (fld s R.ADR_MEMBERS.CURRENT)).filter (fun c => c ≠ s.domain.own ∧ c ≠ chip)).foldl (fun s c =>
        dctl s c 4 (BitVec.ofNat 8 chip :: (bytesLE 2 proto ++ bytesLE 4 feats)) []) s

/-- A member learns of a joiner from the leader. -/
def memberIn (s : State) (chip proto feats : Nat) : State :=
  onDomain s (fun d => { d with
    protos := tabSet d.protos chip proto, feats := tabSet d.feats chip feats, left := setDel d.left chip
    pend := d.pend.filter (fun x => x.chip ≠ chip) ++ [⟨chip, extTime s, false, []⟩] })

/-- A member's confirmation reaches the leader. -/
def confirmIn (s : State) (member chip : Nat) : State :=
  commitCheck (onDomain s (fun d => { d with
    pend := d.pend.map (fun x => if x.chip = chip then { x with confirms := setAdd x.confirms member } else x) })) chip

/-- At a slot boundary: memberships received at least 50 µs before are applied and confirmed (R429). -/
def memberBoundary (s : State) : State :=
  let l := s.domain.pend.filter (fun x => !x.applied && x.at_ + 50000 ≤ extTime s)
  l.foldl (fun s x =>
    let s := setFld s R.ADR_MEMBERS.CURRENT (maskAdd (fld s R.ADR_MEMBERS.CURRENT) x.chip)
    let s := setFld s R.ADR_PEERS.LOST (maskDel (fld s R.ADR_PEERS.LOST) x.chip)
    let s := setFeats (bump s R.ADR_CHIP.MEPOCH)
    let s := onDomain s (fun d => { d with hb := tabSet d.hb x.chip (extTime s) })
    if isLeader s then
      commitCheck (onDomain s (fun d => { d with
        pend := d.pend.map (fun y => if y.chip = x.chip then { y with applied := true } else y) })) x.chip
    else
      let s := onDomain s (fun d => { d with pend := d.pend.filter (fun y => y.chip ≠ x.chip) })
      dctl s (fld s R.ADR_LEADER.LEADER) 5 [BitVec.ofNat 8 x.chip] []) s

/-- ADMIT reaches the joiner: its time checks start, and the count of 16 begins (R399, R429). -/
def admitIn (s : State) : State :=
  if selfState s ≠ 1 then s
  else
    let s := onDomain s (fun d => { d with admitted := true })
    setSuspect (onTime s (fun t => { t with sinceAdmit := 0, goodRun := 0, lastCheck := extTime s })) true

/-- COMMIT reaches the joiner: it is a MEMBER, its chip ID takes effect, and it adopts the leader's POOL_GEN, table states
and shard maps; its tables leave FROZEN, and the digest follows, at the boundary (R427, R429, R435). -/
def commitIn (s : State) (members minor feats mepoch gen : Nat) : State :=
  if selfState s ≠ 1 ∨ !s.domain.admitted then s
  else
    let s := setFld (setFld (setFld s R.ADR_CHIP.SELF_STATE 2) R.ADR_CHIP.ID s.domain.own) R.ADR_CHIP.MEPOCH mepoch
    let s := setFld (setFld (setFld s R.ADR_MEMBERS.CURRENT members) R.ADR_PROTO.MINOR minor) R.ADR_FEAT.val feats
    let s := setFld (setFld s R.ADR_PEERS.LOST 0) R.POOL_GEN.val gen
    let s := onDomain s (fun d => { d with hb := tabSet d.hb (fld s R.ADR_LEADER.LEADER) (extTime s), thaw := true })
    dropReplicas (adoptTables s false)

/-! ### Heartbeats (R430, R432) -/

/-- A member's heartbeat to the leader: PROTO, membership epoch, digest. -/
def heartbeatSend (s : State) : State :=
  if selfState s ≠ 2 ∨ isLeader s ∨ !flag s R.ADR_LEADER.LEADER_VALID then s
  else dctl s (fld s R.ADR_LEADER.LEADER) 10 (bytesLE 2 (fld s R.ADR_PROTO.OWN) ++ bytesLE 2 (fld s R.ADR_CHIP.MEPOCH))
    (bytesLE 16 (digest s))

/-- The leader compares a heartbeat and answers it, or quarantines the sender. A chip that is no member must join
again (R430). -/
def heartbeatIn (s : State) (chip proto dig expect : Nat) : State :=
  if !isLeader s ∨ !bitOf (fld s R.ADR_MEMBERS.CURRENT) chip then s
  else if proto / 256 ≠ fld s R.ADR_PROTO.OWN / 256 ∨ (dig ≠ digest s ∧ dig ≠ expect) then quarantine s chip
  else dctl (onDomain s (fun d => { d with hb := tabSet d.hb chip (extTime s) })) chip 11 [] []

/-- The leader's answer arrives. -/
def heartbeatAnswered (s : State) (chip : Nat) : State :=
  if chip = fld s R.ADR_LEADER.LEADER ∧ flag s R.ADR_LEADER.LEADER_VALID then
    onDomain s (fun d => { d with hb := tabSet d.hb chip (extTime s) })
  else s

/-! ### A planned leave of this chip (R431) -/

/-- The chip enters LEAVING: its homes recall every remote copy, and it writes back and discards its own. -/
def leaveStart (s : State) : State :=
  if selfState s ≠ 2 then s
  else
    let s := setFld s R.ADR_CHIP.SELF_STATE 4
    let s := (s.coh.dir.map Prod.fst).foldl (fun s ln =>
      if (tabFind s.coh.serving ln).isSome then s else homeStart s ⟨.reclaim, ln, chipId s, 100, []⟩) s
    (s.coh.lines.map Prod.fst).foldl evictLine s

/-- The leave is complete when nothing recalled or written back is outstanding: LEAVE goes to every member. -/
def leaveFinish (s : State) : State :=
  if selfState s = 4 ∧ s.coh.serving = [] ∧ s.coh.wbOut = [] then
    ((maskList (fld s R.ADR_MEMBERS.CURRENT)).filter (· ≠ s.domain.own)).foldl (fun s c =>
      emit s .dctl [c, 7] []) s
  else s

/-! ### Routes (R422) -/

/-- Hops between two chips over the ports in UP, if there is a path. -/
def hops (s : State) (a b : Nat) : Option Nat :=
  (List.range 17).find? (fun n => bitOf (times (sideGrow s) n (maskAdd 0 a)) b)

/-- The parent of a chip in the breadth-first tree rooted at the leader, the lowest ID one hop nearer. -/
def treeParent (s : State) (root c : Nat) : Option Nat :=
  (List.range 16).find? (fun x => bitOf (reachOf s c) x && match hops s root x, hops s root c with
    | some i, some j => i + 1 = j
    | _, _ => false)

/-- A chip with its ancestors up to the root. -/
def treePath (s : State) (root : Nat) : Nat → Nat → List Nat
  | 0, c => [c]
  | n + 1, c =>
    match treeParent s root c with
    | some x => c :: treePath s root n x
    | none => [c]

/-- The neighbour on the tree's path from this chip to `d`: down toward `d` where `d` lies below, otherwise up. -/
def treeNext (s : State) (root d : Nat) : Option Nat :=
  let own := s.domain.own
  let l := treePath s root 16 d
  match (l.takeWhile (· ≠ own)).getLast? with
  | some x => if l.contains own then some x else treeParent s root own
  | none => none

/-- Ports in UP to a neighbour, in rising order. -/
def portsTo (s : State) (c : Nat) : List Nat :=
  (List.range 8).filter (fun p => portState s p = 2 && flag s (R.ADR_PSTAT.PEER_VALID p) && fld s (R.ADR_PSTAT.PEER_CHIP p) = c)

/-- Install the routes to one chip. -/
def routeTo (s : State) (d : Nat) : State :=
  let own := s.domain.own
  let near (c : Nat) : Bool := match hops s c d, hops s own d with
    | some i, some j => i + 1 = j
    | _, _ => false
  let min := if sideChip s d && d ≠ own then ((maskList (ownReach s)).filter near).flatMap (portsTo s) else []
  let s := setFld s (R.ADR_ROUTE.MIN_PORTS d) (min.foldl (fun m p => maskAdd m p) 0)
  match (if min = [] then none else (treeNext s (fld s R.ADR_LEADER.LEADER) d).bind (fun c => (portsTo s c).head?)) with
  | some p => setFlag (setFld s (R.ADR_ROUTE.ESC_PORT d) p) (R.ADR_ROUTE.ESC_VALID d) true
  | none => setFlag s (R.ADR_ROUTE.ESC_VALID d) false

/-- At a slot boundary: routes that are due are installed (R422). -/
def routesBoundary (s : State) : State :=
  if !s.domain.routesDue ∨ s.domain.block = none then s
  else (List.range 16).foldl routeTo (onDomain s (fun d => { d with routesDue := false }))

/-- At the boundary of COMMIT the tables leave FROZEN for the state that the block gives them (R435). -/
def thawBoundary (s : State) : State :=
  match s.domain.block with
  | some b =>
    if s.domain.thaw then
      (List.range 64).foldl (fun s t =>
        if flag s (R.TD_CTL.EN t) ∧ fld s (R.TD_STATE.STATE t) = 2 then setTableState s t (fieldLE b (0x200 + 32 * t + 12) 4 % 4) else s)
        (onDomain s (fun d => { d with thaw := false }))
    else s
  | none => s

/-- What a slot boundary does to the domain: routes, memberships, tables, JOIN, digest. -/
def domainBoundary (s : State) : State := digestBoundary (joinSend (thawBoundary (memberBoundary (routesBoundary s))))

/-! ### Accepting a block (R429) -/

/-- Warden accepts a block: it is stored in canonical form, the configured ports are enabled and train, one in QUARANTINE
again, and the chip is JOINING. -/
def domainAccept (s : State) (b : List Byte) : State :=
  let c := canonBlock b
  let s := if c = b then s else bump s R.ADR_BENIGN.val
  let own := ((maskList (blockMembers c)).find? (fun x => blockDie c x = s.domain.die)).getD 0
  let s := onDomain s (fun d => { d with
    block := some c, own := own, admitted := false, joinSent := false, reach := [], pend := [], left := [], dies := [], routesDue := true, thaw := false })
  let s := setFld (setFld s R.ADR_MEMBERS.CONFIGURED (blockMembers c)) R.ADR_CHIP.SELF_STATE 1
  let s := setFld (setFld (setFld s R.ADR_CHIP.ID 0) R.ADR_MEMBERS.CURRENT 0) R.ADR_PEERS.QUARANTINED 0
  let s := setReg (setDigest s (digestOf c)) R.ADR_LEADER.LEADER.off 0
  recompute ((List.range 8).foldl (fun s p =>
    let on := (blockPort c own p).2.2
    let old := flag s (R.ADR_PCTL.EN p)
    let s := pctlChanged (setFlag s (R.ADR_PCTL.EN p) on) p old
    if on ∧ portState s p = 4 then portTrain (freshPort s p) p else s) s)

/-! ### Meanings -/

/-- A row about a peer chip. -/
def chipRow (chip : Nat) (f : State → State) (s : State) : Host.Outcome State Fault Refusal :=
  if chip < 16 then finish (f s) else .fault .absentUnit

/-- REACHABILITY (R429): Wardens exchange reachability: what `chip` reaches arrives, or this chip tells its own. -/
def execReachability (chip mask : Nat) (s : State) : Host.Outcome State Fault Refusal :=
  chipRow chip (fun s => if chip = s.domain.own then reachOut s else reachIn s chip mask) s

/-- ADMIT (R429): the joiner is admitted and starts its time checks. -/
def execAdmitMember (chip : Nat) (s : State) : Host.Outcome State Fault Refusal :=
  chipRow chip (fun s => if chip = fld s R.ADR_LEADER.LEADER then admitIn s else s) s

/-- COMMIT (R429): the joiner becomes MEMBER and its chip ID takes effect. -/
def execCommitMember (members minor feats mepoch gen : Nat) (s : State) : Host.Outcome State Fault Refusal :=
  finish (commitIn s members minor feats mepoch gen)

/-- LEAVE (R431): a peer that leaves is marked ABSENT. -/
def execLeave (chip : Nat) (s : State) : Host.Outcome State Fault Refusal := chipRow chip (fun s => peerLeft s chip) s

/-- HEARTBEAT_SEND (R430): `after` ticks later, every 1 ms, a member sends its heartbeat to the leader. -/
def execHeartbeatSend (after : Nat) (s : State) : Host.Outcome State Fault Refusal := finish (heartbeatSend (advance s after))

/-- HEARTBEAT_ANSWER (R430): the leader's answer to the heartbeat arrives. -/
def execHeartbeatAnswer (chip : Nat) (s : State) : Host.Outcome State Fault Refusal :=
  chipRow chip (fun s => heartbeatAnswered s chip) s

/-- TIME_CHECK_SEND (R398): `after` ticks later, every 1 ms, a chip that is not the leader sends a time check. -/
def execTimeCheckSend (after : Nat) (s : State) : Host.Outcome State Fault Refusal :=
  let s := advance s after
  finish (checkSend s)

end Sys2Proof.Machine
end

