-- ==== Sys2Proof/Machine/HostNet.lean ====
section
/-!
DEFINITION. The host port, the host copy engine, Ethernet and the boot flash (R441 to R468, R391 to R395).
-/
namespace Sys2Proof.Machine

/-- Change the host port. -/
def onHost (s : State) (f : HostIo → HostIo) : State := { s with host := f s.host }

/-- Is the chip in the root role (R442)? -/
def rootRole (s : State) : Bool := flag s R.HIF_STAT.ROLE

/-! ### MSI-X (R448) -/

/-- A vector is unmasked: sent now where its PBA bit is set. -/
def msixUnmask (s : State) (v : Nat) : State :=
  let s := setFlag s (R.MSIX.MASK v) false
  let f : Fld := ⟨(R.PBA.PENDING (v / 32)).off, v % 32, v % 32⟩
  if flag s f then msix (setFlag s f false) v else s

/-- The MSI-X table and PBA as reset leaves them. -/
def msixClear (s : State) : State :=
  { s with regs := s.regs.filter (fun x => !(0x5A1000 ≤ x.1 && x.1 < 0x5A1810)) }

/-! ### Windows (R445, R451) -/

/-- A host write through window B: coherent LP5X writes of agent 97, unit by unit; one with EP set poisons the lines it
covers (R447). In the root role there is no window. -/
def windowBWrite (s : State) (off : Nat) (d : List Byte) (ep : Bool) : State :=
  if rootRole s ∨ 2 ^ (30 + s.host.barB) ≤ off then s
  else
    let chip := if flag s R.HIF_CTL.BWIN_LOCAL then chipId s else fld s R.HIF_CTL.BWIN_CHIP
    let ga := chip * 2 ^ 44 + off
    let s := if ep then bump s R.HIF_POISON.val else s
    if lp5xEnd ≤ off ∨ !flag s R.HIF_STAT.POOL_READY then reportUnmapped s .host ga 1
    else (unitPieces ga d.length).foldl (fun s p => unitWrite s .host (ga + p.1) (sliceBytes d p.1 p.2) ep) s

/-- An inbound write of the downstream device to memory, in the root role. One outside usable LP5X gets Unsupported
Request. -/
def inboundWrite (s : State) (addr : Nat) (d : List Byte) (ep : Bool) : State :=
  if !rootRole s then s
  else
    let s := if ep then bump s R.HIF_POISON.val else s
    let ok := addr + d.length ≤ lp5xEnd &&
      (List.range (d.length / 4096 + 2)).all (fun i => !s.marks.pages.contains (addr / 4096 + i) || addr + d.length ≤ 4096 * (addr / 4096 + i))
    if !ok then emit s .response [97, 1, addr] []
    else (unitPieces addr d.length).foldl (fun s p =>
      unitWrite s .hcopy (ownGa s (addr + p.1)) (sliceBytes d p.1 p.2) ep) s

/-! ### The host copy engine (R449, R450) -/

/-- A field of a descriptor. -/
def hf (d : List Byte) (byte n hi lo : Nat) : Nat := bitsOf (fieldLE d byte n) hi lo

/-- LEN of a descriptor. -/
def hLen (d : List Byte) : Nat := hf d 0x18 4 23 0 + 1

/-- May this agent write the submit page of channel `c`? -/
def hdmaOpen (s : State) (w : Who) (c : Nat) : Bool :=
  match w with
  | .warden => true
  | .pilot k => activePart s k = some (fld s (R.HDMA_CFG.OWNER c))
  | .vec k => activePart s k = some (fld s (R.HDMA_CFG.OWNER c))
  | _ => false

/-- Descriptors held by a channel. -/
def hdmaHeld (s : State) (c : Nat) : List (List Byte) := tabGet s.host.hdma c []

/-- Store the descriptors of a channel, with their count. -/
def setHdma (s : State) (c : Nat) (l : List (List Byte)) : State :=
  onHost (setFld s (R.HDMA_STAT.val c) l.length) (fun h => { h with
    hdma := tabSet h.hdma c l, hdmaAt := tabSet h.hdmaAt c (extTime s) })

/-- A descriptor is committed: held, or dropped where the channel holds 16 or is not enabled. -/
def hdmaCommit (s : State) (c : Nat) (d : List Byte) : State :=
  let l := hdmaHeld s c
  if 16 ≤ l.length ∨ !flag s (R.HDMA_CFG.EN c) then report (bump s (R.HDMA_STAT.DROPPED c)) 0x0605 97 [0, c]
  else if l = [] then setHdma s c [d]
  else onHost (setFld s (R.HDMA_STAT.val c) (l.length + 1)) (fun h => { h with hdma := tabSet h.hdma c (l ++ [d]) })

/-- A write to a submit page (R222). -/
def hdmaWrite (s : State) (w : Who) (c off : Nat) (d : List Byte) : State :=
  if !hdmaOpen s w c then reportUnmapped s w (ownGa s (0xA00005D0000 + 0x1000 * c + off)) 1
  else
    match stage s 4 (stageSrc s w) off d with
    | (none, s) => s
    | (some m, s) => hdmaCommit s c m

/-- May the engine reach this range for a channel? -/
def hdmaOk (s : State) (c ga n : Nat) : Bool := inLp5x s ga n || inBanks0to9 s (fld s (R.HDMA_CFG.OWNER c)) ga n

/-- Is a descriptor bad? -/
def hdmaBad (s : State) (c : Nat) (d : List Byte) : Bool :=
  let inl := hf d 0 4 1 1 = 1
  if inl then hf d 0 4 0 0 = 1 || 16 < hLen d else !hdmaOk s c (hf d 0x10 6 47 0) (hLen d)

/-- The descriptor in front ends (R450): record, DONE_SYNC, MSI-X; the next one starts. -/
def hdmaEnd (s : State) (c status moved : Nat) : State :=
  match hdmaHeld s c with
  | [] => s
  | d :: rest =>
    let s := setHdma s c rest
    let ga := hf d 0x20 6 47 0
    if ga % 8 ≠ 0 ∨ !hdmaOk s c ga 8 then reportUnmapped s .hcopy ga 1
    else
      let s := unitWrite s .hcopy ga (bytesLE 8 (status + 2 ^ 32 * moved)) false
      let s := signalDone s (hf d 0 4 2 2 = 1) (hf d 4 2 13 0) .hcopy
      if hf d 0 4 3 3 = 1 then msixAfter s .hcopy (hf d 0 4 10 4) else s

/-- The data of a to-host descriptor, with its poison. -/
def hdmaSource (s : State) (d : List Byte) : Res (List Byte × Bool) :=
  if hf d 0 4 1 1 = 1 then .ok (sliceBytes d 0x28 (hLen d), false) s
  else readRange s .hcopy (hf d 0x10 6 47 0) (hLen d)

/-- Move what a descriptor moves, at most `n` bytes: to the host from memory, or from the host what came. `none` is an
unmapped access. Gives the bytes moved and whether any was poisoned. -/
def hdmaMove (s : State) (d came : List Byte) (ep : Bool) (n : Nat) : Option (Nat × Bool) × State :=
  let host := fieldLE d 8 8
  if hf d 0 4 0 0 = 0 then
    match hdmaSource s d with
    | .unmapped s => (none, reportUnmapped s .hcopy (hf d 0x10 6 47 0) 1)
    | .wait s => (some (0, false), s)
    | .ok x s =>
      let k := min n x.1.length
      let s := if x.2 then bump s R.HIF_POISON.val else s
      (some (k, x.2), emit s .hostWrite [host, num x.2] (x.1.take k))
  else
    let s := if ep then bump s R.HIF_POISON.val else s
    let m := came.take (min n (hLen d))
    match writeRange s .hcopy (hf d 0x10 6 47 0) m ep with
    | .ok _ s => (some (m.length, ep), s)
    | .wait s => (some (m.length, ep), { s with posted := s.posted ++ [.write .hcopy (hf d 0x10 6 47 0) m ep] })
    | .unmapped s => (none, reportUnmapped s .hcopy (hf d 0x10 6 47 0) 1)

/-- Does the transfer wait for a line of this chip's memory? -/
def hdmaWaits (s : State) (d : List Byte) : Bool :=
  hf d 0 4 0 0 = 0 && match hdmaSource s d with
    | .wait _ => true
    | _ => false

/-- The descriptor in front has run on the link: `came` is what the host returned, `n` the bytes moved where a UR or CA
completion ended it. -/
def hdmaDone (s : State) (c : Nat) (came : List Byte) (ep : Bool) (err : Option Nat) : State :=
  match hdmaHeld s c with
  | [] => s
  | d :: _ =>
    if hdmaBad s c d then hdmaEnd s c 1 0
    else if !flag s R.HIF_STAT.LINK_UP then hdmaEnd s c 5 0
    else if hdmaWaits s d then (hdmaMove s d came ep 0).2
    else
      match hdmaMove s d came ep (err.getD (hLen d)) with
      | (none, s) => hdmaEnd s c 1 0
      | (some (n, p), s) =>
        if err.isSome then hdmaEnd s c 2 n
        else
          let s := if hf d 0 4 0 0 = 0 then emit s .hostRead [fieldLE d 8 8 + hLen d - 1, 0] [] else s
          hdmaEnd s c (if p then 4 else 0) n

/-- The descriptor in front fails with a status after the part given was moved. -/
def hdmaFail (s : State) (c status : Nat) (part : List Byte) : State :=
  match hdmaHeld s c with
  | [] => s
  | d :: _ =>
    if hdmaBad s c d then hdmaEnd s c 1 0
    else
      match hdmaMove s d part false part.length with
      | (none, s) => hdmaEnd s c 1 0
      | (some (n, _), s) => hdmaEnd s c status n

/-- Every descriptor held ends with a status (R466, R467). -/
def hdmaAll (s : State) (status : Nat) (parts : List PartCopy) : State :=
  (List.range 8).foldl (fun s c =>
    let part := ((parts.find? (fun x => x.chan = c)).map (fun x => x.data)).getD []
    let n := (hdmaHeld s c).length
    if n = 0 then s else times (fun s => hdmaFail s c status []) (n - 1) (hdmaFail s c status part)) s

/-- The descriptor in front has had no completion for 50 ms. -/
def hdmaTimeout (s : State) (c : Nat) (part : List Byte) : State :=
  if hdmaHeld s c ≠ [] ∧ tabGet s.host.hdmaAt c 0 + 50000000 ≤ extTime s then hdmaFail s c 3 part else s

/-- A function-level reset, as far as the port goes (R466): copies end, the MSI-X table, the BAR sizes and the host's
staging buffer clear. -/
def portFlr (s : State) (parts : List PartCopy) : State :=
  let s := clearStaged (msixClear (hdmaAll s 6 parts)) 97
  onHost (setFlag s R.HIF_STAT.FLR_SEEN true) (fun h => { h with barB := 4 })

/-- The PCIe link goes down. -/
def pcieDown (s : State) (parts : List PartCopy) : State :=
  hdmaAll (setFld (setFld (setFlag s R.HIF_STAT.LINK_UP false) R.HIF_STAT.SPEED 0) R.HIF_STAT.WIDTH 0) 5 parts

/-! ### Ethernet (R453 to R458, R391 to R395) -/

/-- Change Ethernet. -/
def onEth (s : State) (f : EthSt → EthSt) : State := { s with eth := f s.eth }

/-- Descriptors in a ring. -/
def ringSize (s : State) (p r : Nat) : Nat := 2 ^ fld s (R.RING_CFG.SIZE_LOG2 p r)

/-- The global address of the descriptor at HEAD. -/
def ringDesc (s : State) (p r : Nat) : Nat :=
  ownGa s (32 * fld s (R.RING_BASE.val p r) + 2 ^ 32 * fld s (R.RING_BASE.val_HI p r) + 32 * fld s (R.RING_HEAD.HEAD p r))

/-- Descriptors between HEAD and TAIL. -/
def ringHeld (s : State) (p r : Nat) : Nat :=
  (fld s (R.RING_TAIL.TAIL p r) + ringSize s p r - fld s (R.RING_HEAD.HEAD p r)) % ringSize s p r

/-- Does this agent own a ring (R454)? -/
def ringOwner (s : State) (w : Who) (p r : Nat) : Bool :=
  let o := fld s (R.RING_CFG.OWNER p r)
  match w with
  | .pilot c => activePart s c = some o
  | .vec c => activePart s c = some o
  | .host => o = 12
  | _ => false

/-- The message of a ring's notification (R457). -/
def ringNotify (s : State) (p r : Nat) : State :=
  let s := onEth s (fun e => { e with done := tabErase e.done (8 * p + r) })
  let m := bytesLE 1 p ++ bytesLE 1 r ++ bytesLE 2 (fld s (R.RING_HEAD.HEAD p r)) ++ List.replicate 60 0
  sendAfter s .eth (fld s (R.RING_CFG.NOTIFY_Q p r)) m

/-- A completion of a ring: HEAD advances, and the ring notifies where enough have accumulated. -/
def ringDone (s : State) (p r : Nat) : State :=
  let s := setFld s (R.RING_HEAD.HEAD p r) ((fld s (R.RING_HEAD.HEAD p r) + 1) % ringSize s p r)
  if !flag s (R.RING_CFG.NOTIFY_EN p r) then s
  else
    let (n, t) := tabGet s.eth.done (8 * p + r) (0, extTime s)
    if fld s (R.RING_CFG.NOTIFY_EVERY p r) ≤ n + 1 then ringNotify s p r
    else onEth s (fun e => { e with done := tabSet e.done (8 * p + r) (n + 1, t) })

/-- A one's-complement contribution of bytes that stand at an offset of the frame. -/
def onesSum (d : List Byte) (off : Nat) : Nat :=
  ((List.zip (List.range d.length) d).map (fun x => x.2.toNat * (if (off + x.1) % 2 = 0 then 256 else 1))).sum

/-- The bytes of a number, most significant first. -/
def bytesBE (n x : Nat) : List Byte := (bytesLE n x).reverse

/-- The number of bytes, most significant first. -/
def numBE (l : List Byte) : Nat := numLE l.reverse

/-- A one-step frame as it leaves (R394): the correction field grown by the difference, and the compensation bytes
rewritten so that the checksum stays. -/
def oneStep (frame : List Byte) (corr csum : Nat) (delta : Int) : List Byte :=
  let old := sliceBytes frame corr 8
  let new := bytesBE 8 (wrapTo 64 ((numBE old : Int) + delta * 2 ^ 16))
  let f := putBytes frame corr new
  if csum = 0 then f
  else
    let comp := sliceBytes f csum 2
    let v := (onesSum old corr + onesSum comp csum + 65535 * 16 - onesSum new corr) % 65535
    putBytes f csum (if csum % 2 = 0 then bytesBE 2 v else bytesLE 2 v)

/-- What a transmit descriptor gives for a frame: its status, the frame that leaves, and the stamp. Internal latency is
applied before the moment of the row (R392). -/
def txFrame (s : State) (p : Nat) (d frame : List Byte) (poison bad : Bool) : Nat × Option (List Byte) × Nat :=
  let w := fieldLE d 8 4
  let len := bitsOf w 13 0
  let one := bitOf w 15
  let corr := bitsOf w 26 16
  let csum := bitsOf (fieldLE d 0xC 4) 10 0
  let egress := (nowNs s + fld s (R.ETH_TXLAT.val p)) % 2 ^ 32
  let diff := (egress + 2 ^ 32 - fieldLE d 0x10 4) % 2 ^ 32
  if !flag s (R.ETH_STAT.LINK p) then (5, none, egress)
  else if bad ∨ len < 64 ∨ fld s (R.ETH_CTL.MAXLEN p) < len then (3, none, egress)
  else if one ∧ (p = 2 ∨ len < corr + 8 ∨ len < csum + 2) then (1, none, egress)
  else if poison then (4, none, egress)
  else if !one then (0, some frame, egress)
  else if diff = 2 ^ 31 then (2, some frame, egress)
  else (0, some (oneStep frame corr csum (signed 32 diff)), egress)

/-- The write-back of a transmit descriptor (Table 14-6). -/
def txBack (s : State) (d : List Byte) (status egress : Nat) : List Byte :=
  bytesLE 4 (status + 2 ^ 16 * fld s R.TIME_STAT.STEP_SEQ + 2 ^ 31) ++
    bytesLE 4 (if bitOf (fieldLE d 8 4) 14 ∧ (status = 0 ∨ status = 2) then egress else fieldLE d 0x1C 4)

/-- Count a frame's outcome and let it leave. -/
def txCount (s : State) (p status : Nat) (frame : Option (List Byte)) : State :=
  let s := match frame with
    | some f => bump (emit s .frame [p] f) (R.ETH_CNT.RX_OK p 4)
    | none => s
  if status = 5 then bump s (R.ETH_CNT.RX_OK p 5) else s

/-- The hardware takes the descriptor at HEAD of a transmit ring (R455). -/
def txOne (s : State) (p r : Nat) : State :=
  if ringHeld s p r = 0 then s
  else
    match readRange s .eth (ringDesc s p r) 32 with
    | .wait s => s
    | .unmapped s => reportUnmapped s .eth (ringDesc s p r) 1
    | .ok d s =>
      let ga := hf d.1 0 6 47 0
      let len := bitsOf (fieldLE d.1 8 4) 13 0
      let go (frame : List Byte) (poison bad : Bool) (s : State) : State :=
        let (st, f, eg) := txFrame s p d.1 frame poison bad
        let s := txCount s p st f
        ringDone (unitWrite s .eth (ringDesc s p r + 0x18) (txBack s d.1 st eg) false) p r
      if !inLp5x s ga len ∨ !flag s (R.ETH_STAT.LINK p) then go [] false (!inLp5x s ga len) s
      else
        match readRange s .eth ga len with
        | .wait s => s
        | .unmapped s => go [] false true (reportUnmapped s .eth ga 1)
        | .ok f s => go f.1 f.2 false s

/-- Does a port send now: enabled, and not held by a pause? -/
def txReady (s : State) (p : Nat) : Bool :=
  flag s (R.ETH_CTL.EN p) && !decide (extTime s < tabGet s.eth.paused p 0)

/-- Nanoseconds of `n` pause quanta of 512 bit times, by SPEED. -/
def pauseNs (s : State) (p n : Nat) : Nat :=
  let sp := fld s (R.ETH_CTL.SPEED p)
  if sp = 0 then n * 512 / 25 else if sp = 1 then n * 512 / 10 else n * 512

/-- Is it a pause frame (Annex 31B)? -/
def isPause (f : List Byte) : Bool := numBE (sliceBytes f 0 6) = 0x0180C2000001 && numBE (sliceBytes f 12 4) = 0x88080001

/-- The filter entry that a frame matches first (R456). The first byte of an address is the lowest of DMAC. -/
def filterOf (s : State) (p : Nat) (f : List Byte) : Option Nat :=
  (List.range 16).find? (fun i =>
    flag s (R.FILT_CFG.VALID p i) &&
      (!flag s (R.FILT_CFG.MATCH_DMAC p i) ||
        fieldLE f 0 6 = fld s (R.FILT.DMAC p i) + 2 ^ 32 * fld s (R.FILT.DMAC_HI p i)) &&
      (!flag s (R.FILT_CFG.MATCH_ETYPE p i) || numBE (sliceBytes f 12 2) = fld s (R.FILT_CFG.ETYPE p i)))

/-- A frame goes into a receive ring (R456). -/
def rxInto (s : State) (p r filt : Nat) (f : List Byte) : State :=
  if ringHeld s p r = 0 then bump s (R.ETH_CNT.RX_OK p 3)
  else
    match readRange s .eth (ringDesc s p r) 32 with
    | .wait s => bump s (R.ETH_CNT.RX_OK p 3)
    | .unmapped s => reportUnmapped s .eth (ringDesc s p r) 1
    | .ok d s =>
      let ga := hf d.1 0 6 47 0
      let n := min f.length (bitsOf (fieldLE d.1 8 4) 13 0)
      if !inLp5x s ga n then reportUnmapped s .eth ga 1
      else
        let st := if d.2 then 2 else if n < f.length then 1 else 0
        let s := if d.2 then s else unitWrite s .eth ga (f.take n) false
        let stamp := (nowNs s + 2 ^ 32 - fld s (R.ETH_RXLAT.val p)) % 2 ^ 32
        let back := bytesLE 4 (f.length % 2 ^ 14 + 2 ^ 16 * (filt % 16) + 2 ^ 21 * st + 2 ^ 31) ++ bytesLE 4 stamp ++
          bytesLE 1 (fld s R.TIME_STAT.STEP_SEQ)
        ringDone (unitWrite (bump s (R.ETH_CNT.RX_OK p 0)) .eth (ringDesc s p r + 0x10) back false) p r

/-- A frame arrives on a port. -/
def rxFrame (s : State) (p : Nat) (f : List Byte) (fcsOk parityOk : Bool) : State :=
  if !flag s (R.ETH_CTL.EN p) then s
  else if !parityOk then report (bump s (R.ETH_CNT.RX_OK p 6)) 0x0604 102 [p]
  else if !fcsOk then bump s (R.ETH_CNT.RX_OK p 1)
  else if f.length < 64 ∨ fld s (R.ETH_CTL.MAXLEN p) < f.length then bump s (R.ETH_CNT.RX_OK p 2)
  else if isPause f ∧ flag s (R.ETH_CTL.PAUSE_RX p) then
    onEth (bump s (R.ETH_CNT.RX_OK p 0)) (fun e => { e with
      paused := tabSet e.paused p (extTime s + pauseNs s p (numBE (sliceBytes f 16 2))) })
  else if p = 2 then emit (bump s (R.ETH_CNT.RX_OK p 0)) .notice [p] f
  else
    match filterOf s p f with
    | some i => rxInto s p (4 + fld s (R.FILT_CFG.RING p i)) i f
    | none =>
      if flag s (R.ETH_CTL.PROMISC p) then rxInto (tickFresh s) p 4 (Config.noFilter s.fresh) f else s

/-- A ring's notification is due 10 µs after its oldest completion not yet notified (R457). -/
def ringDue (s : State) (p r : Nat) : State :=
  match tabFind s.eth.done (8 * p + r) with
  | some (_, t) => if t + 10000 ≤ extTime s then ringNotify s p r else s
  | none => s

/-! ### Flash (R459 to R464) -/

/-- Change the flash controller. -/
def onFlash (s : State) (f : FlashSt → FlashSt) : State := { s with flash := f s.flash }

/-- Does a command leave its device busy: a program or an erase? -/
def flashWrites (op : Nat) : Bool := op = 0x12 || op = 0x21 || op = 0xDC

/-- BUSY of a device. -/
def setFlashBusy (s : State) (dev : Nat) (b : Bool) : State :=
  if dev = 0 then setFlag s R.XSPI_STAT.BUSY_A b else setFlag s R.XSPI_STAT.BUSY_B b

/-- The commands of Table 14-8 other than READ. -/
def flashOps : List Nat := [0x05, 0x9F, 0x5A, 0x06, 0x12, 0x21, 0xDC, 0x66, 0x99, 0xB9, 0xAB]

/-- Warden issues a command. It programs and erases only the device that does not hold the image it booted. -/
def xspiCmd (s : State) (dev op addr : Nat) (d : List Byte) : State :=
  if !flashOps.contains op ∨ (flashBusy s dev ∧ op ≠ 0x05) then s
  else if flashWrites op ∧ fld s R.WDN_STAT.IMAGE = dev then s
  else
    let s := setFld s R.XSPI_CMD.val op
    let s := if flashWrites op then setFlashBusy s dev true else s
    emit (onFlash s (fun x => { x with cmds := x.cmds ++ [⟨dev, op, addr, d⟩] })) .flash [dev, op, addr] d

/-- The effect of a command on the device: an erase leaves ones, a program clears bits (log entry 29). -/
def flashEffect (s : State) (c : FlashCmd) : State :=
  if c.op = 0x21 then storeBytes s (flashAddr c.dev (c.addr / 4096 * 4096)) (List.replicate 4096 255)
  else if c.op = 0xDC then storeBytes s (flashAddr c.dev (c.addr / 65536 * 65536)) (List.replicate 65536 255)
  else if c.op = 0x12 then
    let n := min c.data.length (256 - c.addr % 256)
    let old := bytesAt s (flashAddr c.dev c.addr) n
    storeBytes s (flashAddr c.dev c.addr) ((List.zip old c.data).map (fun x => x.1 &&& x.2))
  else s

/-- The oldest command of a device completes: its effect is there, and the device's buffer is invalidated. -/
def xspiDone (s : State) (dev : Nat) : State :=
  match s.flash.cmds.find? (fun c => c.dev = dev) with
  | none => s
  | some c =>
    let s := onFlash (flashEffect s c) (fun x => { x with cmds := x.cmds.erase c, buf := tabErase x.buf dev })
    if flashWrites c.op then setFlashBusy s dev false else s

/-! ### Meanings -/

/-- PCIE_LINK_UP (R468): training completes. -/
def execPcieLinkUp (speed width : Nat) (s : State) : Host.Outcome State Fault Refusal :=
  if linkHeld s 0 0 then finish s
  else finish (setFld (setFld (setFlag s R.HIF_STAT.LINK_UP true) R.HIF_STAT.SPEED speed) R.HIF_STAT.WIDTH width)

/-- PCIE_LINK_DOWN (R467): the link goes down; copies end with LINK_DOWN. -/
def execPcieLinkDown (parts : List PartCopy) (s : State) : Host.Outcome State Fault Refusal := finish (pcieDown s parts)

/-- MSIX_UNMASK (R448): a vector is unmasked. -/
def execMsixUnmask (v : Nat) (s : State) : Host.Outcome State Fault Refusal :=
  if v < 128 then finish (msixUnmask s v) else .fault .absentUnit

/-- HOST_COPY_DESCRIPTOR (R449): a write to the submit page of a channel. -/
def execHostCopyDescriptor (w : Who) (c off : Nat) (d : List Byte) (s : State) : Host.Outcome State Fault Refusal :=
  if c < 8 ∧ off < 64 then finish (hdmaWrite s w c off d) else .fault .absentUnit

/-- HOST_COPY_DONE (R450): the descriptor in front has run: the data that came from the host and whether its EP bit was
set, or the bytes moved before a UR or CA completion. -/
def execHostCopyDone (c : Nat) (came : List Byte) (ep : Bool) (err : Option Nat) (s : State) :
    Host.Outcome State Fault Refusal :=
  if c < 8 then finish (hdmaDone (drainPosted s) c came ep err) else .fault .absentUnit

/-- HOST_COPY_TIMEOUT (R450): `after` ticks later no completion has come for 50 ms. -/
def execHostCopyTimeout (after c : Nat) (part : List Byte) (s : State) : Host.Outcome State Fault Refusal :=
  if c < 8 then finish (hdmaTimeout (advance s after) c part) else .fault .absentUnit

/-- WINDOW_B_WRITE (R445): a host posted write through window B. -/
def execWindowBWrite (off : Nat) (d : List Byte) (ep : Bool) (s : State) : Host.Outcome State Fault Refusal :=
  finish (windowBWrite s off d ep)

/-- INBOUND_SYNC_WRITE (R451): in the root role, a 4-byte write of `k` to the sync range signals object `n`. -/
def execInboundSyncWrite (n k : Nat) (s : State) : Host.Outcome State Fault Refusal :=
  if n < 16384 then finish (if rootRole s then signalLocal s n k (chipId s) 97 else s) else .fault .absentUnit

/-- INBOUND_MEMORY_WRITE (R451): in the root role, an inbound write reaches LP5X. -/
def execInboundMemoryWrite (addr : Nat) (d : List Byte) (ep : Bool) (s : State) : Host.Outcome State Fault Refusal :=
  finish (inboundWrite s addr d ep)

/-- ETH_TRANSMIT (R455): the hardware takes the next transmit descriptor of a ring. On port 2 the descriptor and its frame
come from Warden's SRAM (R453). -/
def execEthTransmit (p r : Nat) (own : List Byte) (s : State) : Host.Outcome State Fault Refusal :=
  if 2 < p ∨ 4 ≤ r then .fault .absentUnit
  else if !txReady s p then finish s
  else if p < 2 then finish (txOne s p r)
  else
    let d := sliceBytes own 0 32
    let (st, f, eg) := txFrame s p d (own.drop 32) false (own.length < 32 + bitsOf (fieldLE d 8 4) 13 0)
    finish (emit (txCount s p st f) .notice [p] (txBack s d st eg))

/-- ETH_RECEIVE (R456): a frame arrives, its FCS stripped. -/
def execEthReceive (p : Nat) (frame : List Byte) (fcsOk parityOk : Bool) (s : State) : Host.Outcome State Fault Refusal :=
  if p < 3 then finish (rxFrame s p frame fcsOk parityOk) else .fault .absentUnit

/-- ETH_NOTIFY (R457): `after` ticks later a ring notifies. -/
def execEthNotify (after p r : Nat) (s : State) : Host.Outcome State Fault Refusal :=
  if p < 2 ∧ r < 8 then finish (ringDue (advance s after) p r) else .fault .absentUnit

/-- ETH_LINK_UP (R458): a port gains link, with auto-negotiation and FEC lock as they stand. -/
def execEthLinkUp (p : Nat) (an fec : Bool) (sgmii : Nat) (s : State) : Host.Outcome State Fault Refusal :=
  if 3 ≤ p then .fault .absentUnit
  else if linkHeld s 1 p then finish s
  else
    let s := setFlag (setFlag s (R.ETH_STAT.LINK p) true) (R.ETH_STAT.AN_DONE p) an
    finish (setFld (setFlag s (R.ETH_STAT.FEC_LOCK p) fec) (R.ETH_STAT.SGMII_SPEED p) sgmii)

/-- ETH_LINK_DOWN (R467): a port loses link: transmit descriptors complete unsent. -/
def execEthLinkDown (p : Nat) (s : State) : Host.Outcome State Fault Refusal :=
  if 3 ≤ p then .fault .absentUnit
  else
    let s := setReg s (R.ETH_STAT.LINK p).off 0
    if 2 ≤ p ∨ !flag s (R.ETH_CTL.EN p) then finish s
    else finish ((List.range 4).foldl (fun s r => times (fun s => txOne s p r) (ringHeld s p r) s) s)

/-- XIP_READ (R462): a read inside one line of the execute-in-place window; on a strobe timeout it returns poison (R467). -/
def execXipRead (w : Who) (dev off n : Nat) (timeout : Bool) (s : State) : Host.Outcome State Fault Refusal :=
  if 2 ≤ dev ∨ 67108864 ≤ off then .fault .absentUnit
  else
    match xipRead s dev off (min n (128 - off % 128)) with
    | .ok d s =>
      if timeout then
        finish (emit (report (bump s R.XSPI_DQS_ERR.val) 0x0603 0x7F [flashAddr dev off]) .response [w.agent, 1] d.1)
      else finish (emit s .response [w.agent, 0] d.1)
    | .unmapped s => finish (reportUnmapped s w (ownGa s (flashAddr dev off)) 1)
    | .wait s => finish s

/-- XSPI_CMD (R463): Warden issues a flash command. -/
def execXspiCmd (dev op addr : Nat) (d : List Byte) (s : State) : Host.Outcome State Fault Refusal :=
  if dev < 2 then finish (xspiCmd s dev op addr d) else .fault .absentUnit

/-- XSPI_CMD_DONE (R463): the oldest command of a device completes. -/
def execXspiCmdDone (dev : Nat) (s : State) : Host.Outcome State Fault Refusal :=
  if dev < 2 then finish (xspiDone s dev) else .fault .absentUnit

end Sys2Proof.Machine
end

