-- ==== Sys2Proof/Machine/Mail.lean ====
section
/-!
DEFINITION. Mailbox rings and messages (R471 to R479, R482, R492, R493), and Warden's log (R554 to R556).
-/
namespace Sys2Proof.Machine

/-- Change Warden. -/
def onWdn (s : State) (f : WdnSt → WdnSt) : State := { s with wdn := f s.wdn }

/-! ### Rings -/

/-- The key of a requester's rings: the pair, and on fabric pairs the requesting chip (R479). -/
def mailKey (pair chip : Nat) : Nat := if 4 ≤ pair ∧ pair < 12 then 32 + chip % 16 else pair

/-- The pair of a key. -/
def pairOf (key : Nat) : Nat := if 32 ≤ key then 4 + (key - 32) % 8 else key

/-- A requester's rings as Table 15-2 resets them. -/
def Mail.reset (key : Nat) : Mail :=
  ⟨[], [], [], 0, 0, 0, 0, 0, 0, false, 0, if key < 4 then 124 + key else 0, key < 4, if key = 0 then 0x7F else 1, 0, 0, [], [], 0⟩

/-- The key of a job whose notice is to be discarded (R499): no pair has it. -/
def noKey : Nat := 0x10000

/-- The rings under a key. -/
def mail (s : State) (key : Nat) : Mail := tabGet s.wdn.mails key (Mail.reset key)

/-- Change the rings under a key. -/
def onMail (s : State) (key : Nat) (f : Mail → Mail) : State :=
  onWdn s (fun w => { w with mails := tabSet w.mails key (f (mail s key)) })

/-- Is a pair READY? -/
def pairReady (s : State) (pair : Nat) : Bool := bitOf s.wdn.ready pair

/-! ### Messages (Table 15-3, R477) -/

def msgCmd (m : List Byte) : Nat := fieldLE m 0 2
def msgVer (m : List Byte) : Nat := fieldLE m 2 1
def msgFlags (m : List Byte) : Nat := fieldLE m 3 1
def msgSeq (m : List Byte) : Nat := fieldLE m 4 2
def msgLen (m : List Byte) : Nat := fieldLE m 6 1
def msgStatus (m : List Byte) : Nat := fieldLE m 7 1
def msgCrc (m : List Byte) : Nat := fieldLE m 12 4

/-- The little-endian field of `n` bytes at payload byte `i`. -/
def pl (m : List Byte) (i n : Nat) : Nat := fieldLE m (16 + i) n

/-- The payload of a message. -/
def payload (m : List Byte) : List Byte := sliceBytes m 16 (min 48 (msgLen m))

/-- The CRC32C of a message (R477). -/
def crcOf (m : List Byte) : Nat := crc32c (sliceBytes m 0 12 ++ payload m)

/-- A message; its CRC is set where CRC_EN is. -/
def mkMsg (cmd ver flags seq : Nat) (body : List Byte) (status ts : Nat) : List Byte :=
  let m := bytesLE 2 cmd ++ bytesLE 1 ver ++ bytesLE 1 flags ++ bytesLE 2 seq ++ bytesLE 1 body.length ++ bytesLE 1 status ++
    bytesLE 4 ts ++ bytesLE 4 0 ++ sliceBytes body 0 48
  if bitOf flags 0 then putBytes m 12 (bytesLE 4 (crcOf m)) else m

/-- The response to a request. -/
def mkRsp (req : List Byte) (status : Nat) (body : List Byte) (ts : Nat) : List Byte :=
  mkMsg (msgCmd req) (msgVer req) (msgFlags req % 2 + 2) (msgSeq req) body status ts

/-- A kept message posted again, with REPLAY set (R478). -/
def withReplay (m : List Byte) : List Byte :=
  let m := putBytes m 3 (bytesLE 1 (putBits (msgFlags m) 3 3 1))
  if bitOf (msgFlags m) 0 then putBytes m 12 (bytesLE 4 (crcOf m)) else m

/-! ### Posting (R473, R474, R475, R482) -/

/-- Does a pair's own path carry its messages, so that a response or notice is taken as it leaves: a fabric pair, or the
management agent's (R475, R479)? -/
def carried (key : Nat) : Bool := 32 ≤ key || key = 12 || key = 13

/-- A message leaves on its pair's path: to a fabric peer as a packet, to the management agent as a datagram with its HMAC,
and to the host by its vector. -/
def mailOut (s : State) (key : Nat) (m : List Byte) : State :=
  let s := if carried key then onMail s key (fun x => { x with rspHead := x.rspTail, ntcHead := x.ntcTail }) else s
  if 32 ≤ key then sendPkt s (key - 32) 0x36 100 ((key - 32) * 2 ^ 44) (m.take 16) (m.drop 16)
  else if key = 12 ∨ key = 13 then
    match s.wdn.mgmt with
    | some g => emit s .datagram [key, (mail s key).from_] (m ++ bytesLE 32 (Config.hmac g.key m).toNat)
    | none => s
  else if key < 4 ∧ (mail s key).vecEn then msixAfter s .warden (mail s key).vector
  else s

/-- A request that a pair's path has brought is posted in its ring (R473, R475, R479); one that finds it full is not. -/
def mailPost (s : State) (key : Nat) (m : List Byte) : State :=
  onMail s key (fun x =>
    if 8 ≤ (x.reqTail + 2 ^ 16 - x.reqHead) % 2 ^ 16 then x
    else { x with req := tabSet x.req (x.reqTail % 8) (sliceBytes m 0 64), reqTail := (x.reqTail + 1) % 2 ^ 16 })

/-- The requests of a lost peer end (R499). -/
def mailLost (s : State) (chip : Nat) : State :=
  onMail s (32 + chip) (fun x => { x with owed := [], reqHead := x.reqTail, rspHead := x.rspTail })

/-- Post a response in the next slot of the response ring. -/
def postRsp (s : State) (key : Nat) (m : List Byte) : State :=
  mailOut (onMail s key (fun x => { x with
    rsp := tabSet x.rsp (x.rspTail % 8) m, rspTail := (x.rspTail + 1) % 2 ^ 16 })) key m

/-- Post the responses that are known, oldest request first. -/
def flushOwed : Nat → State → Nat → State
  | 0, s, _ => s
  | n + 1, s, key =>
    match (mail s key).owed with
    | [] => s
    | o :: rest =>
      match o.rsp with
      | none => s
      | some m => flushOwed n (postRsp (onMail s key (fun x => { x with owed := rest })) key m) key

/-- The response of a ticket is known: it is kept, repeated where a retry asked for it, and posted in its turn. -/
def answer (s : State) (key ticket : Nat) (m : List Byte) : State :=
  let s := onMail s key (fun x => { x with
    kept := x.kept.map (fun k => if k.ticket = ticket then { k with rsp := some m } else k)
    owed := x.owed.map (fun o =>
      if o.ticket = ticket then { o with rsp := some m }
      else if o.again = some ticket then { o with rsp := some (withReplay m) } else o) })
  flushOwed (mail s key).owed.length s key

/-- Post a notice on one pair; one that finds the ring full is lost and counted (R493). -/
def postNotice (s : State) (key code : Nat) (body : List Byte) (ts : Nat) : State :=
  if !pairReady s (pairOf key) then s
  else
    let x := mail s key
    let n := (x.ntcSeq + 1) % 2 ^ 16
    if 16 ≤ (x.ntcTail + 2 ^ 16 - x.ntcHead) % 2 ^ 16 then
      onMail s key (fun x => { x with ntcLost := min (x.ntcLost + 1) 65535, ntcSeq := n })
    else
      let m := mkMsg code 1 7 x.ntcSeq body 0 ts
      mailOut (onMail s key (fun x => { x with
        ntc := tabSet x.ntc (x.ntcTail % 16) m, ntcTail := (x.ntcTail + 1) % 2 ^ 16, ntcSeq := n })) key m

/-- Every pair that can receive notices. -/
def noticeKeys (s : State) : List Nat :=
  [0, 1, 2, 3, 12, 13, 14, 15] ++
    ((List.range 16).filter (fun c => c ≠ chipId s && bitOf (fld s R.ADR_MEMBERS.CURRENT) c)).map (32 + ·)

/-- Post a notice of a class to every pair that takes the class (R492). -/
def notify (s : State) (cls code : Nat) (body : List Byte) : State :=
  (noticeKeys s).foldl (fun s k => if bitOf (mail s k).nclass cls then postNotice s k code body (nowNs s) else s) s

/-- A POWER notice. -/
def powerNotice (s : State) (cap : Nat) : State :=
  notify s 2 0x8003 (bytesLE 1 (fld s R.PWR_STATE.STATE) ++ bytesLE 1 (fld s R.PWR_STATE.PWRFAIL) ++ bytesLE 2 0 ++ bytesLE 4 cap)

/-- A TIME notice. -/
def timeNotice (s : State) : State :=
  notify s 3 0x8004 (bytesLE 1 (fld s R.TIME_STAT.TIME_SUSPECT) ++ bytesLE 1 (fld s R.TIME_STAT.VALID) ++ bytesLE 2 0 ++
    bytesLE 4 (fld s R.TCHK_OFFSET.val))

/-- A DOMAIN notice. -/
def domainNotice (s : State) : State :=
  notify s 4 0x8005 (bytesLE 4 (reg s R.ADR_CHIP.ID.off) ++ bytesLE 4 (reg s R.ADR_MEMBERS.CURRENT.off) ++
    bytesLE 4 (reg s R.ADR_PEERS.LOST.off))

/-! ### The log (R554 to R556) -/

/-- Severities of Table 18-4: 0 information, 1 corrected, 2 data lost or poisoned, 3 a task, unit or link ended. -/
def severity (code : Nat) : Nat :=
  if [0x0108, 0x0205, 0x0302, 0x0304, 0x0307, 0x0308, 0x0404, 0x0504, 0x0505, 0x0506, 0x0601, 0x0602, 0x0702, 0x0703, 0x0705,
      0x0801, 0x0802, 0x0804].contains code then 0
  else if [0x0101, 0x0103, 0x0105, 0x0202, 0x0403].contains code then 1
  else if [0x0107, 0x0201, 0x0204, 0x0206, 0x0207, 0x0208, 0x0209, 0x0305, 0x0405, 0x0501, 0x0502, 0x0503, 0x0701, 0x0704,
      0x0803].contains code then 3
  else 2

/-- The event codes of Table 18-4, by group. -/
def eventCodes : List Nat :=
  [(0x0101, 10), (0x0201, 9), (0x0301, 9), (0x0401, 5), (0x0501, 7), (0x0601, 5), (0x0701, 5), (0x0801, 5)].flatMap (fun g =>
    (List.range g.2).map (fun i => g.1 + i))

/-- Codes whose first argument is an address, which takes 8 bytes (log entry 30). -/
def argAddr (code : Nat) : Bool := [0x0101, 0x0102, 0x0104, 0x0107, 0x0108, 0x010A, 0x0602, 0x0603, 0x0802].contains code

/-- The 16 argument bytes of an event: an address in 8, every other argument in 4 (log entry 30). -/
def argBytes (code : Nat) (args : List Nat) : List Byte :=
  match args with
  | [] => sliceBytes [] 0 16
  | a :: t => sliceBytes (bytesLE (if argAddr code then 8 else 4) a ++ t.flatMap (bytesLE 4)) 0 16

/-- The EVENT notice of a code, count and argument. -/
def eventNotice (s : State) (e : Event) (count : Nat) : State :=
  notify s 1 0x8002 (bytesLE 2 e.code ++ bytesLE 1 e.agent ++ bytesLE 1 (chipId s) ++ bytesLE 4 count ++ argBytes e.code e.args)

/-- Add an entry, overwriting the oldest of 512. -/
def logAdd (s : State) (e : Event) : State :=
  let x : LogEntry := ⟨e.at_, e.code, e.agent, chipId s, 1, argBytes e.code e.args⟩
  onWdn s (fun w => { w with
    log := (if 512 ≤ w.log.length then w.log.drop 1 else w.log) ++ [x], logNext := w.logNext + 1 })

/-- Warden logs one event (R555): one of severity I or C joins the newest entry where it repeats it within 1 s. An event of the time
unit or of the membership also gives a TIME or DOMAIN notice (log entry 41). -/
def logEvent (s : State) (e : Event) : State :=
  let sev := severity e.code
  let same (x : LogEntry) : Bool := x.code = e.code && x.agent = e.agent && x.chip = chipId s && e.at_ < x.at_ + 1000000000
  let join := sev ≤ 1 && (s.wdn.log.getLast?.map same).getD false
  let s := if join then
      onWdn s (fun w => { w with log := w.log.dropLast ++ (w.log.getLast?.toList.map (fun x => { x with count := min (x.count + 1) (2 ^ 32 - 1) })) })
    else logAdd s e
  let s := if e.code = 0x0504 ∨ e.code = 0x0506 then timeNotice s
    else if e.code = 0x0502 ∨ e.code = 0x0503 then domainNotice s else s
  if 2 ≤ sev then eventNotice s e 1
  else
    let n := tabGet s.wdn.quiet e.code 0 + 1
    match tabFind s.wdn.noticed e.code with
    | some t =>
      if e.at_ < t + 1000000000 then onWdn s (fun w => { w with quiet := tabSet w.quiet e.code n })
      else
        eventNotice (onWdn s (fun w => { w with
          noticed := tabSet w.noticed e.code e.at_, quiet := tabErase w.quiet e.code })) e n
    | none =>
      eventNotice (onWdn s (fun w => { w with noticed := tabSet w.noticed e.code e.at_, quiet := tabErase w.quiet e.code })) e n

/-- Warden takes the oldest event from the FIFO and logs it; drops since the last entry are recorded first, in one
EVT_OVERFLOW entry. -/
def drainEvent (s : State) : State :=
  let lost := fld s R.EVT_LOST.val
  let s := if s.wdn.lostSeen < lost then
      logEvent (onWdn s (fun w => { w with lostSeen := lost })) ⟨0x0805, 0x7F, [lost - s.wdn.lostSeen], extTime s⟩
    else s
  match s.events with
  | [] => s
  | e :: t => logEvent { s with events := t } e

/-- The 32 bytes of a log entry (Table 18-3). -/
def LogEntry.bytes (x : LogEntry) : List Byte :=
  bytesLE 8 x.at_ ++ bytesLE 2 x.code ++ bytesLE 1 x.agent ++ bytesLE 1 x.chip ++ bytesLE 4 x.count ++ x.arg

/-! ### Meanings -/

/-- EVENT_LOG (R555): Warden logs or coalesces an event and posts its notice. -/
def execEventLog (s : State) : Host.Outcome State Fault Refusal := finish (drainEvent s)

end Sys2Proof.Machine
end

