-- ==== Sys2Proof/Machine/Lane.lean ====
section
/-!
DEFINITION. Lane rows (R136 to R172, R604): pass descriptors, issue, weight fill, words, the moving front, emit, stops,
contexts and aborts.
-/
namespace Sys2Proof.Machine

/-! ### The descriptor (Table 5-2) -/

/-- A field of the first word group of a pass descriptor. -/
def Pass.bits (p : Pass) (byte n hi lo : Nat) : Nat := bitsOf (fieldLE p.desc byte n) hi lo

def Pass.rowmask (p : Pass) : Nat := p.bits 0 4 3 0
def Pass.fmt (p : Pass) : Nat := p.bits 0 4 7 4
def Pass.zpSub (p : Pass) : Bool := p.bits 0 4 8 8 = 1
def Pass.rescale (p : Pass) : Nat := p.bits 0 4 10 9
def Pass.corrEn (p : Pass) : Bool := p.bits 0 4 11 11 = 1
def Pass.accClear (p : Pass) : Bool := p.bits 0 4 12 12 = 1
def Pass.accEmit (p : Pass) : Bool := p.bits 0 4 13 13 = 1
def Pass.irq (p : Pass) : Bool := p.bits 0 4 14 14 = 1
def Pass.tokens (p : Pass) : Nat := p.bits 0 4 19 16 + 1
def Pass.kw (p : Pass) : Nat := p.bits 0 4 27 20 + 1
def Pass.actEa (p : Pass) : Nat := p.bits 4 4 31 0
def Pass.actStride (p : Pass) : Nat := p.bits 8 3 23 0
def Pass.outZp (p : Pass) : Int := signed 16 (p.bits 0xC 4 23 8)
def Pass.doneSync (p : Pass) : Nat := p.bits 0x10 2 13 0
def Pass.doneEn (p : Pass) : Bool := p.bits 0x10 2 15 15 = 1
def Pass.wtEa (p : Pass) (r : Nat) : Nat := p.bits (0x20 + 24 * r) 4 31 0
def Pass.outEa (p : Pass) (r : Nat) : Nat := p.bits (0x24 + 24 * r) 4 31 0
def Pass.outStride (p : Pass) (r : Nat) : Nat := p.bits (0x28 + 24 * r) 4 23 0
def Pass.ofmt (p : Pass) (r : Nat) : Nat := p.bits (0x28 + 24 * r) 4 27 24
def Pass.corrEa (p : Pass) (r : Nat) : Nat := p.bits (0x2C + 24 * r) 4 31 0
def Pass.rscEa (p : Pass) (r : Nat) : Nat := p.bits (0x30 + 24 * r) 4 31 0

/-- The rows of a pass, in rising order. -/
def Pass.rows (p : Pass) : List Nat := (List.range 4).filter (fun r => bitOf p.rowmask r)

/-- Words a pass issues (R143). -/
def Pass.words (p : Pass) : Nat := p.kw * p.tokens

/-- Has every word been issued? -/
def Pass.allIssued (p : Pass) : Bool := p.words ≤ p.next

/-- Integer formats (Table 5-1). -/
def fmtInt (fmt : Nat) : Bool := fmt ≤ 2

/-- Bytes of an activation word and of a weight word (Table 5-1). -/
def actBytes (fmt : Nat) : Nat := if fmtInt fmt then 4 else 2
def wtBytes (fmt : Nat) : Nat := if fmt ≤ 1 then 4 else 2

/-- Width of an activation code and of a weight code (Table 5-1). -/
def actWidth (fmt : Nat) : Nat := if fmt = 1 then 4 else if fmt ≤ 6 then 8 else 16
def wtWidth (fmt : Nat) : Nat := if fmt = 1 ∨ fmt = 2 then 4 else if fmt ≤ 6 then 8 else 16

/-- Element pairs of one word (Table 5-1). -/
def fmtPairs (fmt : Nat) : Nat := if fmt = 1 then 8 else if fmt = 0 ∨ fmt = 2 then 4 else if fmt ≤ 6 then 2 else 1

/-- Float format of the activation and of the weight (Table 5-1, FMT 3 to 8). -/
def actFlt (fmt : Nat) : FFmt := if fmt = 3 ∨ fmt = 4 then e4m3 else if fmt = 5 ∨ fmt = 6 then e5m2 else if fmt = 7 then bf16 else fp16
def wtFlt (fmt : Nat) : FFmt := if fmt = 3 ∨ fmt = 5 then e4m3 else if fmt = 4 ∨ fmt = 6 then e5m2 else if fmt = 7 then bf16 else fp16

/-- Is an EA an address of the own tile memory in the form of R73 with EA[31:28] at 0? -/
def ownTile (ea n : Nat) : Bool := ea + n ≤ 0x180000

/-- Does a pass descriptor break a rule of BAD_DESCRIPTOR (R144, Table 5-3)? -/
def Pass.bad (p : Pass) : Bool :=
  let eaBad (ea : Nat) : Bool := ea / 2 ^ 28 ≠ 0
  p.rowmask = 0 || 8 < p.fmt || p.rescale = 3 || eaBad p.actEa || p.actEa % 4 ≠ 0 ||
  (p.zpSub && !fmtInt p.fmt) || (p.rescale = 2 && !fmtInt p.fmt) || (if p.fmt ≤ 1 then 128 else 256) < p.kw ||
  p.rows.any (fun r =>
    10 < p.ofmt r || eaBad (p.wtEa r) || p.wtEa r % 128 ≠ 0 ||
    (p.accEmit && (eaBad (p.outEa r) || p.outEa r % 32 ≠ 0 || p.outStride r % 32 ≠ 0)) ||
    (p.corrEn && (eaBad (p.corrEa r) || p.corrEa r % 128 ≠ 0)) ||
    (p.rescale = 1 && eaBad (p.rscEa r)) ||
    (p.rescale = 2 && (p.ofmt r ≤ 4 || 4095 < bitsOf (p.rscEa r) 11 0 + 63)) ||
    (p.rescale = 0 && p.ofmt r ≠ (if fmtInt p.fmt then 5 else 0)))

/-! ### State of the rows -/

/-- Change the lane rows of a core. -/
def onLanes (s : State) (c : Nat) (f : Lanes → Lanes) : State :=
  onCore s c (fun k => { k with lanes := f k.lanes })

/-- An accumulator. A discarded one holds a free value (R169). -/
def Lanes.accAt (l : Lanes) (r j t : Nat) : Nat :=
  let key := (64 * r + j) * 16 + t
  match tabFind l.acc key with
  | some v => v.toNat
  | none =>
    match tabFind l.junk r with
    | some id => Config.discarded id key % 2 ^ 32
    | none => 0

/-- The row of a holding register, or of a held SA. -/
def holdRow (x : Nat) : Nat := if x < 4096 then x / 1024 else (x - 4096) / 16

/-- Does a pass take part in none of the rows of another? -/
def Pass.apart (p q : Pass) : Bool := p.rows.all (fun r => !q.rows.contains r)

/-- SA[t] of a row (R154). -/
def Lanes.saAt (l : Lanes) (r t : Nat) : Nat :=
  match tabFind l.sa (16 * r + t) with
  | some v => v.toNat
  | none =>
    match tabFind l.junk r with
    | some id => Config.discarded id (4096 + 16 * r + t) % 2 ^ 32
    | none => 0

/-- Clear the accumulators and SA of some rows. -/
def Lanes.clearRows (l : Lanes) (rows : List Nat) : Lanes :=
  { l with
    acc := l.acc.filter (fun p => !rows.contains (p.1 / 1024)), sa := l.sa.filter (fun p => !rows.contains (p.1 / 16)),
    junk := l.junk.filter (fun p => !rows.contains p.1) }

/-- LRSTAT STATE and WORD of every row as they stand (Table 5-5). -/
def showRows (s : State) (c : Nat) : State :=
  onCore s c (fun k =>
    let names (o : Option Pass) (r : Nat) : Bool := match o with
      | some p => p.rows.contains r
      | none => false
    forN 4 (fun r k =>
      let l := k.lanes
      let on := names l.running r || names l.drain r
      let st := if l.stopped then 3 else if on then (if names l.pending r then 2 else 1)
        else if names l.pending r then 1 else 0
      let w := match l.running with
        | some p => if p.rows.contains r then p.next % 512 else 0
        | none => 0
      (k.setSys (R.LRSTAT.STATE r) st).setSys (R.LRSTAT.WORD r) w) k)

/-- Bytes of the core's own tile memory, with poison; none past its end (R167). -/
def tileRead (s : State) (c off n : Nat) : Option (List Byte × Bool) :=
  if ownTile off n ∧ !(List.range (n / 128 + 2)).any (fun i => s.marks.rows.contains (tileAddr c off / 128 + i) &&
      128 * (tileAddr c off / 128 + i) < tileAddr c off + n)
  then some (bytesAt s (tileAddr c off) n, poisoned s (tileAddr c off) n) else none

/-! ### Abort (R169) -/

/-- Abort the passes of a core for pass `p`: all end; the accumulators, SA and holding registers of the running pass are discarded, ABORTED and
CAUSE are set, LRTAG names the aborted pass, LANE_ROW is raised and the task's status becomes ABORTED. -/
def passAbort (s : State) (c : Nat) (p : Pass) (cause : Nat) : State :=
  let id := s.fresh
  let s := tickFresh s
  let s := onLanes s c (fun l =>
    let rows := (List.range 4).filter (fun r => p.rows.contains r || (match l.running with
      | some q => q.rows.contains r
      | none => false))
    let l := l.clearRows rows
    { l with junk := rows.foldl (fun t r => tabSet t r id) l.junk, hold := [], running := none, pending := none, drain := none })
  let s := onCore s c (fun k =>
    let k := p.rows.foldl (fun k r => (k.setSys (R.LRSTAT.ABORTED r) 1).setSys (R.LRSTAT.CAUSE r) cause) k
    { k.setSys R.LRTAG.val p.tag with abortCause := k.abortCause.or (some (32 + cause)) })
  showRows (raiseIrq s c 21) c

/-- Abort for an operand that runs past the tile memory (R167): CAUSE 3 and an ADDR_UNMAPPED event. -/
def passUnmapped (s : State) (c : Nat) (p : Pass) (ea : Nat) : State :=
  passAbort (reportUnmapped s (.pilot c) (ownGa s (tileAddr c ea)) 1) c p 3

/-- The first operand range that cannot be read: whether it is unmapped rather than poisoned, and its EA (R167, R179). -/
def operandErr (s : State) (c : Nat) : List (Nat × Nat) → Option (Bool × Nat)
  | [] => none
  | (ea, n) :: t =>
    match tileRead s c ea n with
    | none => some (true, ea)
    | some (_, true) => some (false, ea)
    | some (_, false) => operandErr s c t

/-- The correction table of a row, where the pass reads one (R142). -/
def Pass.corrRange (p : Pass) (r : Nat) : List (Nat × Nat) := if p.corrEn then [(p.corrEa r, 512)] else []

/-- What keeps the emit of a row from its correction table and its scales: as for `operandErr` (R142, R157, R158, R179). -/
def emitErr (s : State) (c : Nat) (p : Pass) (r : Nat) : Option (Bool × Nat) :=
  if p.rescale = 2 ∧ poisoned s (rescAddr c (4 * bitsOf (p.rscEa r) 11 0)) 256 then some (false, p.rscEa r)
  else operandErr s c (p.corrRange r ++ (if p.rescale = 1 then [(p.rscEa r, 256)] else []))

/-- Abort for an operand that cannot be read (R167, R169, R179). -/
def passFault (s : State) (c : Nat) (p : Pass) (x : Bool × Nat) : State :=
  if x.1 then passUnmapped s c p x.2 else passAbort (report s 0x0106 c [c, x.2]) c p 2

/-! ### Issue (R140, R144) -/

/-- A descriptor EA at an unmapped offset of the own window, or in a retired row, is reported (R144, R184, R208). -/
def descUnmapped (s : State) (c ea : Nat) : State :=
  if ea / 2 ^ 28 = 0 ∧ (0x180000 ≤ ea ∨ s.marks.rows.contains (tileAddr c ea / 128)) then
    reportUnmapped s (.pilot c) (ownGa s (tileAddr c ea)) 1
  else s

/-- LRPASS on lane row ROW with a descriptor EA and a tag: the issue status and the state after it. -/
def lrIssue (s : State) (c row ea tag : Nat) : Nat × State :=
  let s := descUnmapped s c ea
  if ea / 2 ^ 28 ≠ 0 ∨ ea % 128 ≠ 0 then (2, s)
  else
    match tileRead s c ea 128 with
    | none => (2, s)
    | some (d, poison) =>
      let p : Pass := ⟨d, tag, 0, false, [], false⟩
      let k := core s c
      if poison ∨ p.bad then (2, s)
      else if p.rows.head? ≠ some row then (3, s)
      else if p.rows.any (fun r => k.sysFlag (R.LRSTAT.ABORTED r)) then (4, s)
      else
        match k.lanes.running, k.lanes.pending with
        | none, none => (0, showRows (onLanes s c (fun l => { l with running := some p })) c)
        | _, none => (0, showRows (onLanes s c (fun l => { l with pending := some p })) c)
        | _, some _ => (1, s)

/-! ### Weight fill (R147, R604) -/

/-- The 32-bit words of one row's weight block, keyed as the banks are. -/
def blockWords (r : Nat) (d : List Byte) : Tab W32 :=
  (List.range 8192).filterMap (fun i =>
    let w := fieldLE d (4 * i) 4
    if w = 0 then none else some (64 * r * 128 + i, BitVec.ofNat 32 w))

/-- Put one row's block into a bank. -/
def putRow (bank : Tab W32) (r : Nat) (d : List Byte) : Tab W32 :=
  (blockWords r d).foldl (fun t p => tabSet t p.1 p.2) (bank.filter (fun p => p.1 / 8192 ≠ r))

/-- Fill the shadow banks of a pass row by row; stops at the first row whose block is poisoned or unmapped. Gives the
pass as filled, and the EA of an unmapped block. -/
def fillRows (s : State) (c : Nat) (p : Pass) : List Nat → State × Pass × Option Nat
  | [] => (s, p, none)
  | r :: t =>
    match tileRead s c (p.wtEa r) 32768 with
    | none => (s, p, some (p.wtEa r))
    | some (d, poison) =>
      if poison then (report s 0x0106 c [c, p.wtEa r], { p with poisoned := true }, none)
      else
        fillRows (onLanes s c (fun l => { l with shadow := putRow l.shadow r d })) c
          { p with filled := p.filled ++ [r] } t

/-- The pass whose weights the shadow banks are free for: the first pass while it has not started, then the pending
one. `true` marks the pending one. -/
def fillTarget (l : Lanes) : Option (Bool × Pass) :=
  match l.running with
  | some p => if p.started then l.pending.map (fun q => (true, q)) else some (false, p)
  | none => l.pending.map (fun q => (true, q))

/-- The weight fill of the next pass (R147). -/
def weightFill (s : State) (c : Nat) : State :=
  let l := (core s c).lanes
  match fillTarget l with
  | none => s
  | some (pend, p) =>
    if p.filled ≠ [] ∨ p.poisoned ∨ l.stop then s
    else
      match fillRows s c p p.rows with
      | (s, _, some ea) => passUnmapped s c p ea
      | (s, p, none) =>
        onLanes s c (fun l => if pend then { l with pending := some p } else { l with running := some p })

/-! ### Words (R138, R139, R143, R154, R155) -/

/-- The correction entry of a lane: C_j and zw_j (R142). -/
def corrEntry (s : State) (c : Nat) (p : Pass) (r j : Nat) : Nat × Int :=
  if p.corrEn then
    let d := bytesAt s (tileAddr c (p.corrEa r + 8 * j)) 8
    (fieldLE d 0 4, if wtWidth p.fmt = 4 then signed 4 (fieldLE d 4 1) else signed 8 (fieldLE d 4 1))
  else (0, 0)

/-- The activation zero point (Table 5-2). -/
def Pass.zpA (p : Pass) : Int := if p.fmt = 1 then signed 4 (p.bits 0xC 4 3 0) else signed 8 (p.bits 0xC 4 7 0)

/-- The weight word `k` of a lane in a bank. -/
def weightWord (bank : Tab W32) (fmt r j k : Nat) : Nat :=
  let base := (64 * r + j) * 128
  if wtBytes fmt = 4 then (tabGet bank (base + k) 0).toNat
  else bitsOf (tabGet bank (base + k / 2) 0).toNat (16 * (k % 2) + 15) (16 * (k % 2))

/-- One accumulator after one word (R138, R139, R155). -/
def macWord (p : Pass) (zw : Int) (acc a w : Nat) : Nat :=
  let n := fmtPairs p.fmt
  let aw := actWidth p.fmt
  let ww := wtWidth p.fmt
  let code (x i wd : Nat) : Nat := bitsOf x (wd * i + wd - 1) (wd * i)
  if fmtInt p.fmt then
    let sum := ((List.range n).map (fun i =>
      let x := signed aw (code a i aw) - (if p.zpSub then p.zpA else 0)
      let y := signed ww (code w i ww) - (if p.zpSub then zw else 0)
      x * y)).foldl (· + ·) 0
    wrapTo 32 ((acc : Int) + sum)
  else
    let prods := (List.range n).map (fun i =>
      fmulExact (fdecode (actFlt p.fmt) (code a i aw)) (fdecode (wtFlt p.fmt) (code w i ww)))
    (fround fp32 (fsumExact (fdecode fp32 acc :: prods))).1

/-- Every lane of the participating rows takes activation word `a` of token `t` (R136, R138), and SA[t] its codes
(R154). -/
def takeWord (s : State) (c : Nat) (p : Pass) (k t a : Nat) : State :=
  let l := (core s c).lanes
  let acc := p.rows.foldl (fun tb r => forN 64 (fun j tb =>
    let zw := (corrEntry s c p r j).2
    tabSet tb ((64 * r + j) * 16 + t)
      (BitVec.ofNat 32 (macWord p zw (l.accAt r j t) a (weightWord l.active p.fmt r j k)))) tb) l.acc
  let aw := actWidth p.fmt
  let codes := ((List.range (fmtPairs p.fmt)).map (fun i => signed aw (bitsOf a (aw * i + aw - 1) (aw * i)))).foldl (· + ·) 0
  let sa := if fmtInt p.fmt then
      p.rows.foldl (fun tb r => tabSet tb (16 * r + t) (BitVec.ofNat 32 (wrapTo 32 ((l.saAt r t : Int) + codes)))) l.sa
    else l.sa
  onLanes s c (fun l => { l with acc := acc, sa := sa })

/-- The front (R148): the pass that has issued its last word hands its accumulators to the holding registers, with SA as its emit uses it
(R154), where it emits, and leaves the Avenue; the pending pass is next, and its rows are cleared under its ACC_CLEAR. It waits while the
holding registers are still in use. -/
def front (s : State) (c : Nat) : State :=
  let l := (core s c).lanes
  match l.running, l.drain with
  | some p, none =>
    if !p.allIssued then s
    else
      let hold := if p.accEmit then
          p.rows.foldl (fun tb r => forN 1024 (fun i tb =>
            tabSet tb (1024 * r + i) (BitVec.ofNat 32 (l.accAt r (i / 16) (i % 16)))) (forN 16 (fun u tb =>
              tabSet tb (4096 + 16 * r + u) (BitVec.ofNat 32 (l.saAt r u))) tb)) l.hold
        else l.hold
      onLanes s c (fun l =>
        let l := match l.pending with
          | some q => if q.accClear then l.clearRows q.rows else l
          | none => l
        { l with hold := hold, drain := some p, running := l.pending, pending := none })
  | _, _ => s

/-- May the Avenue issue the next word of the running pass (R137, R164)? -/
def mayIssue (l : Lanes) : Bool :=
  match l.running with
  | some p => p.started && !p.allIssued && !l.stopped && !(l.stop && p.next % 64 = 0)
  | none => false

/-- The Avenue issues one activation word (R136, R137, R143); an unmapped or poisoned operand aborts the pass. In ZP-sub mode the lanes read
zw_j as well (R155). -/
def avenueIssue (s : State) (c : Nat) : State :=
  let l := (core s c).lanes
  match l.running with
  | none => s
  | some p =>
    if !mayIssue l then s
    else
      let t := p.next % p.tokens
      let k := p.next / p.tokens
      let ea := p.actEa + t * p.actStride + k * actBytes p.fmt
      match operandErr s c ((ea, actBytes p.fmt) :: (if p.zpSub then p.rows.flatMap p.corrRange else [])) with
      | some x => passFault s c p x
      | none =>
        let s := takeWord s c p k t (numLE (bytesAt s (tileAddr c ea) (actBytes p.fmt)))
        let s := onLanes s c (fun l => { l with running := some { p with next := p.next + 1 } })
        showRows (front s c) c

/-! ### Start of a pass (R148, R149, R604) -/

/-- The next pass issues its first word: its rows swap shadow for active and clear their accumulators under ACC_CLEAR.
It waits while an emit holds the holding registers of its rows (R149). A pass whose fill met poison is aborted with CAUSE 2 instead, once the
pass before it has completed (R604). -/
def passStart (s : State) (c : Nat) : State :=
  let l := (core s c).lanes
  match l.running with
  | none => s
  | some p =>
    let waits : Bool := match l.drain with
      | some q => p.poisoned || (q.accEmit && !p.apart q)
      | none => false
    if p.started ∨ l.stop ∨ waits then s
    else if p.poisoned then passAbort s c p 2
    else if p.rows.all (fun r => p.filled.contains r) then
      let s := onLanes s c (fun l =>
        let mine (x : Nat × W32) : Bool := p.rows.contains (x.1 / 8192)
        let act := (l.shadow.filter mine).foldl (fun t x => tabSet t x.1 x.2) (l.active.filter (fun x => !mine x))
        let l := { l with active := act, shadow := l.shadow.filter (fun x => !mine x), running := some { p with started := true } }
        if p.accClear then l.clearRows p.rows else l)
      showRows s c
    else s

/-! ### Emit (R151, R154, R155, R157 to R160) -/

/-- The value v of a held accumulator under the zero-point mode: INT32 or FP32 code (R154, R155). -/
def emitValue (p : Pass) (h : Nat) (sa : Nat) (cj : Nat) (zw : Int) : Nat :=
  if fmtInt p.fmt then
    wrapTo 32 (signed 32 h + signed 32 cj - (if p.zpSub then 0 else zw * signed 32 sa))
  else (fround fp32 (faddExact (fdecode fp32 h) (fdecode fp32 cj))).1

/-- Round half to even of ± m × 2^e, plus OUT_ZP, clamped to an integer output format (R157, R158). -/
def emitInt (w : Nat) (v : Int) (zp : Int) : Nat × Bool := clampS w (v + zp)

/-- The output code of one result, and whether it was clamped (R157 to R160). -/
def emitCode (p : Pass) (r v scale entry : Nat) : Nat × Bool :=
  match fmtCode (p.ofmt r) with
  | none => (0, false)
  | some o =>
    if p.rescale = 0 then (v, false)
    else if p.rescale = 1 then
      let x := if fmtInt p.fmt then (fround fp32 (ndecode (.fix 32 0) v)).1 else v
      let prod := fdecode fp32 (fround fp32 (fmulExact (fdecode fp32 x) (fdecode fp32 scale))).1
      match o with
      | .flt f => let (c, fl) := nconvert (.flt f) true true prod; (c, fl.sat)
      | .fix w _ =>
        match prod with
        | .nan => emitInt w 0 p.outZp
        | .inf neg => ((clampS w (if neg then -(2 ^ 40) else 2 ^ 40)).1, true)
        | .fin neg m e => emitInt w (roundInt neg m e) p.outZp
    else
      let m := bitsOf entry 15 0
      let sh := bitsOf entry 21 16
      emitInt o.width (divHalfEven (signed 32 v * (m : Int)) (2 ^ sh)) p.outZp

/-- The output of one token of one row: the packed codes and whether any was clamped. -/
def emitToken (s : State) (c : Nat) (p : Pass) (r t : Nat) : List Byte × Bool :=
  let k := core s c
  let w := match fmtCode (p.ofmt r) with
    | some o => o.width
    | none => 32
  let codes := (List.range 64).map (fun j =>
    let (cj, zw) := corrEntry s c p r j
    let v := emitValue p (tabGet k.lanes.hold ((64 * r + j) * 16 + t) 0).toNat (tabGet k.lanes.hold (4096 + 16 * r + t) 0).toNat cj zw
    let scale := if p.rescale = 1 then fieldLE (bytesAt s (tileAddr c (p.rscEa r + 4 * j)) 4) 0 4 else 0
    emitCode p r v scale (tabGet k.rescale (bitsOf (p.rscEa r) 11 0 + j) 0).toNat)
  let packed := (codes.foldr (fun x n => x.1 % 2 ^ w + 2 ^ w * n) 0 : Nat)
  (bytesLE (8 * w) packed, codes.any (fun x => x.2))

/-- The outputs of a pass, token by token in each row (R151), up to the first operand or output that aborts it (R167, R169). -/
def emitAll (s : State) (c : Nat) (p : Pass) : List (Nat × Nat) → State × Option (Bool × Nat)
  | [] => (s, none)
  | (r, t) :: rest =>
    let ea := p.outEa r + t * p.outStride r
    let (d, sat) := emitToken s c p r t
    match (if t = 0 then emitErr s c p r else none) with
    | some x => (s, some x)
    | none =>
      if (tileRead s c ea d.length).isNone then (s, some (true, ea))
      else
        let s := writeMem s (tileAddr c ea) d false
        emitAll (if sat then onCore s c (fun k => k.setSys (R.LRSTAT.SAT r) 1) else s) c p rest

/-- The front and the emit of a pass have ended (R151, R153): outputs, DONE_SYNC, LANE_ROW where asked. -/
def passComplete (s : State) (c : Nat) : State :=
  match (core s c).lanes.drain with
  | none => s
  | some p =>
    let all := p.rows.flatMap (fun r => (List.range p.tokens).map (fun t => (r, t)))
    match emitAll s c p (if p.accEmit then all else []) with
    | (s, some x) => passFault s c p x
    | (s, none) =>
      let s := onLanes s c (fun l => { l with drain := none, hold := l.hold.filter (fun x => !p.rows.contains (holdRow x.1)) })
      let s := onCore s c (fun k => k.setSys R.LRTAG.val p.tag)
      let s := signalDone s p.doneEn p.doneSync (.pilot c)
      let s := if p.irq then raiseIrq s c 21 else s
      showRows (front s c) c

/-! ### Stop, context, resume (R163 to R166) -/

/-- The context of a row (Table 5-6). -/
def rowContext (l : Lanes) (r : Nat) : List Byte :=
  let acc := (List.range 1024).flatMap (fun i => bytesLE 4 (l.accAt r (i / 16) (i % 16)))
  let sa := (List.range 16).flatMap (fun t => bytesLE 4 (l.saAt r t))
  let d (o : Option Pass) : List Byte := match o with
    | some p => sliceBytes p.desc 0 128
    | none => List.replicate 128 0
  let next := match l.running with
    | some p => p.next % 2 ^ 13 + 2 ^ 13
    | none => 0
  let tag (o : Option Pass) : Nat := match o with
    | some p => p.tag % 2 ^ 16
    | none => 0
  let body := acc ++ sa ++ d l.running ++ d l.pending
    ++ bytesLE 4 (next + 2 ^ 14 * num l.pending.isSome + 2 ^ 16 * tag l.running) ++ bytesLE 4 (tag l.pending)
  body ++ bytesLE 4 (crc32c body)

/-- The rows run to the next segment point, stop, and write their contexts to bank 11 when the stop is for a claim
(R163 to R165, R55). -/
def rowStop (s : State) (c : Nat) : State :=
  if !(core s c).lanes.stop ∨ (core s c).lanes.stopped then s
  else
    let s := times (fun s => avenueIssue s c) 64 s
    let s := passComplete (passComplete s c) c
    let s := onLanes s c (fun l => { l with
      stopped := true,
      running := l.running.map (fun p => { p with started := false, filled := [] }),
      pending := l.pending.map (fun p => { p with filled := [] }) })
    let l := (core s c).lanes
    showRows (forN 4 (fun r s => writeMem s (tileAddr c (0x160000 + 0x2000 * r))
      (rowContext l r ++ List.replicate (0x2000 - 0x114C) 0) false) s) c

/-- Resume the rows from their contexts (R166): a CRC32C mismatch aborts both passes with CAUSE 2. The active banks of the running pass and the
shadow banks of the pending one are filled anew; poison aborts both with CAUSE 2 (R604). -/
def rowResume (s : State) (c : Nat) : State :=
  let ctx (r : Nat) : List Byte := bytesAt s (tileAddr c (0x160000 + 0x2000 * r)) 0x114C
  let ok (r : Nat) : Bool := !poisoned s (tileAddr c (0x160000 + 0x2000 * r)) 0x114C && crc32c ((ctx r).take 0x1148) = fieldLE (ctx r) 0x1148 4
  let d := ctx (((List.range 4).find? ok).getD 0)
  let w := fieldLE d 0x1140 4
  let mk (at_ tag next : Nat) : Pass := ⟨sliceBytes d at_ 128, tag, next, false, [], false⟩
  let run := if bitOf w 13 then some (mk 0x1040 (w / 2 ^ 16) (w % 2 ^ 13)) else none
  let pend := if bitOf w 14 then some (mk 0x10C0 (fieldLE d 0x1144 2) 0) else none
  let acc := (List.range 4).foldl (fun tb r => forN 1024 (fun i tb =>
    tabSet tb (1024 * r + i) (BitVec.ofNat 32 (fieldLE (ctx r) (4 * i) 4))) tb) []
  let sa := (List.range 4).foldl (fun tb r => forN 16 (fun t tb =>
    tabSet tb (16 * r + t) (BitVec.ofNat 32 (fieldLE (ctx r) (0x1000 + 4 * t) 4))) tb) []
  match (List.range 4).find? (fun r => !ok r) with
  | some r =>
    let s := report (bumpSat s R.INT_CTX_CRC.val) 0x0208 c [c, r]
    let s := onLanes s c (fun l => { l with stop := false, stopped := false })
    passAbort s c (mk 0x1040 (w / 2 ^ 16) 0) 2
  | none =>
    let s := onLanes s c (fun l => { l with
      acc := acc, sa := sa, junk := [], running := run, pending := pend, drain := none, stop := false, stopped := false })
    match run with
    | none => showRows s c
    | some p =>
      match fillRows s c p p.rows with
      | (s, _, some ea) => passUnmapped s c p ea
      | (s, q, none) =>
        if q.poisoned then passAbort s c p 2
        else
          -- these banks are the active ones of the resumed pass, which goes on at its next word
          let s := onLanes s c (fun l =>
            let mine (x : Nat × W32) : Bool := p.rows.contains (x.1 / 8192)
            let l := if p.next = 0 ∧ p.accClear then l.clearRows p.rows else l
            { l with
              active := (l.shadow.filter mine).foldl (fun t x => tabSet t x.1 x.2) (l.active.filter (fun x => !mine x)),
              shadow := l.shadow.filter (fun x => !mine x),
              running := some { q with started := true } })
          match pend with
          | none => showRows s c
          | some n =>
            match fillRows s c n n.rows with
            | (s, _, some ea) => passUnmapped s c n ea
            | (s, m, none) =>
              if m.poisoned then passAbort s c p 2
              else showRows (onLanes s c (fun l => { l with pending := some m })) c

/-! ### Meanings -/

/-- A command of one core's lane rows. -/
def laneRow (c : Nat) (f : State → State) (s : State) : Host.Outcome State Fault Refusal :=
  if c < 96 then finish (f s) else .fault .absentUnit

/-- WEIGHT_FILL (R147): the next weight rows of a core's fill. -/
def execWeightFill (c : Nat) (s : State) : Host.Outcome State Fault Refusal := laneRow c (fun s => weightFill s c) s

/-- AVENUE_ISSUE (R137). -/
def execAvenueIssue (c : Nat) (s : State) : Host.Outcome State Fault Refusal := laneRow c (fun s => avenueIssue s c) s

/-- PASS_START (R149). -/
def execPassStart (c : Nat) (s : State) : Host.Outcome State Fault Refusal := laneRow c (fun s => passStart s c) s

/-- PASS_COMPLETE (R153). -/
def execPassComplete (c : Nat) (s : State) : Host.Outcome State Fault Refusal :=
  laneRow c (fun s => passComplete s c) s

/-- ROW_STOP (R164). -/
def execRowStop (c : Nat) (s : State) : Host.Outcome State Fault Refusal := laneRow c (fun s => rowStop s c) s

/-- PASS_ABORT (R169): a weight-parity error (CAUSE 1) in a lane of a row of the running pass, an uncorrectable
activation error (CAUSE 2) or an unmapped operand (CAUSE 3) aborts the running and the pending pass. -/
def execPassAbort (c cause row lane : Nat) (s : State) : Host.Outcome State Fault Refusal :=
  laneRow c (fun s =>
    match (core s c).lanes.running with
    | none => s
    | some p =>
      if cause = 1 then
        passAbort (report (bumpSat s R.INT_WPARITY.val) 0x0207 c [c, row, lane, p.tag]) c p 1
      else if cause = 3 then passUnmapped s c p p.actEa
      else passAbort (report s 0x0106 c [c, p.actEa]) c p 2) s

end Sys2Proof.Machine
end

