-- ==== Sys2Proof/Machine/Sched.lean ====
section
/-!
DEFINITION. Schedulers, tasks, leash timers, claims and the deadline ledger (R253 to R275, R281 to R284, R531).
-/
namespace Sys2Proof.Machine

/-- Change the schedulers. -/
def onSched (s : State) (f : Sched → Sched) : State := { s with sched := f s.sched }

/-- Put a changed task back. -/
def putTask (s : State) (t : Task) : State :=
  onSched s (fun d => { d with tasks := d.tasks.map (fun x => if x.num = t.num then t else x) })

/-- The task with a submission number. -/
def taskNum (s : State) (n : Nat) : Option Task := s.sched.tasks.find? (fun t => t.num = n)

/-- A 32-bit time as its signed distance from now (R386). -/
def rel (s : State) (t : Nat) : Int := signed 32 (t % 2 ^ 32 + 2 ^ 32 - nowNs s)

/-- S_n of the slot whose low 16 bits are given: the slot nearest to the current one (R50, R256, R333). KSLOT_PHASE is
the time of the boundary that ends the current slot. -/
def slotStart (s : State) (slot : Nat) : Nat :=
  let d := signed 16 (slot + 2 ^ 32 - fld s R.KSLOT_NUM.val)
  wrapTo 32 ((fld s R.KSLOT_PHASE.val : Int) + (d - 1) * 500000)

/-- The absolute leash deadline of a task (R267). -/
def leashAt (s : State) (t : Task) : Nat :=
  if t.leashRel then (slotStart s t.slot + t.leash) % 2 ^ 32 else t.leash

/-- The fields of a task descriptor (Table 8-2). Reserved bits are not kept (R256). -/
def parseTask (num p : Nat) (d : List Byte) : Task :=
  let w0 := fieldLE d 0 4
  let w20 := fieldLE d 0x20 4
  let w24 := fieldLE d 0x24 4
  { num := num, part := p, id := bitsOf w0 15 0, cls := bitsOf w0 17 16, stage := bitsOf w0 21 18,
    leashEn := bitOf w0 22, leashRel := bitOf w0 23, plain := bitOf w0 24, plainEn := bitOf w0 25,
    entry := fieldLE d 4 4, imageGa := fieldLE d 8 6, imageUnits := bitsOf (fieldLE d 0x10 2) 8 0,
    slot := fieldLE d 0x12 2, costCycles := fieldLE d 0x14 4, costNs := fieldLE d 0x18 4, leash := fieldLE d 0x1C 4,
    waitSync := bitsOf w20 13 0, waitN := bitsOf w20 21 14, waitEn := bitOf w20 22,
    doneSync := bitsOf w24 13 0, doneEn := bitOf w24 15,
    args := [fieldLE d 0x28 4, fieldLE d 0x2C 4, fieldLE d 0x30 4], plainId := fieldLE d 0x34 2,
    statusGa := fieldLE d 0x38 6, st := .ready, startedAt := 0 }

/-- May a status record of partition `p` be written at this address (R261)? -/
def statusOk (s : State) (p ga : Nat) : Bool := ga % 8 = 0 && (inLp5x s ga 8 || inBanks0to9 s p ga 8)

/-- The first check of R261 that a descriptor fails, numbered in the order of its list, or none. -/
def taskCheck (s : State) (t : Task) : Option Nat :=
  if t.cls = 3 then some 1
  else if t.cls ≠ 0 ∧ (t.stage ≠ 0 ∨ t.plain ∨ t.plainEn) then some 2
  else if t.entry % 8 ≠ 0 ∨ 0x20000 ≤ t.entry then some 3
  else if t.cls = 0 ∧ flag s (R.PART_CFG.RADIO t.part) ∧ (t.imageUnits = 0 ∨ 256 < t.imageUnits) then some 4
  else if t.waitEn ∧ t.waitN = 0 then some 5
  else if t.leashEn ∧ t.leashRel ∧ 2 ^ 31 ≤ t.leash then some 6
  else if t.statusGa ≠ 0 ∧ !statusOk s t.part t.statusGa then some 7
  else none

/-- The wait of a task is registered (R258). -/
def taskWait (s : State) (t : Task) : State :=
  match waitLocal s t.waitSync (.task t.part t.num t.waitN) with
  | (some st, s) => taskWaitEnds s t.num st
  | (none, s) => s

/-- A task is released: ready at once, or once its wait is granted (R258). -/
def makeReady (s : State) (t : Task) : State :=
  if t.waitEn then taskWait (putTask s { t with st := .waiting }) t else putTask s { t with st := .ready }

/-- A commit on a submit page (R257, R261): refused, dropped when 256 tasks are held, or entered. A stage that has fallen back for the
slot stays so: a learned task for it is discarded and a plain one is released (R266, log entry 42). -/
def submitTask (s : State) (p : Nat) (d : List Byte) : State :=
  let t := parseTask s.sched.nextNum p d
  match taskCheck s t with
  | some k =>
    let s := if t.statusGa ≠ 0 ∧ statusOk s p t.statusGa then writeStatus s t.statusGa t.id 3 0 else s
    report s 0x0306 0x7F [p, t.id, k]
  | none =>
    if 256 ≤ fld s (R.PART_STAT.TASKS p) then report s 0x0303 0x7F [p, t.id]
    else
      let fell := t.cls = 0 && s.sched.fell.any (fun x => x.1 = (p, t.stage, t.slot))
      let t := { t with st := if t.plain && !fell then .heldPlain else if t.waitEn then .waiting else .ready }
      let s := onSched s (fun x => { x with tasks := x.tasks ++ [t], nextNum := x.nextNum + 1 })
      let s := bump s (R.PART_STAT.TASKS p)
      if fell && !t.plain then taskRemove s t 4 0
      else if t.st = .waiting then taskWait s t else s

/-! ### Dispatch (R258, R259, R531) -/

/-- Does task `a` go before task `b` (R258)? Radio tasks first, earliest leash first, a radio task without a leash after
those with one; then serving, then background, in submission order; ties to the lower TASK_ID. -/
def before (s : State) (a b : Task) : Bool :=
  if a.cls ≠ b.cls then a.cls < b.cls
  else if a.cls = 0 then
    if a.leashEn ≠ b.leashEn then a.leashEn
    else if a.leashEn ∧ rel s (leashAt s a) ≠ rel s (leashAt s b) then rel s (leashAt s a) < rel s (leashAt s b)
    else a.id < b.id
  else a.num < b.num

/-- The ready task that goes first among those that satisfy `ok`. -/
def pickTask (s : State) (p : Nat) (ok : Task → Bool) : Option Task :=
  (s.sched.tasks.filter (fun t => t.part = p && t.st = .ready && ok t)).foldl (fun best t =>
    match best with
    | none => some t
    | some b => if before s t b then some t else some b) none

/-- The core-local reset of a dispatch (R531, R172): Tables 3-9, 4-1, 5-5, 7-7 and 8-3 at their Reset values, every
register zero, rows idle; IMEM, tile memory, the rescale table, the weight banks and outstanding DMA stay. -/
def Core.localReset (k : Core) : Core :=
  { Core.reset with
    run := .running, lanes := { Lanes.reset with active := k.lanes.active, shadow := k.lanes.shadow },
    rescale := k.rescale, dmas := k.dmas, claim := k.claim, held := k.held, asyncs := [] }

/-- Start a task on a core at an address (R259): S_1 to S_3 hold its arguments, TASK and the leash are loaded. -/
def startTask (s : State) (c : Nat) (t : Task) (pc : Nat) : State :=
  let k := (core s c).localReset
  let k := { k with pc := pc, task := some t.num }
  let k := ((k.setSreg 1 (BitVec.ofNat 32 (t.args.getD 0 0))).setSreg 2 (BitVec.ofNat 32 (t.args.getD 1 0))).setSreg 3
    (BitVec.ofNat 32 (t.args.getD 2 0))
  let k := (k.setSys R.TASK.ID t.id).setSys R.TASK.CLASS t.cls
  let k := if t.leashEn then (k.setSys R.LEASH_DL.val (leashAt s t)).setSys R.LEASH_CTL.EN 1 else k
  putTask (setCore s c k) { t with st := .running c, startedAt := nowNs s }

/-- Dispatch a task to a core that is not borrowed: the previous task's async waits are withdrawn and what its source
has staged is cleared (R223, R241, R531). -/
def dispatchOwn (s : State) (c : Nat) (t : Task) : State :=
  startTask (clearStaged (withdrawCore s c true) c) c t t.entry

/-- Is a core free for its own partition's tasks (R258, R275, R518)? -/
def coreFree (s : State) (p c : Nat) : Bool :=
  corePart s c = some p && (core s c).run = .idle && (core s c).claim.isNone &&
    !flag s (R.QCLK.DRAINING (c / 8)) && coreOn s c

/-! ### Ends of tasks (R259, R261, R268, R274, R284) -/

/-- Remember a non-plain task that ended otherwise than DONE (R260). -/
def noteNotDone (s : State) (t : Task) (status : Nat) : State :=
  if status = 0 ∨ t.plain then s
  else onSched s (fun d => { d with notDone := (t.part, t.stage, t.slot) :: d.notDone })

/-- Held plain tasks of a stage and slot whose non-plain tasks have all ended DONE are discarded (R260). -/
def discardPlain (s : State) (p stage slot : Nat) : State :=
  let live := s.sched.tasks.any (fun x => x.part = p && x.cls = 0 && !x.plain && x.stage = stage && x.slot = slot)
  if live ∨ s.sched.notDone.contains (p, stage, slot) then s
  else
    (s.sched.tasks.filter (fun x => x.part = p && x.stage = stage && x.slot = slot && x.st = .heldPlain)).foldl
      (fun s x => taskRemove s x 4 0) s

/-- A task ends with a status: record, then DONE_SYNC for DONE and LATE (R259, R261, R268). -/
def taskEnd (s : State) (t : Task) (status cause : Nat) : State :=
  let s := noteNotDone s t status
  let s := taskDrop s t status cause
  let s := signalDone s (t.doneEn && (status = 0 || status = 2)) t.doneSync (.sched 0)
  if t.cls = 0 then discardPlain s t.part t.stage t.slot else s

/-- A core returns to its lending partition (R274): CLAIM clears, the suspended task's QDISP and SASTAT with its armed
waits come back, and Pilot restarts at CLAIM_RPC. A core that ran no task is free again. -/
def returnCore (s : State) (c : Nat) : State :=
  let k := core s c
  match k.claim, k.held with
  | some cl, some h =>
    let s := clearStaged s (128 + c)
    let s := setFld s (R.PART_STAT.BORROWED cl.part) (fld s (R.PART_STAT.BORROWED cl.part) - 1)
    let s := match corePart s c with
      | some p => setFld s (R.PART_STAT.LENT p) (fld s (R.PART_STAT.LENT p) - 1)
      | none => s
    let sys := h.sys.foldl (fun t p => tabSet t p.1 p.2) k.sys
    let k := { k with sys := tabSet (tabSet sys R.QDISP.val.off h.qdisp) R.SASTAT.DONE.off h.sastat }
    let k := (k.setSys R.CLAIM.CLAIMED 0).setSys R.CLAIM.BORROWED 0
    let k := { k with
      asyncs := h.asyncs, task := h.task, abortCause := h.abortCause, claim := none, held := none, delayed := [], dslots := 0, land := .none,
      pc := k.sysWord c R.CLAIM_RPC.val.off, run := if h.task.isSome then .running else .idle }
    if h.task.isSome then rowResume (setCore s c k) c else setCore s c k
  | _, _ => s

/-- Load a radio image into the IMEM borrow region (R269, R270). What cannot be read loads as zeros. -/
def loadImage (s : State) (c : Nat) (t : Task) : State × Bool :=
  match readRange s (.sched t.part) t.imageGa (128 * t.imageUnits) with
  | .ok d s => (writeMem s (imemAddr c 0x18000) d.1 d.2, true)
  | .unmapped s => (reportUnmapped s (.sched t.part) t.imageGa 1, false)
  | .wait s => (s, false)

/-- Start a radio task on a borrowed core at 0x1_8000 with VBASE there (R270, R274, R531). CLAIM and CLAIM_RPC stay. -/
def dispatchBorrowed (s : State) (c : Nat) (t : Task) : State :=
  let rpc := (core s c).sysWord c R.CLAIM_RPC.val.off
  let (s, ok) := loadImage s c t
  if !ok then s
  else
    let s := startTask s c t 0x18000
    onCore s c (fun k =>
      (((k.setSys R.VBASE.val (0x18000 / 2 ^ 10)).setSys R.CLAIM.CLAIMED 1).setSys R.CLAIM.BORROWED 1).setSys R.CLAIM_RPC.val rpc)

/-- A borrowed core has ended a radio task: it takes the next ready radio task of the claiming partition, or returns
(R274). Waits the radio task armed are withdrawn and what it staged is cleared (R223, R241). -/
def nextBorrowed (s : State) (c p : Nat) : State :=
  let s := clearStaged (abandonWait s c) (128 + c)
  match pickTask s p (fun t => t.cls = 0) with
  | some t => dispatchBorrowed s c t
  | none => returnCore s c

/-- The task that runs on a core ends (R259, R268, R274): its passes stop, and the core becomes free, takes the next
radio task, or returns. A claimed core that has not yielded has nothing left to save and counts as yielded (log entry 81). -/
def coreTaskEnd (s : State) (c status cause : Nat) : State :=
  let k := core s c
  match k.task with
  | none => s
  | some n =>
    let s := setCore s c { k with
      task := none, run := .idle,
      lanes := { k.lanes with running := none, pending := none, drain := none, stop := false, stopped := false } }
    let s := match taskNum s n with
      | some t => taskEnd s t status cause
      | none => s
    match k.claim with
    | some cl =>
      if k.held.isSome then nextBorrowed s c cl.part
      else onCore s c (fun k => { k with run := .yielded, claim := some { cl with yielded := true } })
    | none => s

/-- Pilot writes TASK.END (R259): the task ends DONE, LATE when its leash has expired (R268), or ABORTED when a pass or
DMA abort came first (R31, R169). -/
def taskEndWrite (s : State) (c : Nat) : State :=
  match (core s c).abortCause with
  | none => coreTaskEnd s c 0 0
  | some 17 => coreTaskEnd s c 2 0
  | some cause => coreTaskEnd s c 1 cause

/-- The task of a core ends ABORTED and the core halts until its next dispatch (R284, Table 18-1): on a borrowed core the serving task
it holds ends ABORTED too, and the core never returns. -/
def haltCore (s : State) (c cause : Nat) : State :=
  let k := core s c
  let s := match k.task.bind (taskNum s) with
    | some t => taskEnd s t 1 cause
    | none => s
  let s := match k.held.bind (fun h => h.task.bind (taskNum s)) with
    | some t => taskEnd s t 1 cause
    | none => s
  onCore s c (fun k => { k with run := .halted, task := none })

/-- A double fault ends the task and halts the core (R91, R259, R284). -/
def doubleFault (s : State) (c cause epc : Nat) : State := report (haltCore s c cause) 0x0201 c [cause, epc]

/-! ### Leash timers (R267, R268) -/

/-- A leash expires: EXPIRED, the LEASH interrupt, and the end of a waiting QRECV or SWAIT with TIMEOUT. From here on the
task ends LATE. -/
def leashExpire (s : State) (c : Nat) : State :=
  let s := onCore s c (fun k => { k.setSys R.LEASH_CTL.EXPIRED 1 with abortCause := k.abortCause.or (some 17) })
  let s := raiseIrq s c 17
  match (core s c).run with
  | .wait .. => pilotEnd (abandonWait s c) c 2
  | .recv .. => pilotEnd s c 2
  | _ => s

/-! ### Claims (R264, R270, R273) -/

/-- Does a core hold a retired row in banks 10 or 11 (R210)? -/
def borrowRowRetired (s : State) (c : Nat) : Bool :=
  s.marks.rows.any (fun r => tileAddr c 0x140000 ≤ 128 * r && 128 * r < tileAddr c 0x180000)

/-- The cores a partition can borrow, in rising order (R264). -/
def borrowable (s : State) (p : Nat) : List Nat :=
  (List.range 96).filter (fun c =>
    match corePart s c with
    | some q => bitOf (fld s (R.PART_LEND.val p)) q && flag s (R.PART_CFG.LEND q) && (core s c).claim.isNone &&
        (core s c).run ≠ .halted && !flag s (R.QCLK.DRAINING (c / 8)) && fld s R.PWR_STATE.STATE ≠ 2 && !borrowRowRetired s c
    | none => false)

/-- Claim a core for a task of partition `p` (R270 step 1): CLAIMED, PREEMPT and a stop request to its rows. A core
that runs no task has nothing to save and counts as yielded. -/
def claimCore (s : State) (p task c : Nat) : State :=
  let k := core s c
  let idle := k.task.isNone
  let k := { k with
    claim := some ⟨p, nowNs s, task, idle, false⟩, lanes := { k.lanes with stop := true },
    run := if idle then .yielded else k.run }
  let s := setCore s c (k.setSys R.CLAIM.CLAIMED 1)
  let s := match corePart s c with
    | some q => bump s (R.PART_STAT.LENT q)
    | none => s
  if idle then s else raiseIrq s c 16

/-- Pilot writes CLAIM.YIELD (R270 step 3): it halts and records CLAIM_RPC. Without a claim the write does nothing. -/
def claimYield (s : State) (c rpc : Nat) : State :=
  match (core s c).claim with
  | none => s
  | some cl =>
    onCore s c (fun k => { k.setSys R.CLAIM_RPC.val rpc with run := .yielded, claim := some { cl with yielded := true } })

/-- What a core holds aside as a radio task begins on it (R531, R99, log entry 13). -/
def holdAside (k : Core) (c : Nat) : HeldTask :=
  { task := k.task, qdisp := BitVec.ofNat 32 (k.sysWord c R.QDISP.val.off),
    sastat := BitVec.ofNat 32 (k.sysWord c R.SASTAT.DONE.off), asyncs := k.asyncs,
    sys := [R.IPEND.val.off, R.TASK.ID.off, R.LEASH_DL.val.off, R.LEASH_CTL.EN.off].map (fun i =>
      (i, BitVec.ofNat 32 (k.sysWord c i))),
    abortCause := k.abortCause }

/-- The image of a claimed core's radio task is loaded (R270 steps 4 and 5): by then the rows have stopped; BORROWED is set
and the task starts. -/
def claimLoaded (s : State) (c : Nat) : State :=
  let s := if (core s c).claim.any (fun cl => cl.yielded) then rowStop s c else s
  let k := core s c
  match k.claim with
  | none => s
  | some cl =>
    if !cl.yielded ∨ k.held.isSome then s
    else
      let rpc := k.sysWord c R.CLAIM_RPC.val.off
      let s := setCore s c { k.setSys R.CLAIM.BORROWED 1 with
        held := some (holdAside k c), task := none, asyncs := [], run := .idle }
      let s := bump s (R.PART_STAT.BORROWED cl.part)
      let s := onCore s c (fun k => k.setSys R.CLAIM_RPC.val rpc)
      match pickTask s cl.part (fun t => t.cls = 0) with
      | some t => dispatchBorrowed s c t
      | none => s

/-- The first radio instruction of a claim issues: more than 12 µs after the claim is an overrun (R273). -/
def firstRadio (s : State) (c : Nat) : State :=
  match (core s c).claim with
  | some cl =>
    if cl.started ∨ !(core s c).sysFlag R.CLAIM.BORROWED then s
    else
      let s := onCore s c (fun k => { k with claim := some { cl with started := true } })
      let d := (nowNs s + 2 ^ 32 - cl.at_) % 2 ^ 32
      if 12000 < d then report (bump s (R.PART_EVT.CLAIM_OVERRUNS cl.part)) 0x0304 c [c, d] else s
  | none => s

/-! ### The deadline ledger (R262 to R266, R281, R283) -/

/-- 24 over a power-cap divisor code: ÷1, ÷1.5, ÷2, ÷3, ÷4 (R23, R263). -/
def divShare (code : Nat) : Nat :=
  match code with
  | 0 => 24 | 1 => 16 | 2 => 12 | 3 => 8 | _ => 6

/-- The share of a core at its Quarter's divisor. -/
def coreShare (s : State) (c : Nat) : Nat := divShare (fld s (R.QCLK.DIV (c / 8)))

/-- The cycles a task still needs at ÷1: a running task's are counted from its dispatch at the current divisor
(R263). T0 is 0.813 802 ns. -/
def cyclesLeft (s : State) (t : Task) : Nat :=
  match t.st with
  | .running c =>
    t.costCycles - ((nowNs s + 2 ^ 32 - t.startedAt) % 2 ^ 32) * 1000000 * coreShare s c / (813802 * 24)
  | _ => t.costCycles

/-- A stage of a slot in the ledger: its tasks that have not ended and take part (R262). -/
def stageTasks (s : State) (p stage slot : Nat) : List Task :=
  s.sched.tasks.filter (fun t => t.part = p && t.cls = 0 && t.stage = stage && t.slot = slot && t.st ≠ .heldPlain)

/-- The latest leash of the non-plain tasks of a list, as a distance from now (R262). -/
def latestLeash (s : State) (l : List Task) : Option Int :=
  (l.filter (fun t => !t.plain && t.leashEn)).foldl (fun b t =>
    let r := rel s (leashAt s t)
    match b with
    | none => some r
    | some x => some (max x r)) none

/-- The budget of a stage as a distance from now (R262): the latest leash of its non-plain tasks, kept by a fallback for the plain ones. -/
def stageBudget (s : State) (p stage slot : Nat) : Option Int :=
  match latestLeash s (stageTasks s p stage slot) with
  | some b => some b
  | none => ((s.sched.fell.find? (fun x => x.1 = (p, stage, slot))).bind Prod.snd).map (rel s)

/-- N of a stage as a distance from now: a task that is not ready becomes ready at the end of its slot (R263, log
entry 14). -/
def stageStart (s : State) (l : List Task) : Int :=
  l.foldl (fun n t => if t.st = .waiting then max n (rel s (slotStart s t.slot) + 500000) else n) 0

/-- What a set of cores leaves of `work`, each with the time from which it works and its share, in order of time: the time at which the work
ends, or none. At time `t` cores of a share of `rate` work, and a share of 1 does `unit` in a nanosecond. -/
def workEnds (unit : Nat) : List (Int × Nat) → Nat → Int → Nat → Option Int
  | [], work, t, rate => if rate = 0 then none else some (t + ceilDiv work (rate * unit))
  | (a, share) :: rest, work, t, rate =>
    let done := rate * unit * (a - t).toNat
    if rate ≠ 0 ∧ work ≤ done then some (t + ceilDiv work (rate * unit)) else workEnds unit rest (work - done) a (rate + share)

/-- P(C) as a distance from now (R263): `cores` lists the time from which each core of C is available and its share. The result is rounded
up to a nanosecond; none when no core can run the stage. T0 is 0.813 802 ns. -/
def finishAt (s : State) (p : Nat) (l : List Task) (cores : List (Int × Nat)) : Option Int :=
  let n := stageStart s l
  let f : Int := (l.map (fun t => t.costNs)).foldl max 0
  let work := (l.map (cyclesLeft s)).sum * 813802 * (64 + fld s (R.PART_LEDGER.DROOP_ALLOW p)) * 24
  if work = 0 then some (n + f)
  else (workEnds (1000000 * 64) (sortBy (fun a b => a.1 ≤ b.1) (cores.map (fun x => (max x.1 n, x.2)))) work n 0).map (· + f)

/-- Is the stage predicted to miss (R263)? -/
def misses (s : State) (p stage slot : Nat) (cores : List (Int × Nat)) : Bool :=
  match stageBudget s p stage slot, finishAt s p (stageTasks s p stage slot) cores with
  | none, _ => false
  | some _, none => true
  | some b, some f => b - 1000 * (fld s (R.PART_LEDGER.MARGIN p) : Int) < f

/-- The cores a radio partition has, with the time from now at which each is available (R264, R273): those of its Quarters that are not
halted; those it has claimed, 12 microseconds after the claim, and one that is later than that from its first radio instruction. -/
def ownCores (s : State) (p : Nat) : List (Int × Nat) :=
  (List.range 96).filterMap (fun c =>
    let k := core s c
    match k.claim with
    | some cl =>
      let left : Int := 12000 - ((nowNs s + 2 ^ 32 - cl.at_) % 2 ^ 32 : Nat)
      if cl.part = p ∧ k.run ≠ .halted ∧ (0 ≤ left ∨ cl.started) then some (max left 0, coreShare s c) else none
    | none => if corePart s c = some p ∧ k.run ≠ .halted ∧ coreOn s c then some (0, coreShare s c) else none)

/-- Cores as they become available when they are claimed now (R264). -/
def lentCores (s : State) (cs : List Nat) : List (Int × Nat) := cs.map (fun c => (12000, coreShare s c))

/-- The fewest of the borrowable cores, in rising order, with which the stage is not predicted to miss (R265). -/
def fewest (s : State) (p stage slot : Nat) (b : List Nat) : Option (List Nat) :=
  ((List.range (b.length + 1)).map (fun k => b.take k)).find? (fun cs => !misses s p stage slot (ownCores s p ++ lentCores s cs))

/-- A fallback of one stage of one slot (R266, R260): tasks not started are discarded, running ones get a leash expiry,
and the plain tasks they name are released. It is final for the slot. At S_n with the model `absent` every held plain task of the stage
is released (log entry 42). -/
def fallback (s : State) (p stage slot : Nat) (absent : Bool) : State :=
  if s.sched.fell.any (fun x => x.1 = (p, stage, slot)) then s
  else
    let np := s.sched.tasks.filter (fun t => t.part = p && t.cls = 0 && t.stage = stage && t.slot = slot && !t.plain)
    let named := (np.filter (fun t => t.plainEn)).map (fun t => t.plainId)
    let held := s.sched.tasks.filter (fun t => t.part = p && t.stage = stage && t.slot = slot && t.st = .heldPlain)
    let budget := (latestLeash s np).map (fun r => wrapTo 32 (nowNs s + r))
    let s := bump (onSched s (fun d => { d with fell := ((p, stage, slot), budget) :: d.fell })) (R.PART_EVT.FALLBACKS p)
    let s := np.foldl withdrawTask s
    let s := (named.filter (fun i => held.all (fun t => t.id ≠ i))).foldl (fun s i =>
      report s 0x0307 0x7F [p, stage, slot, i]) s
    let s := np.foldl (fun s t =>
      match t.st with
      | .running c => leashExpire s c
      | _ => noteNotDone (taskDrop s t 4 0) t 4) s
    (held.filter (fun t => absent || named.contains t.id)).foldl makeReady s

/-- What the scheduler does about one stage at a decision instant (R265). -/
def decideStage (s : State) (p stage slot : Nat) : State :=
  let act (s : State) (mayFall : Bool) : State :=
    let l := stageTasks s p stage slot
    if l = [] ∨ !misses s p stage slot (ownCores s p) then s
    else
      match fewest s p stage slot (borrowable s p) with
      | some cs =>
        if stageStart s l - 1000 * (fld s (R.PART_LEDGER.LEAD p) : Int) ≤ 0 then
          cs.foldl (fun s c => claimCore s p ((l.head?.map (fun t => t.num)).getD 0) c) s
        else s
      | none => if mayFall then fallback s p stage slot false else s
  let s' := act s true
  if s'.sched.fell.length = s.sched.fell.length then s' else act s' false

/-- The open slots that a partition's ledger holds once its first slot has begun (R62, R286): the four oldest (R282). -/
def openSlots (s : State) (p : Nat) : List Nat :=
  if !s.sched.begun.contains p then []
  else
    let l := (s.sched.tasks.filter (fun t => t.part = p && t.cls = 0)).foldl (fun l t => if l.contains t.slot then l else l ++ [t.slot]) []
    (sortBy (fun a b => rel s (slotStart s a) ≤ rel s (slotStart s b)) l).take 4

/-- The stages that the radio partitions' ledgers hold, each once: (slot, budget, partition, stage, slot), in the order they
are acted on: the oldest slot first, then the earlier budget, then the lower partition (R262, R265, R283). -/
def ledgerEntries (s : State) : List (Int × Int × Nat × Nat × Nat) :=
  let parts := (List.range 12).filter (fun p => flag s (R.PART_CFG.EN p) && flag s (R.PART_CFG.RADIO p))
  let keys := parts.flatMap (fun p => (openSlots s p).flatMap (fun n => (List.range 16).map (fun g => (p, g, n))))
  let all := keys.filterMap (fun k =>
    if stageTasks s k.1 k.2.1 k.2.2 = [] then none
    else (stageBudget s k.1 k.2.1 k.2.2).map (fun b => (rel s (slotStart s k.2.2), b, k.1, k.2.1, k.2.2)))
  sortBy (fun a b => a.1 < b.1 || (a.1 = b.1 && (a.2.1 < b.2.1 || (a.2.1 = b.2.1 && a.2.2.1 ≤ b.2.2.1)))) all

/-- A decision instant: every radio scheduler evaluates every entry of its ledger (R262, R265). -/
def decide_ (s : State) : State :=
  (ledgerEntries s).foldl (fun s e => decideStage s e.2.2.1 e.2.2.2.1 e.2.2.2.2) s

/-! ### Meanings -/

/-- A write to a submit page (R257): staged as in R222, entered on the commit. -/
def submitWrite (s : State) (w : Who) (p off : Nat) (d : List Byte) : State :=
  match stage s 1 (stageSrc s w) off d with
  | (none, s) => s
  | (some m, s) => submitTask s p m

/-- TASK_SUBMIT (R257, R261): a write to partition `p`'s submit page by one of its Pilots or Warden; for any other agent the page is unmapped. -/
def execTaskSubmit (w : Who) (p off : Nat) (d : List Byte) (s : State) : Host.Outcome State Fault Refusal :=
  if 12 ≤ p ∨ 64 ≤ off then .fault .absentUnit
  else
    let may : Bool := match w with
      | .pilot c => activePart s c = some p
      | .warden => true
      | _ => false
    if may then finish (submitWrite s w p off d)
    else finish (reportUnmapped s w (ownGa s (0xA0000310000 + 0x1000 * p + off)) 1)

/-- TASK_DISPATCH (R258, R274): the scheduler of partition `p` dispatches its first ready task to its lowest free
core; a borrowed core that waits takes a radio task. -/
def execTaskDispatch (p : Nat) (s : State) : Host.Outcome State Fault Refusal :=
  if 12 ≤ p then .fault .absentUnit
  else
    let waits := (List.range 96).find? (fun c =>
      (core s c).run = .idle && (core s c).held.isSome && ((core s c).claim.map (fun cl => cl.part)) = some p)
    match (List.range 96).find? (coreFree s p), pickTask s p (fun _ => true) with
    | some c, some t => finish (dispatchOwn s c t)
    | none, some t =>
      match waits with
      | some c => if t.cls = 0 then finish (dispatchBorrowed s c t) else finish s
      | none => finish s
    | _, none => finish s

/-- TASK_END (R259): Pilot of core `c` writes TASK.END. -/
def execTaskEnd (c : Nat) (s : State) : Host.Outcome State Fault Refusal :=
  if c < 96 then finish (taskEndWrite s c) else .fault .absentUnit

/-- DECISION_INSTANT (R265): `after` ticks later the radio schedulers evaluate their ledgers. -/
def execDecisionInstant (after : Nat) (s : State) : Host.Outcome State Fault Refusal :=
  finish (decide_ (advance s after))

/-- LEASH_EXPIRY (R267): `after` ticks later, a leash whose deadline is reached expires. On a core that a claim holds
the leash is part of the spilled context and does not run (R268). -/
def execLeashExpiry (after c : Nat) (s : State) : Host.Outcome State Fault Refusal :=
  if 96 ≤ c then .fault .absentUnit
  else
    let s := advance s after
    let k := core s c
    if k.sysFlag R.LEASH_CTL.EN && !k.sysFlag R.LEASH_CTL.EXPIRED && k.run ≠ .yielded && due s (k.sysFld R.LEASH_DL.val)
    then finish (leashExpire s c) else finish s

/-- CLAIM_IMAGE_LOADED (R270): the radio image is loaded, BORROWED is set and the radio task starts. -/
def execClaimImageLoaded (c : Nat) (s : State) : Host.Outcome State Fault Refusal :=
  if c < 96 then finish (claimLoaded s c) else .fault .absentUnit

end Sys2Proof.Machine
end

