-- ==== Sys2Proof/Machine/Weave.lean ====
section
/-!
DEFINITION. The Weave fabric (R356 to R363, R369 to R378) and the Kerind LDPC decoder (R364 to R372), bit for bit.
-/
namespace Sys2Proof.Machine

/-- An instance as reset leaves it (R378). -/
def Weave.reset : Weave := ⟨[], [], [], [], none, [], none, 0, []⟩

/-- Weave instance `w`. -/
def weave (s : State) (w : Nat) : Weave := tabGet s.weave w Weave.reset

/-- Change instance `w`; WV_FIFO follows the descriptors it holds. -/
def onWeave (s : State) (w : Nat) (f : Weave → Weave) : State :=
  let x := f (weave s w)
  setFld { s with weave := tabSet s.weave w x } (R.WV_FIFO.val w) x.fifo.length

/-- Is an instance powered (R378, R509)? In NIGHT only instance 0 is, in WATCH none. -/
def weavePowered (s : State) (w : Nat) : Bool :=
  let st := fld s R.PWR_STATE.STATE
  st ≤ 1 || (st = 2 && w = 0)

/-! ### The LDPC family (R364, R365) -/

/-- Information columns of a base graph: 0 KB-A, 1 KB-B. -/
def bgInfo (bg : Nat) : Nat := if bg = 0 then 16 else 8

/-- The lifts of Table R365 by ZI. -/
def liftOf (zi : Nat) : Nat := [16, 24, 32, 48, 64, 96, 128, 192, 256, 384].getD zi 0

/-- Is P a rate of Table 11-6? -/
def rateOk (bg p : Nat) : Bool :=
  if bg = 0 then [2, 4, 8, 16, 24, 32].contains p else [1, 2, 4, 8, 12, 16].contains p

/-- Is the information entry (i, j) present? -/
def infoEntry (bg i j : Nat) : Bool :=
  if bg = 0 then (5 * i + 7 * j) % 16 < (if i < 2 then 12 else 4) else (3 * i + 5 * j) % 8 < (if i < 2 then 6 else 3)

/-- Its shift. -/
def infoShift (bg i j : Nat) : Nat :=
  if bg = 0 then (17 * i + 29 * j + 11 * i * j) % 384 else (13 * i + 23 * j + 7 * i * j) % 384

/-- One edge of a row: its class (R370), block column and shift. -/
structure LEdge where
  cls : Nat
  col : Nat
  shift : Nat
deriving DecidableEq, Repr

/-- The edges of row `i`, information columns first, then the parity columns. -/
def rowEdges (bg i : Nat) : List LEdge :=
  let c := if i < 2 then 0 else 1
  ((List.range (bgInfo bg)).filter (infoEntry bg i)).map (fun j => ⟨c, j, infoShift bg i j⟩) ++
    (if i = 0 then [] else [⟨2 + c, bgInfo bg + i - 1, 0⟩]) ++ [⟨2 + c, bgInfo bg + i, 0⟩]

/-- The variable of an edge at check `z`. -/
def LEdge.var (e : LEdge) (lift z : Nat) : Nat := e.col * lift + (z + e.shift % lift) % lift

/-! ### Configurations (Table 11-8) -/

def cfgBits (c : List Byte) (hi lo : Nat) : Nat := bitsOf (fieldLE c 0 2) hi lo
def cfgBg (c : List Byte) : Nat := cfgBits c 0 0
def cfgLift (c : List Byte) : Nat := liftOf (cfgBits c 4 1)
def cfgP (c : List Byte) : Nat := cfgBits c 10 5
def cfgIter (c : List Byte) : Nat := cfgBits c 15 11 + 1
def cfgW (c : List Byte) (t e : Nat) : Nat := bitsOf (fieldLE c (0x10 + 4 * t + e) 1) 4 0
def cfgK (c : List Byte) : Nat := bgInfo (cfgBg c) * cfgLift c
def cfgN (c : List Byte) : Nat := (bgInfo (cfgBg c) + cfgP c) * cfgLift c

/-- Does a configuration name a code of the family? -/
def cfgOk (c : List Byte) : Bool := cfgBits c 4 1 ≤ 9 && rateOk (cfgBg c) (cfgP c)

/-! ### The decoder (R371) -/

/-- Clamp to −127 to 127. -/
def sat127 (x : Int) : Int := max (-127) (min 127 x)

/-- An LLR code; −128 is read as −127 (R349). -/
def llrCode (b : Byte) : Int := max (-127) (signed 8 b.toNat)

/-- The posteriors before the first iteration: filler +127, a sent bit the saturating sum of its LLRs in the order sent,
an unsent bit 0 (R367, R371). -/
def llrInit (k n f : Nat) (llr : List Byte) : Array Int :=
  let l0 : Array Int := Array.replicate n 0
  let l1 := (List.range f).foldl (fun l i => l.setIfInBounds (k - f + i) 127) l0
  (List.zip (List.range llr.length) llr).foldl (fun l x =>
    let p := x.1 % (n - f)
    let v := if p < k - f then p else p + f
    l.setIfInBounds v (sat127 (l.getD v 0 + llrCode x.2))) l1

/-- The decoder's variables: posteriors, edge messages by row, and rows done. -/
structure LdpcSt where
  l : Array Int
  r : Array (Array Int)
  done : Nat

/-- The two smallest magnitudes and the first edge that holds the smallest. -/
def twoMin (q : List Int) : Nat × Nat × Nat :=
  (List.zip (List.range q.length) q).foldl (fun x y =>
    let (m1, m2, e) := x
    let a := y.2.natAbs
    if a < m1 then (a, m1, y.1) else if a < m2 then (m1, a, e) else x) (128, 128, 0)

/-- The messages of one check. -/
def checkMsgs (w : List Nat) (q : List Int) : List Int :=
  let s : Int := q.foldl (fun p x => if x < 0 then -p else p) 1
  let (m1, m2, e1) := twoMin q
  (List.zip (List.range q.length) (List.zip w q)).map (fun y =>
    let mag := if y.1 = e1 then m2 else m1
    let v : Int := min 127 ((y.2.1 * mag + 8) / 16 : Nat)
    if y.2.2 < 0 then -(s * v) else s * v)

/-- One layer: every check of a row. A filler variable stays at +127. -/
def ldpcRow (c : List Byte) (k f t i : Nat) (x : LdpcSt) : LdpcSt :=
  let lift := cfgLift c
  let es := rowEdges (cfgBg c) i
  let w := es.map (fun e => cfgW c t e.cls)
  let n := es.length
  let r0 := x.r.getD i #[]
  let (l, r) := (List.range lift).foldl (fun (l, r) z =>
    let vs := es.map (fun e => e.var lift z)
    let q := (List.zip (List.range n) vs).map (fun y => sat127 (l.getD y.2 0 - r.getD (n * z + y.1) 0))
    let m := checkMsgs w q
    (List.zip (List.range n) (List.zip vs (List.zip q m))).foldl (fun (l, r) y =>
      let (e, v, qe, me) := y
      let r := r.setIfInBounds (n * z + e) me
      (if k - f ≤ v ∧ v < k then l else l.setIfInBounds v (sat127 (qe + me)), r)) (l, r)) (x.l, r0)
  ⟨l, x.r.setIfInBounds i r, x.done + 1⟩

/-- Is every used check satisfied? -/
def syndromeOk (c : List Byte) (l : Array Int) : Bool :=
  (List.range (cfgP c)).all (fun i => (List.range (cfgLift c)).all (fun z =>
    ((rowEdges (cfgBg c) i).filter (fun e => l.getD (e.var (cfgLift c) z) 0 < 0)).length % 2 = 0))

/-- What decoding gives: posteriors, iterations and whether it converged. -/
structure Decoded where
  l : Array Int
  iters : Nat
  conv : Bool

/-- The schedule, stopped before row `limit` of all rows where a limit is given (R374). -/
def ldpcRun (c : List Byte) (f : Nat) (llr : List Byte) (limit : Option Nat) : Decoded :=
  let k := cfgK c
  let p := cfgP c
  let past (x : LdpcSt) : Bool := limit.any (fun m => m ≤ x.done)
  let r0 : Array (Array Int) := ((List.range p).map (fun i =>
    Array.replicate (cfgLift c * (rowEdges (cfgBg c) i).length) 0)).toArray
  let start : LdpcSt := ⟨llrInit k (cfgN c) f llr, r0, 0⟩
  let (x, conv, iters) := (List.range (cfgIter c)).foldl (fun (x, conv, iters) t =>
    if conv ∨ past x then (x, conv, iters)
    else
      let x := (List.range p).foldl (fun x i => if past x then x else ldpcRow c k f t i x) x
      (x, (!past x || x.done = p * (t + 1)) && syndromeOk c x.l, iters + 1)) (start, false, 0)
  ⟨x.l, iters, conv⟩

/-- The segment's bits as bytes, bit 7 of each byte first (R366). -/
def packBits (l : Array Int) (n : Nat) : List Byte :=
  (List.range n).map (fun i =>
    BitVec.ofNat 8 ((List.range 8).foldl (fun b j => 2 * b + num (l.getD (8 * i + j) 0 < 0)) 0))

/-- CRC-24 of the Kerind family (R366). -/
def crc24 (d : List Byte) : Nat := crcBits 24 0x5D6DCB 0 (d.flatMap byteBitsMsb)

/-- The CRC-8 of a whisper header over its 20 bits (R368). -/
def crc8 (bits : List Bool) : Nat := crcBits 8 0x07 0 bits

/-! ### Descriptors (Table 11-7) -/

def CwItem.f (x : CwItem) (byte n hi lo : Nat) : Nat := bitsOf (fieldLE x.desc byte n) hi lo
def CwItem.cfg (x : CwItem) : Nat := x.f 0 4 3 0
def CwItem.cw (x : CwItem) : Nat := x.f 0 4 10 4
def CwItem.c (x : CwItem) : Nat := x.f 0 4 17 11 + 1
def CwItem.slot (x : CwItem) : Nat := x.f 4 4 31 0
def CwItem.llrGa (x : CwItem) : Nat := x.f 8 6 47 0
def CwItem.e (x : CwItem) : Nat := x.f 0x10 4 23 0
def CwItem.fill (x : CwItem) : Nat := x.f 0x14 2 15 0
def CwItem.outGa (x : CwItem) : Nat := x.f 0x18 6 47 0
def CwItem.recGa (x : CwItem) : Nat := x.f 0x20 6 47 0
def CwItem.doneSync (x : CwItem) : Nat := x.f 0x28 2 13 0
def CwItem.doneEn (x : CwItem) : Bool := x.f 0x28 2 15 15 = 1
def CwItem.cutoff (x : CwItem) : Nat := x.f 0x2C 4 31 0
def CwItem.tag (x : CwItem) : Nat := x.f 0x30 2 15 0

/-- May this descriptor name this range (R369)? -/
def CwItem.gaOk (x : CwItem) (s : State) (ga n : Nat) : Bool :=
  inLp5x s ga n || x.part.any (fun p => inBanks0to9 s p ga n)

/-- The decode deadline of a descriptor: S_n + 1200 µs, or CUTOFF when that is earlier (R374). -/
def CwItem.deadline (x : CwItem) (s : State) : Nat :=
  let d := (symTime s x.slot 0 + 1200000) % 2 ^ 32
  if x.cutoff ≠ 0 ∧ signed 32 (x.cutoff + 2 ^ 32 - d) < 0 then x.cutoff else d

/-! ### Blocks and records (R369, R372, R375, R376) -/

/-- The block with a number. -/
def weaveBlock (s : State) (w n : Nat) : Option WBlock := (weave s w).blocks.find? (fun b => b.num = n)

/-- Change a block. -/
def onBlock (s : State) (w n : Nat) (f : WBlock → WBlock) : State :=
  onWeave s w (fun x => { x with blocks := x.blocks.map (fun b => if b.num = n then f b else b) })

/-- A status applies to a block. -/
def blockFlag (s : State) (w n st : Nat) : State := onBlock s w n (fun b => { b with flags := st :: b.flags })

/-- The status a record carries: the highest that applies (R372). -/
def WBlock.status (b : WBlock) (crcOk : Bool) : Nat := b.flags.foldl max (if crcOk then 0 else 1)

/-- The record of Table 11-9, then DONE_SYNC. A record that cannot be written ends neither way (R31). -/
def blockRecord (s : State) (w : Nat) (x : CwItem) (plane : Nat) : State :=
  match weaveBlock s w x.block with
  | none => s
  | some b =>
    let all := b.segs.flatten
    let crcOk := b.segs.length = b.c && 3 ≤ all.length && crc24 all = 0
    let rec_ := b.status crcOk + 2 ^ 8 * (b.c % 16) + 2 ^ 12 * b.maxIter + 2 ^ 24 * num b.suspect + 2 ^ 25 * num crcOk +
      2 ^ 32 * x.tag + 2 ^ 64 * nowNs s + 2 ^ 96 * (b.total % 2 ^ 32)
    let s := onWeave s w (fun v => { v with blocks := v.blocks.filter (fun y => y.num ≠ b.num) })
    if x.recGa % 16 ≠ 0 then s
    else if !x.gaOk s x.recGa 16 then reportUnmapped s (.weave w) x.recGa 1
    else
      let s := unitWrite s (.weave w) x.recGa (bytesLE 16 rec_) false
      let s := onWeave s w (fun v => { v with recs := (plane, x.recGa) :: v.recs })
      signalDone s x.doneEn x.doneSync (.weave w)

/-- A codeword descriptor is committed (R369): it joins the block being committed, starts a block, or breaks the order, in
which case both blocks fail (R376). One that finds 256 held is dropped (R375). -/
def codewordCommit (s : State) (w : Nat) (part : Option Nat) (d : List Byte) : State :=
  let x : CwItem := ⟨part, d, (weave s w).next⟩
  let open_ := (weave s w).ctx.bind (weaveBlock s w)
  let cont := open_.any (fun b => b.c = x.c && b.next = x.cw && b.slot = x.slot)
  let stray := !cont && (open_.isSome || x.cw ≠ 0)
  let bad := stray || 16 < x.c || x.c ≤ x.cw
  let (s, n) := match open_ with
    | some b =>
      if cont then (s, b.num)
      else (blockFlag (onBlock s w b.num (fun b => { b with skip := true })) w b.num 4, (weave s w).next)
    | none => (s, (weave s w).next)
  let s := if cont then s
    else onWeave s w (fun v => { v with
      next := v.next + 1, blocks := v.blocks ++ [⟨n, x.c, x.slot, 0, [], false, 0, 0, false, []⟩] })
  let x := { x with block := n }
  let s := onBlock s w n (fun b => { b with next := x.cw + 1, skip := b.skip || bad })
  let s := if bad then blockFlag s w n 4 else s
  let s := onWeave s w (fun v => { v with ctx := if x.c ≤ x.cw + 1 then none else some n })
  if 256 ≤ (weave s w).fifo.length then
    let s := blockFlag (report (bump s (R.WV_DROPPED.val w)) 0x0605 (98 + w) [1, w]) w n 5
    if x.cw + 1 = x.c then blockRecord s w x 2 else s
  else onWeave s w (fun v => { v with fifo := v.fifo ++ [x] })

/-- May this agent write the submit page of an instance (R369)? -/
def weavePageOpen (s : State) (w : Who) : Bool :=
  match w with
  | .warden => true
  | .pilot c => (activePart s c).any (fun p => flag s (R.PART_CFG.RADIO p))
  | .vec c => (activePart s c).any (fun p => flag s (R.PART_CFG.RADIO p))
  | _ => false

/-- A write to the submit page of instance `i`: staged, and committed in the manner of R222. In NIGHT the page of
instance 1 is unmapped (R378). -/
def weaveWrite (s : State) (w : Who) (i off : Nat) (d : List Byte) : State :=
  if !weavePageOpen s w ∨ !weavePowered s i then reportUnmapped s w (ownGa s (0xA0000541000 + 0x1000 * i + off)) 1
  else
    match stage s (3 + 2 * i) (stageSrc s w) off d with
    | (none, s) => s
    | (some m, s) => codewordCommit s i (w.core?.bind (activePart s)) m

/-! ### Decoding (R360, R371 to R377) -/

/-- The plane bound to a slot. -/
def slotPlane (s : State) (w slot : Nat) : Option Nat := ((weave s w).bound.find? (fun b => b.1 = slot)).map (fun b => b.2)

/-- A descriptor's codeword is over: the last one of a block writes its record. -/
def itemDone (s : State) (w : Nat) (x : CwItem) (plane : Nat) : State :=
  let s := onWeave s w (fun v => { v with fifo := v.fifo.drop 1, cur := none })
  if x.cw + 1 = x.c then blockRecord s w x plane else s

/-- Why a codeword is not decoded, or its plane and configuration. -/
def codewordCheck (s : State) (w : Nat) (x : CwItem) : Nat ⊕ (Nat × List Byte) :=
  match slotPlane s w x.slot with
  | none => .inl 4
  | some pl =>
    match tabFind (weave s w).planes pl with
    | none => .inl 4
    | some p =>
      if bitOf (fld s (R.WV_PSTAT.FAILED w)) pl then .inl 6
      else if p.kind ≠ 1 then .inl 4
      else
        match p.cfgs[x.cfg]? with
        | none => .inl 4
        | some c =>
          let k := cfgK c
          if !cfgOk c ∨ k ≤ x.fill ∨ (k - x.fill) % 8 ≠ 0 ∨ x.e = 0 ∨ 4 * (cfgN c - x.fill) < x.e then .inl 4
          else if !x.gaOk s x.llrGa x.e ∨ !x.gaOk s x.outGa ((k - x.fill) / 8) then .inl 4
          else .inr (pl, c)

/-- A codeword that has not started at its deadline is not decoded: LATE, beside what else applies to it (R372, R374). The plane of a slot that
far back need not be held. -/
def codewordLate (s : State) (w : Nat) (x : CwItem) : State :=
  let s' := blockFlag s w x.block 3
  match slotPlane s w x.slot, codewordCheck s w x with
  | some pl, .inl st => itemDone (blockFlag s' w x.block st) w x pl
  | some pl, .inr _ => itemDone s' w x pl
  | none, _ => itemDone s' w x 2

/-- The instance starts the next codeword (R371): one that cannot be decoded, or has not started at its deadline, is passed over. Under a shed instance 1 starts none (R523). -/
def codewordDecode (s : State) (w : Nat) : State :=
  let v := weave s w
  match v.cur, v.fifo with
  | none, x :: _ =>
    if !flag s (R.WV_CTL.EN w) ∨ !weavePowered s w ∨ (w = 1 ∧ flag s R.PWR_STATE.SHED) then s
    else if (weaveBlock s w x.block).any (fun b => b.skip) then itemDone s w x 2
    else if due s (x.deadline s) then codewordLate s w x
    else
      match codewordCheck s w x with
      | .inl st => itemDone (blockFlag s w x.block st) w x 2
      | .inr (pl, c) =>
        match readRange s (.weave w) x.llrGa x.e with
        | .ok d s =>
          if d.2 then itemDone (blockFlag s w x.block 7) w x pl
          else onWeave s w (fun v => { v with cur := some ⟨x, pl, c, d.1⟩ })
        | .unmapped s => itemDone (blockFlag (reportUnmapped s (.weave w) x.llrGa 1) w x.block 4) w x pl
        | .wait s => s
  | _, _ => s

/-- Write a decoded segment and account for it. -/
def segmentOut (s : State) (w : Nat) (r : CwRun) (d : Decoded) : State :=
  let x := r.item
  let seg := packBits d.l ((cfgK r.cfg - x.fill) / 8)
  let s := match writeRange s (.weave w) x.outGa seg false with
    | .ok _ s => s
    | .wait s => { s with posted := s.posted ++ [.write (.weave w) x.outGa seg false] }
    | .unmapped s => blockFlag (reportUnmapped s (.weave w) x.outGa 1) w x.block 4
  let s := setFld s (R.WV_ITER_TOTAL.val w) (fld s (R.WV_ITER_TOTAL.val w) + d.iters)
  onBlock s w x.block (fun b => { b with
    segs := b.segs ++ [seg], maxIter := max b.maxIter d.iters, total := b.total + d.iters })

/-- The codeword in progress terminates (R372). -/
def codewordEnd (s : State) (w : Nat) : State :=
  match (weave s w).cur with
  | none => s
  | some r =>
    let d := ldpcRun r.cfg r.item.fill r.llr none
    let s := bump (segmentOut s w r d) (R.WV_CW_COUNT.val w)
    let s := if d.conv then s else blockFlag s w r.item.block 2
    let s := if bitOf (fld s (R.WV_PSTAT.FAILED w)) r.plane then blockFlag s w r.item.block 6 else s
    itemDone s w r.item r.plane

/-- Codewords at the front whose deadline has passed are not decoded. -/
def skipLate : Nat → State → Nat → State
  | 0, s, _ => s
  | fuel + 1, s, w =>
    match (weave s w).fifo with
    | x :: _ =>
      if !due s (x.deadline s) then s
      else if (weaveBlock s w x.block).any (fun b => b.skip) then skipLate fuel (itemDone s w x 2) w
      else skipLate fuel (codewordLate s w x) w
    | [] => s

/-- A decode deadline passes (R374): the codeword in progress stops after `rows` rows and writes its current bits;
codewords that have not started are skipped. -/
def decodeDeadline (s : State) (w rows : Nat) : State :=
  match (weave s w).cur with
  | some r =>
    if !due s (r.item.deadline s) then s
    else
      let d := ldpcRun r.cfg r.item.fill r.llr (some rows)
      let s := bump (segmentOut s w r d) (R.WV_LATE.val w)
      let s := itemDone (blockFlag s w r.item.block 3) w r.item r.plane
      skipLate (weave s w).fifo.length s w
  | none => skipLate (weave s w).fifo.length s w

/-! ### Planes (R357, R359 to R361, R377, R378) -/

/-- The canonical form of a cell frame: reserved bits at zero (R357). -/
def canonFrame (d : List Byte) : List Byte :=
  let w := fieldLE d 0 16
  bytesLE 16 (putBits (putBits w 31 29 0) 127 92 0)

/-- Is a frame valid under Table 11-3: no ALU, source or register source outside its codes? REG_SRC names 0 to 9. -/
def frameOk (d : List Byte) : Bool := bitsOf (fieldLE d 0 16) 91 88 ≤ 9

/-- The 16 bytes of a cell's frame. -/
def cellFrame (frames : List Byte) (cell : Nat) : List Byte := sliceBytes frames (16 * cell) 16

/-- Is a plane in use (R359): selected for the next boundary while it holds an image, or short of the third boundary
after it was last bound? -/
def planeInUse (s : State) (w pl : Nat) : Bool :=
  bitOf (fld s (R.WV_PSTAT.VALID w)) pl &&
    (fld s (R.WV_CTL.SEL w) = pl ||
      (match tabFind (weave s w).lastBound pl with
      | some n => s.radio.boundaries < n + 3
      | none => false))

/-- Load a checked image into a plane. -/
def planeLoad (s : State) (w pl : Nat) (p : WPlane) : State :=
  let s := onWeave s w (fun v => { v with planes := tabSet v.planes pl p })
  let s := setReg s (if pl = 0 then R.WV_PLANE.val w else R.WV_PLANE.val_HI w).off p.image
  let s := setFlag s ⟨(R.WV_PSTAT.VALID w).off, pl, pl⟩ true
  setFlag s ⟨(R.WV_PSTAT.VALID w).off, 2 + pl, 2 + pl⟩ false

/-- An uncorrectable error in a golden copy: the plane is FAILED (R377). -/
def planeFail (s : State) (w pl : Nat) : State := setFlag s ⟨(R.WV_PSTAT.VALID w).off, 2 + pl, 2 + pl⟩ true

/-- At S_n the selected plane is bound to slot n where it is VALID (R360). Called after the boundary is counted. -/
def planeBoundary (s : State) (w : Nat) : State :=
  let pl := fld s (R.WV_CTL.SEL w)
  if !bitOf (fld s (R.WV_PSTAT.VALID w)) pl ∨ !weavePowered s w then s
  else
    let n := fld s R.KSLOT_NUM.val
    let b := s.radio.boundaries
    onWeave (setFld s (R.WV_PSTAT.BOUND w) pl) w (fun v => { v with
      bound := ((n, pl) :: v.bound).take 8, lastBound := tabSet v.lastBound pl b })

/-- One frame of a readback (R361): no difference, one in reserved bits only, or one in a used bit, which is repaired from
the golden copy; then the plane's codewords since the last readback are SUSPECT. -/
def scrubFrame (s : State) (w : Nat) (r : FrameRead) : State :=
  match tabFind (weave s w).planes r.plane with
  | none => s
  | some p =>
    let g := cellFrame p.frames r.cell
    if g = r.data then s
    else if canonFrame g = canonFrame r.data then bump s (R.WV_BENIGN.val w)
    else
      let s := report (bump s (R.WV_SCRUB_FIX.val w)) 0x0403 (98 + w) [w, r.plane, r.cell]
      let s := ((weave s w).recs.filter (fun x => x.1 = r.plane)).foldl (fun s x =>
        let (d, _, s) := (readRange s (.weave w) (x.2 + 3) 1).bytes 1
        unitWrite s (.weave w) (x.2 + 3) [BitVec.ofNat 8 (putBits (numLE d) 0 0 1)] false) s
      onWeave s w (fun v => { v with blocks := v.blocks.map (fun b =>
        if b.segs ≠ [] ∧ v.bound.contains (b.slot, r.plane) then { b with suspect := true } else b) })

/-- The readback of every 100 ms; `reads` are the frames that differ from the golden copy (R361). -/
def weaveScrub (s : State) (w : Nat) (reads : List FrameRead) : State :=
  if !flag s (R.WV_CTL.SCRUB_EN w) ∨ !weavePowered s w then s
  else
    let s := reads.foldl (fun s r => scrubFrame s w r) s
    onWeave s w (fun v => { v with recs := [] })

/-! ### Meanings -/

/-- CODEWORD_DESCRIPTOR (R369): a write to the submit page of an instance; one that includes byte 0x3F commits the
descriptor. -/
def execCodewordDescriptor (w : Who) (inst off : Nat) (d : List Byte) (s : State) : Host.Outcome State Fault Refusal :=
  if inst < 2 ∧ off < 64 then finish (weaveWrite s w inst off d) else .fault .absentUnit

/-- CODEWORD_DECODE (R371): the instance starts its next codeword. -/
def execCodewordDecode (inst : Nat) (s : State) : Host.Outcome State Fault Refusal :=
  if inst < 2 then finish (codewordDecode s inst) else .fault .absentUnit

/-- CODEWORD_END (R372): the codeword in progress terminates. -/
def execCodewordEnd (inst : Nat) (s : State) : Host.Outcome State Fault Refusal :=
  if inst < 2 then finish (codewordEnd s inst) else .fault .absentUnit

/-- DECODE_DEADLINE (R374): `after` ticks later a decode deadline has passed; the codeword in progress has run `rows`
rows. -/
def execDecodeDeadline (after inst rows : Nat) (s : State) : Host.Outcome State Fault Refusal :=
  if inst < 2 then finish (decodeDeadline (advance s after) inst rows) else .fault .absentUnit

/-- WEAVE_SCRUB (R361): the planes are read back and compared with their golden copies. -/
def execWeaveScrub (inst : Nat) (reads : List FrameRead) (s : State) : Host.Outcome State Fault Refusal :=
  if inst < 2 then finish (weaveScrub s inst reads) else .fault .absentUnit

end Sys2Proof.Machine
end

