-- ==== Sys2Proof/Machine/Reset.lean ====
section
/-!
DEFINITION. What the resets of Table 17-1 clear and keep (R10, R530 to R534, R546).
-/
namespace Sys2Proof.Machine

/-- The events of Table 0-4, with power-on, through which nothing is kept. -/
inductive ResetEv where
  | power | dormant | warm | core
deriving DecidableEq, Repr

/-- Does a field keep its value through an event (R10)? -/
def Kept.through (k : Kept) : ResetEv → Bool
  | .power => false
  | .dormant => k.dormant
  | .warm => k.warm
  | .core => k.core

/-- Fields that report live hardware and that no reset of the chip changes: CLK_STAT's levels, PWRFAIL and SHED, EG_STAT and
the PCIE_ROLE strap; through a core reset also Ethernet's link levels and the flash controller's BUSY and PRESENT (log entry 32). -/
def RegField.live (r : RegField) (ev : ResetEv) : Bool :=
  (r.base = R.CLK_STAT.PLL_LOCK.off && r.hi ≤ 1) || (r.base = R.PWR_STATE.STATE.off && r.lo = 3) ||
    (r.base = R.PWR_STATE.STATE.off && r.lo = 4) || r.base = R.EG_STAT.VIN.off ||
    (r.base = R.HIF_STAT.ROLE.off && r.lo = R.HIF_STAT.ROLE.lo) || r.base = R.RST_CAUSE.POWER_ON.off ||
    (ev = .core && (r.base = (R.ETH_STAT.LINK 0).off || r.base = R.XSPI_STAT.BUSY_A.off))

/-- One register word after an event. -/
def resetWord (ev : ResetEv) (off w : Nat) : Nat :=
  (devRows off).foldl (fun w r =>
    match rowIndex r off with
    | some (i, j) => if r.kept.through ev || r.live ev then w else putBits w r.hi r.lo (r.reset + r.resetStep * (i + j))
    | none => w) w

/-- Every device register after an event. -/
def resetRegs (s : State) (ev : ResetEv) : State :=
  { s with regs := s.regs.map (fun p => (p.1, BitVec.ofNat 32 (resetWord ev p.1 p.2.toNat))) }

/-- Tile memory and IMEM of one core lose their content. -/
def loseTile (s : State) (c : Nat) : State :=
  let s := eraseRange (eraseRange s (tileAddr c 0) 0x200000) (imemAddr c 0) 0x20000
  cleanRange (cleanRange s (tileAddr c 0) 0x200000) (imemAddr c 0) 0x20000

/-- Tile memory and IMEM of every core lose their content (R217). -/
def loseTiles (s : State) : State :=
  let s := eraseRange (eraseRange s (tileAddr 0 0) (96 * 0x200000)) (imemAddr 0 0) (96 * 0x20000)
  { s with marks := { s.marks with poisonWords := [] } }

/-- What the core domain holds, after a reset of it (R533, R217, R252, R286, R314, R440). Directories and heaps of the pool
and the journals in flash keep their content. -/
def coreDomainReset (s : State) (ev : ResetEv) : State :=
  let s := loseTiles s
  { s with
    posted := [], cores := [], syncs := [], queues := Queues.reset, sched := Sched.reset, coh := Coh.reset,
    fabric := Fabric.reset, ports := [],
    pool := { PoolSt.reset with used := s.pool.used, crcs := s.pool.crcs, genFlash := s.pool.genFlash },
    domain := { Domain.reset with die := s.domain.die },
    host := { s.host with hdma := [], hdmaAt := [] },
    eth := { s.eth with done := [], paused := [] },
    time := { s.time with
      latchHi := [], latchFrac := [], badRun := 0, goodRun := 0, sinceAdmit := 0, lastCheck := extTime s, sent := [] }
    regs := (resetRegs s ev).regs }

/-- The prediction that the newest record holds (R579). -/
def storedPredict (l : List HealthRec) : Predict :=
  match (sortBy (fun a b => b.day ≤ a.day) l).head? with
  | some r => { r.pred with at_ := 0 }
  | none => Predict.reset

/-- Warden as a boot finds it: what OTP, flash, the test port and the retention domain hold is kept (R495, R500, R567, R579). -/
def wardenReset (s : State) (ev : ResetEv) : State :=
  let w := s.wdn
  { s with
    wdn := { WdnSt.reset with
      epoch := if ev = .warm then w.epoch else 0, otp := w.otp, tap := if ev = .power then TapSt.reset else { w.tap with scope := 0, sram := [] }
      health := { WdnSt.reset.health with recs := w.health.recs, pred := storedPredict w.health.recs }
      boot := { w.boot with rom := false, recovery := false, dormant := false, leaving := none }
      ckpt := if ev = .dormant then w.ckpt else [] }
    events := [] }

/-- Everything that a power-on, a warm reset or a stay in DORMANT clears (R530, R406, R529, Table 17-5). -/
def hardReset (s : State) (ev : ResetEv) : State :=
  let s := wardenReset (coreDomainReset s ev) ev
  let s : State := { s with
    weave := [], radio := RadioSt.reset, host := HostIo.reset, eth := EthSt.reset, flash := FlashSt.reset
    time := if ev = .dormant then { TimeSt.reset with frac := s.time.frac } else TimeSt.reset
    marks := { s.marks with
      candidates := [], corrected := if ev = .power then [] else s.marks.corrected
      poisonLines := if ev = .power then [] else s.marks.poisonLines
      patrol := if ev = .dormant then s.marks.patrol else 0 } }
  let s := (List.range 12).foldl (fun s q => setFld s (R.QCLK.DROOP_THR q) s.wdn.otp.droop) s
  let s := setFld s R.BOOT_STAT.ROLLBACK s.wdn.otp.floor
  if ev = .power then
    { eraseRange s 0 0x1000000000 with pool := { s.pool with used := [] } }
  else s

/-- Port 2 of Ethernet runs again with its kept settings after a core reset, and the ports of the block are enabled again
(R468, R440). -/
def afterCoreReset (s : State) (block : Option (List Byte)) (eth2 : Bool) : State :=
  let s := setFlag s (R.ETH_CTL.EN 2) eth2
  match block with
  | some b => domainAccept s b
  | none => s

/-- A core reset (R533): the core domain is reset, Warden runs on. -/
def coreReset (s : State) : State :=
  let block := s.domain.block
  let eth2 := flag s (R.ETH_CTL.EN 2)
  let s := afterCoreReset (coreDomainReset (leaveFinish s) .core) block eth2
  let s := setFlag (setReg s R.RST_CAUSE.POWER_ON.off 0) R.RST_CAUSE.CORE_CMD true
  onWdn s (fun w => { w with boot := { w.boot with leaving := none }, ckpt := [] })

/-! ### Partition reset (R532, R286, R252, R251) -/

/-- The cores of a partition, powered or not. -/
def homeCores (s : State) (p : Nat) : List Nat := (List.range 96).filter (fun c => quarterHome s (c / 8) = some p)

/-- Every core that a partition has borrowed returns, its radio task ended ABORTED (R286). -/
def returnBorrowed (s : State) (p : Nat) : State :=
  (List.range 96).foldl (fun s c =>
    match (core s c).claim with
    | some cl =>
      if cl.part ≠ p then s
      else if (core s c).held.isSome then
        let s := match (core s c).task.bind (taskNum s) with
          | some t => taskEnd s t 1 0
          | none => s
        let s := onCore (clearStaged (abandonWait s c) (128 + c)) c (fun k => { k with task := none, lanes := { k.lanes with
          running := none, pending := none, drain := none, stop := false, stopped := false } })
        returnCore s c
      else
        -- a claim that has not reached its image is withdrawn
        let s := match corePart s c with
          | some q => setFld s (R.PART_STAT.LENT q) (fld s (R.PART_STAT.LENT q) - 1)
          | none => s
        onCore s c (fun k =>
          let k := k.setSys R.CLAIM.CLAIMED 0
          { k with
            claim := none, lanes := { k.lanes with stop := false, stopped := false }
            pc := if k.run = .yielded ∧ k.task.isSome then k.sysWord c R.CLAIM_RPC.val.off else k.pc
            run := if k.run = .yielded then (if k.task.isSome then .running else .idle) else k.run })
    | none => s) s

/-- A system register word after a partition reset of its core (R10). -/
def sysKept (i v : Nat) : Nat :=
  sysRows.foldl (fun w r => if (rowIndex r i).isSome ∧ !r.kept.part then putBits w r.hi r.lo r.reset else w) v

/-- A core of a partition that is reset (R531, R532): its waits are withdrawn, its transfers abandoned, its registers and
rescale table cleared; what a partition reset keeps of Table 3-9 is kept. -/
def resetCore (s : State) (c : Nat) : State :=
  let s := clearStaged (clearStaged (abandonWait (withdrawCore s c true) c) c) (128 + c)
  let s : State := { s with time := { s.time with
    latchHi := tabErase (tabErase s.time.latchHi c) (128 + c), latchFrac := tabErase (tabErase s.time.latchFrac c) (128 + c) } }
  onCore (cleanRange s (rescAddr c 0) 0x4000) c (fun k => { Core.reset with
    sys := k.sys.map (fun x => (x.1, BitVec.ofNat 32 (sysKept x.1 x.2.toNat)))
    run := if k.run = .inReset then .inReset else .idle
    lanes := { Lanes.reset with active := k.lanes.active, shadow := k.lanes.shadow } })

/-- The queues a partition reset empties: MODE 1 or 2 with a CONSUMER in the partition (R252). -/
def partQueues (s : State) (p : Nat) : List Nat :=
  ((s.regs.filter (fun x => 0x200000 ≤ x.1 && x.1 < 0x208000 && x.1 % 32 = 0)).map (fun x => (x.1 - 0x200000) / 32)).filter (fun q =>
    (fld s (R.QCFG.MODE q) = 1 || fld s (R.QCFG.MODE q) = 2) && quarterHome s (fld s (R.QCFG.CONSUMER q) / 8) = some p)

/-- Empty a queue (R252). -/
def emptyQueue (s : State) (q : Nat) : State :=
  let s := setFlag (setFld (setFld (setFld (setFld s (R.QSTAT.COUNT q) 0) (R.QPTR.HEAD q) 0) (R.QPTR.TAIL q) 0) (R.QOVF_COUNT.val q) 0)
    (R.QSTAT.OVF q) false
  onQueues s (fun u => { u with slotOvf := tabErase u.slotOvf q })

/-- The objects of a partition return to VALUE 0 and their waiters end with LOST (R251). -/
def resetObjects (s : State) (p : Nat) : State :=
  (s.syncs.map Prod.fst).foldl (fun s n =>
    if (syncObj s n).owner = p then loseWaiters (setSync s n { syncObj s n with value := 0, ovf := false }) n else s) s

/-- A partition reset (R532). The checkpoint of the partition is dropped (R545). -/
def partReset (s : State) (p : Nat) : State :=
  let s := returnBorrowed s p
  let cores := homeCores s p
  -- lent cores that belong to this partition are taken back: the claim and its radio task end
  let s := cores.foldl (fun s c =>
    match (core s c).claim with
    | some cl =>
      let s := if (core s c).held.isSome then setFld s (R.PART_STAT.BORROWED cl.part) (fld s (R.PART_STAT.BORROWED cl.part) - 1) else s
      match (core s c).task.bind (taskNum s) with
      | some t => if t.part = cl.part then taskEnd s t 1 0 else s
      | none => s
    | none => s) s
  let s := (s.sched.tasks.filter (fun t => t.part = p)).foldl (fun s t => taskRemove s t 1 0) s
  let s := onSched s (fun d => { d with
    fell := d.fell.filter (fun x => x.1.1 ≠ p), notDone := d.notDone.filter (fun x => x.1 ≠ p) })
  let s : State := { s with syncs := s.syncs.map (fun x => (x.1, { x.2 with waiters := x.2.waiters.filter (fun w => match w with
    | .task q _ _ => q ≠ p
    | _ => true) })) }
  let s := cores.foldl resetCore s
  let s := (partQueues s p).foldl emptyQueue s
  let s := resetObjects s p
  let s := setReg (setReg s (R.PART_STAT.TASKS p).off 0) (R.PART_EVT.FALLBACKS p).off 0
  onWdn (setFlag s ⟨R.CKPT_STAT.VALID.off, p, p⟩ false) (fun w => { w with ckpt := w.ckpt.filter (fun k => k.part ≠ p) })

end Sys2Proof.Machine
end

