-- ==== Sys2Proof/Machine/Power.lean ====
section
/-!
DEFINITION. Power plans, power states, droop detectors and telemetry (R503 to R520, R526, R527).
-/
namespace Sys2Proof.Machine

/-- Change power planning. -/
def onPower (s : State) (f : PowerSt → PowerSt) : State := onWdn s (fun w => { w with power := f w.power })

/-- The state of Table 16-3 the chip is in: 0 FULL, 1 CAPPED, 2 NIGHT, 3 WATCH. -/
def pwrState (s : State) : Nat := fld s R.PWR_STATE.STATE

/-! ### Plans (R503, R504, R515 to R518) -/

/-- PQ(d) in mW (Table 16-2). -/
def pqOf (code : Nat) : Nat := [4000, 2400, 1600, 1000, 750].getD code 750

/-- The VDD_CORE target of a divisor code in mV (Table 16-2). -/
def railOf (code : Nat) : Nat := [800, 750, 700, 660, 650].getD code 650

/-- Quarters of the enabled partitions that satisfy `f`. -/
def quartersOf (s : State) (f : Nat → Bool) : List Nat :=
  (List.range 12).filter (fun q => (quarterHome s q).any f)

/-- The slowest divisor a plan may set: DIV_MAX while a RADIO partition is enabled, and code 2 while one lends (R516, R272). -/
def slowest (s : State) : Nat :=
  let has (f : Nat → Fld) : Bool := (List.range 12).any (fun p => flag s (R.PART_CFG.EN p) && flag s (f p))
  let a := if has R.PART_CFG.RADIO then min 4 (fld s R.PWR_RADIO.DIV_MAX) else 4
  if has R.PART_CFG.LEND then min a 2 else a

/-- Quarters of tile-task partitions without RADIO. -/
def serving (s : State) : List Nat := quartersOf s (fun p => flag s (R.PART_CFG.MODE p) && !flag s (R.PART_CFG.RADIO p))

/-- The planning power of a pair of n and d with `k` Quarters that no plan removes (R516). -/
def planPower (k n code : Nat) : Nat := 6000 + (k + n) * pqOf code + (12 - k - n) * 50

/-- The best pair (divisor code, n) within the cap: the largest n/d, ties to the slower d; none when no pair fits. -/
def bestPlan (s : State) (cap : Nat) : Option (Nat × Nat) :=
  let nMax := (serving s).length
  let k := (quartersOf s (fun _ => true)).length - nMax
  (List.range (slowest s + 1)).foldl (fun best d =>
    match ((List.range (nMax + 1)).filter (fun n => planPower k n d ≤ cap)).getLast? with
    | none => best
    | some n =>
      match best with
      | some (d', n') => if n' * divShare d' ≤ n * divShare d then some (d, n) else best
      | none => some (d, n)) none

/-- Power a Quarter for its partition: its cores are free. -/
def powerQuarter (s : State) (q : Nat) : State :=
  let s := setFlag (setFlag s (R.QCLK.DRAINING q) false) (R.QCLK.GATED q) false
  (List.range 8).foldl (fun s i => onCore s (8 * q + i) (fun k => if k.run = .inReset then { k with run := .idle } else k)) s

/-- Gate a Quarter: its memories lose their content. -/
def gateQuarter (s : State) (q : Nat) : State :=
  let s := setFlag (setFlag (setFlag s (R.QCLK.DRAINING q) false) (R.QCLK.GATED q) true) (R.QCLK.STRETCH q) false
  (List.range 8).foldl (fun s i =>
    loseTile { s with cores := tabErase s.cores (8 * q + i) } (8 * q + i)) s

/-- Is a draining Quarter idle and unclaimed (R518)? -/
def quarterIdle (s : State) (q : Nat) : Bool :=
  (List.range 8).all (fun i => (core s (8 * q + i)).task.isNone && (core s (8 * q + i)).claim.isNone)

/-- Every draining Quarter that is idle and unclaimed at a boundary is gated. -/
def gateDue (s : State) : State :=
  (List.range 12).foldl (fun s q => if flag s (R.QCLK.DRAINING q) && quarterIdle s q then gateQuarter s q else s) s

/-- The divisor of every powered Quarter, the shares and the rail target that follow from it. -/
def applyDivisor (s : State) (code : Nat) : State :=
  let s := (quartersOf s (fun _ => true)).foldl (fun s q =>
    if flag s (R.QCLK.GATED q) then s else setFld s (R.QCLK.DIV q) code) s
  let s := (List.range 12).foldl (fun s p =>
    let n := ((quartersOf s (fun x => x = p)).filter (fun q => !flag s (R.QCLK.GATED q) && !flag s (R.QCLK.DRAINING q))).length
    setFld s (R.PWR_PCAP.val p) (n * pqOf code)) s
  let used := ((List.range 12).filter (fun q => !flag s (R.QCLK.GATED q))).map (fun q => fld s (R.QCLK.DIV q))
  setFld s R.VCORE.TARGET (railOf (used.foldl min code) + fld s R.VCORE.MARGIN)

/-- Keep n serving Quarters: the highest drain, the lowest return (R518). -/
def keepServing (s : State) (n : Nat) : State :=
  let on (q : Nat) : Bool := !flag s (R.QCLK.GATED q) && !flag s (R.QCLK.DRAINING q)
  let now := (serving s).filter on
  let off := (serving s).filter (fun q => !on q)
  if n < now.length then (now.drop n).foldl (fun s q => setFlag s (R.QCLK.DRAINING q) true) s
  else (off.take (n - now.length)).foldl powerQuarter s

/-- The hottest Quarter of the last sample: its temperature and number. -/
def hottest (s : State) : Int × Nat :=
  match s.wdn.power.samples.head? with
  | some x => (List.zip x.temps (List.range 12)).foldl (fun b t => if b.1 < t.1 then t else b) (x.temps.headD 0, 0)
  | none => (0, 0)

/-- The cap a plan uses under the heat rule (R519): lowered from the plan before while hot, kept while it cools if it was lowered. -/
def heatCap (s : State) : Nat :=
  let full := fld s R.PWR_CAP.val
  let t := (hottest s).1
  let w := s.wdn.power
  if 1000 ≤ t then max 12000 (min full (w.planCap * 9 / 10))
  else if 950 ≤ t ∧ w.planCap < w.cap then min full w.planCap
  else full

/-- The ageing margin of indicator 1, in mV (R571): 5 mV for each whole or partial percent, up to 30 mV. -/
def ageingMargin (s : State) : Nat := min 30 (5 * ceilDiv (s.wdn.health.now_.getD 0 0) 100)

/-- A power plan within `cap` (R516): where nothing fits, the slowest divisor with no serving Quarter, and a POWER notice. In
NIGHT the radio Quarter runs at DIV_MAX. -/
def planWith (s : State) (cap : Nat) : State :=
  let s := setFld s R.VCORE.MARGIN (ageingMargin s)
  if pwrState s = 2 then applyDivisor s (min 4 (fld s R.PWR_RADIO.DIV_MAX))
  else if pwrState s = 3 then s
  else
    let s := onPower s (fun w => { w with planCap := cap, cap := fld s R.PWR_CAP.val })
    match bestPlan s cap with
    | some (d, n) => applyDivisor (keepServing s n) d
    | none => powerNotice (applyDivisor (keepServing s 0) (slowest s)) cap

/-- A plan at its own boundary: every 10 s, or with a budget or a state (R516, R519). -/
def makePlan (s : State) : State := planWith s (heatCap s)

/-- The plan that a change of partitions needs, within the cap of the last plan (log entry 33). -/
def replan (s : State) : State := planWith s (min (fld s R.PWR_CAP.val) s.wdn.power.planCap)

/-- OVH: the mean of module less chip power over the last 10 s, and at least 4000 mW (R515). -/
def overhead (s : State) : Nat :=
  let l := s.wdn.power.samples
  if l = [] then 4000 else max 4000 ((l.map (fun x => x.mod - x.chip)).sum / l.length)

/-- The chip cap of a budget (R515). -/
def capOf (s : State) (mw : Nat) : Nat := max 12000 (min 55000 (mw - overhead s))

/-- Set the cap; in FULL and CAPPED it decides the state. -/
def setCap (s : State) (cap : Nat) : State :=
  let s := setFld s R.PWR_CAP.val cap
  if pwrState s ≤ 1 then setFld s R.PWR_STATE.STATE (if cap = 55000 then 0 else 1) else s

/-- POWER_BUDGET at its boundary (R515); the granted cap. -/
def budgetApply (s : State) (b : Budget) : Nat × State :=
  let cap := capOf s b.mw
  let s := onPower (setFlag s R.PWR_STATE.LEASE_EXPIRED false) (fun w => { w with budget := some { b with at_ := extTime s } })
  let s := setCap s cap
  (cap, makePlan s)

/-- The lease lapses (R517): the budget is FLOOR_MW from here on, and a POWER notice says so. -/
def leaseExpire (s : State) : State :=
  match s.wdn.power.budget with
  | none => s
  | some b =>
    if b.horizon = 0 ∨ flag s R.PWR_STATE.LEASE_EXPIRED ∨ extTime s < b.at_ + b.horizon * 1000000000 then s
    else
      let s := onPower (setFlag s R.PWR_STATE.LEASE_EXPIRED true) (fun w => { w with budget := some { b with mw := b.floor } })
      powerNotice s (capOf s b.floor)

/-- The plan of every 10 s: once the lease has expired it plans with the floor. -/
def periodicPlan (s : State) : State :=
  match s.wdn.power.budget with
  | some b => makePlan (if flag s R.PWR_STATE.LEASE_EXPIRED ∧ pwrState s ≤ 1 then setCap s (capOf s b.mw) else s)
  | none => makePlan s

/-- An overrun noted since the last boundary takes the divisor one code slower, within the limits of R516 (R519). -/
def overrunBoundary (s : State) : State :=
  if !s.wdn.power.overrun then s
  else
    let s := onPower s (fun w => { w with overrun := false })
    let now := ((quartersOf s (fun _ => true)).filter (fun q => !flag s (R.QCLK.GATED q))).map (fun q => fld s (R.QCLK.DIV q))
    applyDivisor s (max (now.foldl max 0) (min (slowest s) (now.foldl max 0 + 1)))

/-! ### Power states (R509 to R514) -/

/-- Instance `w` of the Weave loses its planes and what it holds. -/
def weaveLost (s : State) (w : Nat) : State :=
  let s : State := { s with weave := tabErase s.weave w }
  let s := setFld (setFld s (R.WV_FIFO.val w) 0) (R.WV_CTL.EN w) 0
  setReg (setReg (setReg s (R.WV_PLANE.val w).off 0) (R.WV_PLANE.val_HI w).off 0) (R.WV_PSTAT.VALID w).off 0

/-- Every enabled partition has RADIO set, and together they hold exactly one Quarter (R509). -/
def nightOk (s : State) : Bool :=
  (List.range 12).all (fun p => !flag s (R.PART_CFG.EN p) || flag s (R.PART_CFG.RADIO p)) &&
    (quartersOf s (fun _ => true)).length = 1

/-- The ports in UP retrain at another width. -/
def retrainPorts (s : State) (width : Nat → Nat) : State :=
  (List.range 8).foldl (fun s p =>
    if portState s p = 2 ∨ portState s p = 4 then portRetrain (setFld s (R.ADR_PCTL.WIDTH_MAX p) (width p)) p else s) s

/-- Cores 4 to 7 of a Quarter lose power; a task on one ends ABORTED (R510). -/
def gateUpper (s : State) (q : Nat) : State :=
  [4, 5, 6, 7].foldl (fun s i =>
    let c := 8 * q + i
    let s := coreTaskEnd s c 1 0
    loseTile (onCore (withdrawCore s c true) c (fun _ => { Core.reset with run := .idle })) c) s

/-- Entry to NIGHT (R509, R510). -/
def nightEnter (s : State) : State :=
  let s := (quartersOf s (fun _ => true)).foldl gateUpper s
  let s := weaveLost (setFld s R.PWR_STATE.STATE 2) 1
  let s := onPower s (fun w => { w with widths := (List.range 8).map (fun p => (p, fld s (R.ADR_PCTL.WIDTH_MAX p))) })
  planWith (retrainPorts s (fun _ => 2)) (fld s R.PWR_CAP.val)

/-- NIGHT ends: every port goes back to its own width. -/
def nightLeave (s : State) : State :=
  let l := s.wdn.power.widths
  let s := retrainPorts s (fun p => tabGet l p 0)
  let s := l.foldl (fun s x => setFld s (R.ADR_PCTL.WIDTH_MAX x.1) x.2) s
  onPower s (fun w => { w with widths := [] })

/-- The registers that a return from WATCH restores: the radio partition and the radio's configuration (R513). -/
def radioHeld (s : State) : List (Nat × Nat) :=
  match (List.range 12).find? (fun p => flag s (R.PART_CFG.EN p) && flag s (R.PART_CFG.RADIO p)) with
  | none => []
  | some p =>
    [(R.PART_CFG.QMASK p).off, (R.PART_LEND.val p).off, (R.PART_LEDGER.LEAD p).off, R.KCTL.RX_EN.off, R.JRX_CTL.EN.off,
      R.JTX_CTL.EN.off, (R.WV_CTL.EN 0).off].map (fun o => (o, reg s o))

/-- The pairs that READY holds for (R475, R500): every pair, 0 to 3 in the endpoint role, 12 and 13 once a key is installed; in
WATCH only 12 to 15. -/
def readyMask (s : State) : Nat :=
  let mgmt := if s.wdn.mgmt.isSome then 0x3000 else 0
  if pwrState s = 3 then 0xC000 + mgmt
  else 0xC000 + mgmt + 0xFF0 + (if rootRole s then 0 else 0xF)

/-- READY follows what allows it. -/
def setReady (s : State) : State := onWdn s (fun w => { w with ready := if flag s R.WDN_STAT.RUNNING then readyMask s else 0 })

/-- The sync objects of the radio's buffers as configured, with VALUE 0. -/
def radioObjs (s : State) : List (Nat × SyncObj) :=
  [R.RXB_SYNC.SYM_SYNC, R.RXB_SYNC.FREE_SYNC, R.TXB_SYNC.READY_SYNC, R.TXB_SYNC.FREE_SYNC].map (fun f =>
    (fld s f, { syncObj s (fld s f) with value := 0, ovf := false, waiters := [] }))

/-- The registers that entry to WATCH returns to their default (Table 17-5): partitions, queues, pool tables, the domain with its
ports, and Ethernet but for port 2. Counters of these units are not named there, and stay. -/
def watchLoses (off : Nat) : Bool :=
  (0x200000 ≤ off && off < 0x208000) || (0x300000 ≤ off && off < 0x300300 && off % 64 < 0x10) ||
    (0x400000 ≤ off && off < 0x440000 && !(0x401008 ≤ off && off < 0x401014)) || (0x580000 ≤ off && off < 0x590000) ||
    (0x5B0000 ≤ off && off < 0x5B2000)

/-- The rings of the pairs that WATCH does not serve return to their Reset values (R498, Table 17-5). -/
def watchMail (s : State) : State :=
  onWdn s (fun w => { w with
    mails := w.mails.map (fun x => if pairOf x.1 < 12 then (x.1, { Mail.reset x.1 with ticket := x.2.ticket }) else x)
    jobs := w.jobs.map (fun j => if pairOf j.key < 12 then { j with key := noKey } else j) })

/-- Entry to WATCH (R511), once the leave has run. -/
def watchAsleep (s : State) : State :=
  let held := radioHeld s
  let objs := if held = [] then [] else radioObjs s
  let plane := tabFind (weave s 0).planes (fld s (R.WV_CTL.SEL 0))
  let s := setFlag (setFlag s R.KCTL.RX_EN false) R.KCTL.TX_EN false
  let s := leaveFinish s
  let block := s.domain.die
  let s : State := { s with
    cores := [], sched := Sched.reset, syncs := [], queues := Queues.reset, coh := Coh.reset, posted := [], ports := [], fabric := Fabric.reset
    pool := { PoolSt.reset with used := s.pool.used, crcs := s.pool.crcs, genFlash := s.pool.genFlash }
    domain := { Domain.reset with die := block }
    regs := s.regs.map (fun x => if watchLoses x.1 then (x.1, BitVec.ofNat 32 (resetWord .core x.1 x.2.toNat)) else x) }
  let s := (List.range 12).foldl gateQuarter s
  let s := weaveLost (weaveLost s 0) 1
  let mode := fld s R.JRX_CTL.MODE
  let en := flag s R.JRX_CTL.EN
  let s := jrxChanged (setFld s R.JRX_CTL.MODE (min 2 (fld s R.KCTL.BW))) en mode
  let s := watchMail (setFld s R.PWR_STATE.STATE 3)
  setReady (onPower s (fun w => { w with saved := held, plane := plane, objs := objs, wakeDue := false, entering := none }))

/-- Leaving WATCH for NIGHT (R513): the radio partition is restored, Weave 0 reloaded from its golden copy, and the radio
brought up with the configuration held before WATCH; its enables wait for the link. -/
def watchToNight (s : State) : State :=
  let w := s.wdn.power
  let mode := fld s R.JRX_CTL.MODE
  let en := flag s R.JRX_CTL.EN
  let s := setFld s R.PWR_STATE.STATE 2
  let s := w.saved.foldl (fun s x => if x.1 = R.KCTL.RX_EN.off then s else setReg s x.1 x.2) s
  let s := jrxChanged s en mode
  let s := sysrefArm (w.objs.foldl (fun s x => setSync s x.1 x.2) s)
  let s := (quartersOf s (fun _ => true)).foldl powerQuarter s
  let s := match w.plane with
    | some pl => planeLoad s 0 (fld s (R.WV_CTL.SEL 0)) pl
    | none => s
  setReady (planWith (onPower s (fun w => { w with wakeUp := true, plane := none, objs := [] })) (fld s R.PWR_CAP.val))

/-- Entry to WATCH, where a wake event that came during it follows at once (R527). -/
def watchEnter (s : State) : State :=
  let t := watchAsleep s
  if s.wdn.power.wakeDue then watchToNight t else t

/-- Step 4 of R347: the sync objects of the buffers, with FREE_SYNC at NBUF. -/
def radioBuffers (s : State) : State :=
  let s := syncReset s (fld s R.RXB_SYNC.FREE_SYNC) (fld s R.RXB_CFG.NBUF + 1)
  syncReset s (fld s R.TXB_SYNC.FREE_SYNC) (fld s R.TXB_CFG.NBUF + 1)

/-- The receive link of a woken radio is up: RX_EN and TX_EN are set at a boundary, and a POWER notice says that the radio is up
(R347, R513). -/
def wakeBoundary (s : State) : State :=
  if s.wdn.power.wakeUp ∧ flag s R.JRX_STAT.LINK_UP then
    let k := (s.wdn.power.saved.find? (fun x => x.1 = R.KCTL.RX_EN.off)).map (fun x => x.2) |>.getD 0
    let s := setFlag (setFlag (radioBuffers s) R.KCTL.RX_EN (bitOf k 0)) R.KCTL.TX_EN (bitOf k 1)
    powerNotice (onPower s (fun w => { w with wakeUp := false, saved := [] })) (fld s R.PWR_CAP.val)
  else s

/-- Leaving WATCH for FULL or CAPPED (log entry 34). -/
def watchLeave (s : State) : State := onPower s (fun w => { w with saved := [], plane := none, objs := [] })

/-- Has the leave of an entry or a reset run to its end? -/
def leaveDone (s : State) : Bool := selfState s ≠ 4 || (s.coh.serving = [] && s.coh.wbOut = [])

/-- May the chip go to NIGHT (R509)? In WATCH the configuration that comes back with it is judged. -/
def nightMay (s : State) : Bool :=
  nightOk (if pwrState s = 3 then s.wdn.power.saved.foldl (fun s x => setReg s x.1 x.2) s else s)

/-- POWER_STATE at its boundary (R509): 0 FULL, 1 CAPPED with a cap, 2 NIGHT; WATCH and DORMANT begin with the leave. -/
def stateApply (s : State) (st cap : Nat) : State :=
  let from_ := pwrState s
  if st ≤ 1 then
    let s := setFld s R.PWR_STATE.STATE st
    let s := setFld s R.PWR_CAP.val (if st = 0 then 55000 else cap)
    let s := if from_ = 2 then nightLeave s else if from_ = 3 then watchLeave s else s
    let s := if from_ = 2 ∨ from_ = 3 then setReady s else s
    makePlan s
  else if st = 2 then (if from_ = 3 then watchToNight s else if from_ = 2 then s else nightEnter s)
  else if st = 3 ∧ from_ = 3 then s
  else
    let t := extTime s
    leaveStart (onPower (setFlag (setFlag s R.KCTL.RX_EN false) R.KCTL.TX_EN false) (fun w => { w with entering := some (st, t), wakeDue := false }))

/-- Warden acts on a detection in WATCH (R513); on one during entry to it, once entry is complete (R527). -/
def whisperWake (s : State) : State :=
  if !flag s R.PWR_WAKE.WAKE_ON_WHISPER then s
  else if pwrState s = 3 then watchToNight s
  else if s.wdn.power.entering.any (fun e => e.1 = 3) then onPower s (fun w => { w with wakeDue := true }) else s

/-! ### Droop detectors and telemetry (R505, R506, R35) -/

/-- The rail falls below a Quarter's threshold: its clock is stretched. A gated Quarter has no clock. -/
def droopStretch (s : State) (q : Nat) : State :=
  if flag s (R.QCLK.GATED q) ∨ flag s (R.QCLK.STRETCH q) then s
  else
    let s := bump (setFlag s (R.QCLK.STRETCH q) true) (R.DROOP_CNT.val q)
    onPower s (fun w => { w with stretches := tabSet w.stretches q (tabGet w.stretches q 0 + 1) })

/-- The stretch ends after 64 good stretched cycles. -/
def droopRecover (s : State) (q good : Nat) : State :=
  if 64 ≤ good then setFlag s (R.QCLK.STRETCH q) false else s

/-- The DROOP events of the last second: one for each Quarter that stretched (R556). -/
def droopReports (s : State) : State :=
  let l := s.wdn.power.stretches
  l.foldl (fun s x => report s 0x0703 0x7F [x.1, x.2]) (onPower s (fun w => { w with stretches := [] }))

/-- Warden samples telemetry once a second; it collects hot rows, and the events that are given once a second go out (R35,
R306, R556). -/
def telemetry (s : State) (x : TelemIn) : State :=
  let t := extTime s
  let s := onPower s (fun w => { w with
    samples := (⟨x.vin, x.iin, x.chip, x.mod, x.temps, x.parts, t⟩ :: w.samples).take 10 })
  droopReports (crcReports (hotCollect s))

/-! ### Meanings -/

/-- TELEMETRY_SAMPLE (R35, R515): the sample of this second. -/
def execTelemetrySample (x : TelemIn) (s : State) : Host.Outcome State Fault Refusal := finish (telemetry s x)

/-- POWER_PLAN (R516): the plan of every 10 s, at its boundary. -/
def execPowerPlan (s : State) : Host.Outcome State Fault Refusal := finish (periodicPlan s)

/-- QUARTER_GATE (R518): at a boundary, a draining Quarter that is idle and unclaimed is gated. -/
def execQuarterGate (q : Nat) (s : State) : Host.Outcome State Fault Refusal :=
  if 12 ≤ q then .fault .absentUnit
  else if flag s (R.QCLK.DRAINING q) && quarterIdle s q then finish (gateQuarter s q) else finish s

/-- LEASE_EXPIRY (R517): `after` ticks later the budget's lease lapses. -/
def execLeaseExpiry (after : Nat) (s : State) : Host.Outcome State Fault Refusal := finish (leaseExpire (advance s after))

/-- POWER_OVERRUN (R519): chip power averaged over 1 ms and module input, in mW; an overrun slows the divisor at the next
boundary. -/
def execPowerOverrun (chip mod : Nat) (s : State) : Host.Outcome State Fault Refusal :=
  if 11 * fld s R.PWR_CAP.val < 10 * chip ∨ 72000 < mod then finish (onPower s (fun w => { w with overrun := true })) else finish s

/-- DROOP_STRETCH (R505). -/
def execDroopStretch (q : Nat) (s : State) : Host.Outcome State Fault Refusal :=
  if q < 12 then finish (droopStretch s q) else .fault .absentUnit

/-- DROOP_RECOVER (R505): the rail has stayed good for `good` stretched cycles in a row. -/
def execDroopRecover (q good : Nat) (s : State) : Host.Outcome State Fault Refusal :=
  if q < 12 then finish (droopRecover s q good) else .fault .absentUnit

/-- WHISPER_WAKE (R513): Warden acts on a detection in WATCH. -/
def execWhisperWake (s : State) : Host.Outcome State Fault Refusal := finish (whisperWake s)

end Sys2Proof.Machine
end

