-- ==== Sys2Proof/Machine/Part.lean ====
section
/-!
DEFINITION. Changes of partitions at a slot boundary (R32 to R34, R45, R253, R254), and the resume of a checkpointed partition
(R545).
-/
namespace Sys2Proof.Machine

/-- A Quarter leaves its partition: what runs on it ends ABORTED, its cores are held in reset, and its memory keeps its content
(R34, log entry 35). -/
def quarterLeaves (s : State) (q : Nat) : State :=
  (List.range 8).foldl (fun s i =>
    let c := 8 * q + i
    let s := coreTaskEnd s c 1 0
    let s := clearStaged (clearStaged (withdrawCore s c true) c) (128 + c)
    { s with cores := tabErase s.cores c }) s

/-- Does a claim hold any core of the Quarter (R45)? -/
def quarterClaimed (s : State) (q : Nat) : Bool := (List.range 8).any (fun i => (core s (8 * q + i)).claim.isSome)

/-- Is the Quarter's removal from a partition waiting? -/
def removalOf (s : State) (q : Nat) : Bool := s.wdn.removals.any (fun r => r.2.1 = q)

/-- Give a Quarter to a partition, or let it wait for the removal that comes first. -/
def quarterTo (s : State) (p q : Nat) : State :=
  if removalOf s q then
    onWdn s (fun w => { w with removals := w.removals.map (fun r => if r.2.1 = q then (r.1, q, some p) else r) })
  else powerQuarter (setFlag s ⟨(R.PART_CFG.QMASK p).off, q, q⟩ true) q

/-- Take a Quarter from a partition, or at the next boundary at which no claim holds one of its cores (R45). -/
def quarterFrom (s : State) (p q : Nat) : State :=
  if quarterClaimed s q then onWdn s (fun w => { w with removals := w.removals ++ [(p, q, none)] })
  else quarterLeaves (setFlag s ⟨(R.PART_CFG.QMASK p).off, q, q⟩ false) q

/-- The removals that wait, at a boundary. -/
def removalBoundary (s : State) : State :=
  s.wdn.removals.foldl (fun s r =>
    if quarterClaimed s r.2.1 then s
    else
      let s := onWdn s (fun w => { w with removals := w.removals.filter (fun x => x.2.1 ≠ r.2.1) })
      let s := quarterFrom s r.1 r.2.1
      match r.2.2 with
      | some p => replan (quarterTo s p r.2.1)
      | none => s) s

/-- A partition resumes from its checkpoint (R545): its queues, objects, binding slots and tasks come back, and every core
restarts at CLAIM_RPC as at the return from a claim (R274). -/
def resumePart (s : State) (k : Ckpt) : State :=
  let base := s.sched.nextNum
  let s := k.queues.foldl (fun s x => setReg s x.1 x.2) s
  let s := k.objs.foldl (fun s x => setSync s x.1 { x.2 with waiters := [] }) s
  let s := k.binds.foldl (fun s x => setReg s x.1 x.2) s
  let tasks := k.tasks.map (fun t => { t with num := t.num + base })
  let s := onSched s (fun d => { d with
    tasks := d.tasks ++ tasks, nextNum := base + 1 + (k.tasks.map (fun t => t.num)).foldl max 0 })
  let s := setFld s (R.PART_STAT.TASKS k.part) (fld s (R.PART_STAT.TASKS k.part) + tasks.length)
  let s := tasks.foldl (fun s t => if t.st = .waiting then makeReady s t else s) s
  let s := k.cores.foldl (fun s x =>
    let h := x.held
    let sys := h.sys.foldl (fun t p => tabSet t p.1 p.2) []
    let sys := tabSet (tabSet sys R.QDISP.val.off h.qdisp) R.SASTAT.DONE.off h.sastat
    let s := setCore s x.core { Core.reset with
      sys := sys, pc := x.rpc, task := h.task.map (· + base), abortCause := h.abortCause, asyncs := h.asyncs
      run := if h.task.isSome then .running else .idle }
    let s := h.asyncs.foldl (fun s a => armAsync s x.core a) s
    if h.task.isSome then rowResume s x.core else s) s
  onWdn (setFlag s ⟨R.CKPT_STAT.VALID.off, k.part, k.part⟩ false) (fun w => { w with ckpt := w.ckpt.filter (fun y => y.part ≠ k.part) })

/-- Drop the checkpoint of a partition. -/
def dropCkpt (s : State) (p : Nat) : State :=
  onWdn (setFlag s ⟨R.CKPT_STAT.VALID.off, p, p⟩ false) (fun w => { w with ckpt := w.ckpt.filter (fun y => y.part ≠ p) })

/-- The canonical forms of PART_CFG, PART_LEND and PART_LEDGER. -/
def partCanon (cfg lend ledger : Nat) : List Nat := [cfg % 2 ^ 17, lend % 2 ^ 12, putBits ledger 7 6 0 % 2 ^ 24]

/-- PART_SET at its boundary (R253, R545). -/
def partSet (s : State) (p cfg lend ledger : Nat) : State :=
  let canon := partCanon cfg lend ledger
  let saved := s.wdn.ckpt.find? (fun k => k.part = p && k.cfg = canon && bitOf (fld s R.CKPT_STAT.VALID) p)
  let old := if flag s (R.PART_CFG.EN p) then fld s (R.PART_CFG.QMASK p) else 0
  let new := if bitOf cfg 13 then bitsOf cfg 11 0 else 0
  let s := (List.range 12).foldl (fun s q => if bitOf old q && !bitOf new q then quarterFrom s p q else s) s
  -- Quarters that stay or still wait to leave keep their bits; the others are written with the rest of PART_CFG
  let kept := (List.range 12).foldl (fun m q => if s.wdn.removals.any (fun r => r.1 = p && r.2.1 = q) then putBits m q q 1 else m) 0
  let mask := if bitOf cfg 13 then Nat.land old new else bitsOf cfg 11 0
  let s := setReg s (R.PART_CFG.QMASK p).off (putBits (putBits (canon.getD 0 0) 11 0 (Nat.lor mask kept)) 13 13 (num (bitOf cfg 13 || kept ≠ 0)))
  let s := setReg (setReg s (R.PART_LEND.val p).off (canon.getD 1 0)) (R.PART_LEDGER.LEAD p).off (canon.getD 2 0)
  let s := (List.range 12).foldl (fun s q => if bitOf new q && !bitOf old q then quarterTo s p q else s) s
  let s := replan s
  match saved with
  | some k => resumePart s k
  | none => dropCkpt s p

end Sys2Proof.Machine
end

