-- ==== Sys2Proof/Machine/Boot.lean ====
section
/-!
DEFINITION. Start-up, the boot configuration block, firmware images, warm resets, DORMANT, the brown-out checkpoint and the Energy
Guard (R512, R519 to R524, R528 to R545, R588, R591).
-/
namespace Sys2Proof.Machine

/-- Change the boot state. -/
def onBoot (s : State) (f : BootSt → BootSt) : State := onWdn s (fun w => { w with boot := f w.boot })

/-- Does Warden run firmware? -/
def wardenUp (s : State) : Bool := flag s R.WDN_STAT.RUNNING

/-! ### Signatures and images (R358, R539) -/

/-- The keys that count as revoked: those OTP revokes, and those whose shadow word has an uncorrectable error (R552). -/
def deadKeys (o : Otp) : Nat := o.revoked ||| o.badKeys

/-- Is a version below the rollback floor? Every version is where the floor's shadow word has an uncorrectable error (R552). -/
def belowFloor (o : Otp) (v : Nat) : Bool := o.badFloor || decide (v < o.floor)

/-- Does the signature block at `at_` of an image verify: KEY_INDEX names an unrevoked OTP key, and r, s verify over the bytes
before the block? -/
def signed104 (s : State) (img : List Byte) (at_ : Nat) : Bool :=
  let k := fieldLE img at_ 1
  k < 4 && !bitOf (deadKeys s.wdn.otp) k && Config.verify (s.wdn.otp.keys.getD k 0) (img.take at_) (sliceBytes img (at_ + 8) 96)

/-- The check of a firmware image (R539): 0 accepted, 1 format, 2 length, 3 signature, 4 rollback. The header's fields are 4
bytes each, and FORMAT is 1 (log entry 36). -/
def imageCheck (s : State) (img : List Byte) : Nat :=
  let len := fieldLE img 0x10 4
  if fieldLE img 0 4 ≠ 0x31574657 ∨ fieldLE img 4 4 ≠ 1 then 1
  else if len < 24 + 104 ∨ 448 * 1024 < len then 2
  else if !signed104 s (img.take len) (len - 104) then 3
  else if belowFloor s.wdn.otp (fieldLE img 8 4) then 4
  else 0

/-- VERSION and ROLLBACK of an image. -/
def imageVersion (img : List Byte) : Nat := fieldLE img 8 4
def imageRollback (img : List Byte) : Nat := fieldLE img 0xC 4

/-- The image in a flash device (Table 17-2). -/
def flashImage (s : State) (dev : Nat) : List Byte := bytesAt s (flashAddr dev 0x100000) (448 * 1024)

/-! ### The boot configuration block (R536, R537) -/

/-- The canonical form of a copy: reserved bytes zero; the CRC is kept. -/
def bcbCanon (b : List Byte) : List Byte :=
  sliceBytes b 0 6 ++ List.replicate 2 0 ++ sliceBytes b 8 5 ++ List.replicate 3 0 ++ sliceBytes b 0x10 8 ++
    List.replicate (0xFFC - 0x18) 0 ++ sliceBytes b 0xFFC 4

/-- The copy of a device. -/
def bcbOf (s : State) (dev : Nat) : List Byte := bytesAt s (flashAddr dev 0) 4096

/-- Is a copy valid? -/
def bcbValid (b : List Byte) : Bool :=
  fieldLE b 0 4 = 0x31424342 && fieldLE b 4 2 = 1 && crc32c ((bcbCanon b).take 0xFFC) = fieldLE b 0xFFC 4

/-- The decision between the copies: BOOT_STAT.BCB, PREFER, the governing UPDATE_SEQ, and whether they differ in reserved bytes
only. -/
def bcbDecide (a b : List Byte) : Nat × Nat × Nat × Bool :=
  let seq (x : List Byte) : Nat := fieldLE x 8 4
  let pref (x : List Byte) : Nat := fieldLE x 0xC 1 % 2
  if bcbValid a ∧ bcbValid b then
    let d := (seq a + 2 ^ 32 - seq b) % 2 ^ 32
    if d = 0 then
      if bcbCanon a = bcbCanon b then (0, pref a, seq a, a ≠ b) else (2, 0, seq a, false)
    else if d = 2 ^ 31 then (2, 0, max (seq a) (seq b), false)
    else if d < 2 ^ 31 then (1, pref a, seq a, false) else (1, pref b, seq b, false)
  else if bcbValid a then (1, pref a, seq a, false)
  else if bcbValid b then (1, pref b, seq b, false)
  else (3, 0, 0, false)

/-- A new copy: the governing UPDATE_SEQ + 1, in canonical form. -/
def bcbMake (seq prefer va vb : Nat) : List Byte :=
  let b := bytesLE 4 0x31424342 ++ bytesLE 2 1 ++ bytesLE 2 0 ++ bytesLE 4 seq ++ bytesLE 1 prefer ++ bytesLE 3 0 ++ bytesLE 4 va ++
    bytesLE 4 vb ++ List.replicate (0xFFC - 0x18) 0
  b ++ bytesLE 4 (crc32c b)

/-- The device that Warden may write: the one that does not hold the booted image (R463). -/
def spareDev (s : State) : Nat := 1 - fld s R.WDN_STAT.IMAGE

/-- Warden writes the copy on the spare device. -/
def bcbWrite (s : State) (prefer va vb : Nat) : State :=
  let dev := spareDev s
  let seq := (s.wdn.boot.seq + 1) % 2 ^ 32
  let s := storeBytes s (flashAddr dev 0) (bcbMake seq prefer va vb)
  onFlash (onBoot s (fun b => { b with seq := seq })) (fun x => { x with buf := tabErase x.buf dev })

/-! ### Kennel journals (R535, R537) -/

/-- The Kennel list of the journals is loaded into the hardware (R216). -/
def kennelLoad (s : State) : State :=
  let l := s.wdn.boot.journals.flatMap (fun x => x.2)
  let pages := (l.filter (fun k => k.page)).foldl (fun t k => setAdd t k.num) []
  let rows := (l.filter (fun k => !k.page)).foldl (fun t k => setAdd t k.num) []
  { s with marks := { s.marks with pages := pages, rows := rows } }

/-! ### The boot sequence (Table 17-4, R538 to R540) -/

/-- Warden runs an image: READY is set on every pair that its state allows. -/
def runImage (s : State) (image : Nat) (recovery : Bool) : State :=
  let s := setFld (setFlag (setFld s R.WDN_STAT.IMAGE image) R.WDN_STAT.RUNNING true) R.BOOT_STAT.IMAGE image
  let s := onWdn (onBoot s (fun b => { b with
    rom := false, recovery := recovery, at_ := extTime s, boots := b.boots + 1, cleanSince := extTime s }))
    (fun w => { w with hbAt := extTime s })
  let s := kennelLoad s
  setReady (setFlag s R.HIF_STAT.POOL_READY true)

/-- The boot code chooses an image (R537, R539, R540): `avoid` is an image that reached three watchdog restarts. `err` names the flash
reads that fail (R550): bits 0 and 1 the copies of the BCB, bits 2 and 3 images A and B. -/
def bootChoose (s : State) (avoid : Option Nat) (err : Nat) : State :=
  let copy (i : Nat) : List Byte := if bitOf err i then [] else bcbOf s i
  let (code, prefer, seq, benign) := bcbDecide (copy 0) (copy 1)
  let s := onBoot (setFld s R.BOOT_STAT.BCB code) (fun b => { b with seq := seq })
  let s := if benign then bump s R.BENIGN_DIVERGENCE.val else s
  let chk (i : Nat) : Nat := if avoid = some i then 6 else if bitOf err (i + 2) then 5 else imageCheck s (flashImage s i)
  let failF (i : Nat) : Fld := if i = 0 then R.BOOT_STAT.FAIL_A else R.BOOT_STAT.FAIL_B
  let first := match avoid with
    | some i => 1 - i
    | none => prefer
  let s := match avoid with
    | some i => setFld s (failF i) 6
    | none => s
  let c1 := chk first
  if c1 = 0 then runImage (setFlag s R.BOOT_STAT.FALLBACK (first ≠ prefer)) first false
  else
    let s := setFld s (failF first) c1
    let other := 1 - first
    let c2 := chk other
    if c2 = 0 then runImage (setFlag s R.BOOT_STAT.FALLBACK true) other false
    else onBoot (setFld s (failF other) c2) (fun b => { b with rom := true })

/-- Hardware steps 2 to 4: OTP, the PLL, the boot ROM, and the flash in 8D-8D-8D at 200 MHz (R538, R468). -/
def bootStart (s : State) : State :=
  let s := setFlag (setFlag s R.CLK_STAT.PLL_LOCK true) R.CLK_STAT.REF_OK true
  let s := onTime s (fun t => { t with running := true })
  let s := setFld (setFlag s R.XSPI_CTL.MODE_8D true) R.XSPI_CTL.CLK 0
  setFlag (setFlag s R.XSPI_STAT.PRESENT_A true) R.XSPI_STAT.PRESENT_B true

/-- RST_CAUSE at a start of Warden. -/
def setCause (s : State) (causes : List Fld) : State :=
  causes.foldl (fun s f => setFlag s f true) (setReg s R.RST_CAUSE.POWER_ON.off 0)

/-- Power-on, once PWRFAIL_N is deasserted: step 2 senses OTP into the shadow anew (R538). -/
def powerOn (s : State) (role : Bool) (err : Nat) : State :=
  if s.wdn.boot.power ∨ !s.guard.closed ∨ !flag s R.EG_STAT.PWRFAIL_N then s
  else
    let s := hardReset s .power
    let s := onBoot s (fun b => { b with power := true, brownout := false })
    let s := onWdn s (fun w => { w with otp := { w.otp with badKeys := 0, badFloor := false } })
    let s := setFlag s R.HIF_STAT.ROLE role
    bootChoose (setCause (bootStart s) [R.RST_CAUSE.POWER_ON]) none err

/-- A warm reset after its leave (R534): the boot sequence runs from step 3. -/
def warmReset (s : State) (cause : Fld) (avoid : Option Nat) (err : Nat) : State :=
  bootChoose (setCause (bootStart (hardReset (leaveFinish s) .warm)) [cause]) avoid err

/-- The cause of a warm reset by its code: 1 a command, 2 REFCLK or the PLL, 3 the fallback. -/
def warmCause (n : Nat) : Fld :=
  if n = 2 then R.RST_CAUSE.WARM_REF else if n = 3 then R.RST_CAUSE.WARM_FALLBACK else R.RST_CAUSE.WARM_CMD

/-- OFF: everything but flash, OTP and the guard is lost (R519, R523, R550). -/
def powerOff (s : State) : State :=
  let s := hardReset s .power
  let s := onBoot s (fun b => { b with power := false, dormant := false, brownout := false })
  setReg s R.CLK_STAT.PLL_LOCK.off 0

/-! ### DORMANT (R507, R512, R534) -/

/-- Entry to DORMANT: what is not retained is lost, and the counter is frozen (R406). -/
def dormantEnter (s : State) (brownout : Bool) : State :=
  let s := hardReset (leaveFinish s) .dormant
  let s := setFlag (setFlag s R.CLK_STAT.PLL_LOCK false) R.PWR_STATE.SHED false
  onBoot s (fun b => { b with dormant := true, brownout := brownout })

/-- The blocks of a checkpoint: (bytes in tile memory or IMEM, offset in the block, length) of core `c` (R541). -/
def ckptParts (c : Nat) : List (Nat × Nat × Nat) :=
  [(tileAddr c 0, 0, 0x140000), (imemAddr c 0, 0x140000, 0x20000), (tileAddr c 0x160000, 0x160000, 0xC000)]

/-- Copy `n` bytes of memory, listed bytes only. -/
def copyRange (s : State) (src dst n : Nat) : State :=
  let s := eraseRange { s with mem := memApply s.stores s.mem, stores := [] } dst n
  let l := s.mem.filter (fun x => src ≤ x.1 && x.1 < src + n)
  { s with mem := l.foldl (fun m x => memWrite m (x.1 - src + dst) x.2) s.mem }

/-- The address of core `c`'s block, and its CRC32C. -/
def blockAddr (s : State) (c : Nat) : Nat := fld s R.CKPT_BASE.val * 2 ^ 20 + 0x100000 + c * 0x16C000
def blockCrc (s : State) (c : Nat) : Nat := crc32c (bytesAt s (blockAddr s c) 0x16C000)

/-- R544: each core block of the checkpoint is copied back and checked; a partition with a mismatch loses its VALID bit, and the
mismatch is reported (log entry 37). -/
def ckptRestore (s : State) : State :=
  if !flag s R.CKPT_STAT.COMPLETE then s
  else s.wdn.ckpt.foldl (fun s k =>
    if !bitOf (fld s R.CKPT_STAT.VALID) k.part then s
    else k.cores.foldl (fun s x =>
      let ok := blockCrc s x.core = x.crc && !poisoned s (blockAddr s x.core) 0x16C000
      let s := (ckptParts x.core).foldl (fun s p => copyRange s (blockAddr s x.core + p.2.1) p.1 p.2.2) s
      if ok then s else report (setFlag s ⟨R.CKPT_STAT.VALID.off, k.part, k.part⟩ false) 0x0305 100 [k.part, x.core]) s) s

/-- Exit from DORMANT (R512, R534, R544). -/
def dormantExit (s : State) (err : Nat) : State :=
  if !s.wdn.boot.dormant ∨ flag s R.PWR_STATE.PWRFAIL then s
  else
    let brown := s.wdn.boot.brownout
    let s := onBoot s (fun b => { b with dormant := false, brownout := false })
    let s := setCause (bootStart s) ([R.RST_CAUSE.DORMANT_EXIT] ++ (if brown then [R.RST_CAUSE.BROWNOUT] else []))
    let s := ckptRestore (bootChoose s none err)
    onBoot s (fun b => { b with exitAt := extTime s })

/-! ### PWRFAIL_N (R523, R543) -/

/-- The agent that claims cores for a checkpoint: no partition has this number. -/
def ckptClaimer : Nat := 12

/-- The time left that Warden gives the ledgers, in microseconds. -/
def timeLeft (s : State) : Nat := min (fld s R.PF_CTL.PF_BUDGET_US) (fld s R.EG_HOLDUP.val - 500)

/-- The cores of a partition's powered Quarters. -/
def partCores (s : State) (p : Nat) : List Nat := (List.range 96).filter (fun c => corePart s c = some p && coreOn s c)

/-- The time a partition's blocks take, in ns: 1 490 944 bytes a core at 39.32 GB/s, and 20 microseconds. -/
def ckptTime (s : State) (p : Nat) : Nat := (partCores s p).length * 1490944 * 100 / 3932 + 20000

/-- The partitions admitted to the checkpoint, in ascending ID. -/
def ckptAdmit (s : State) : List Nat :=
  if fld s R.CKPT_BASE.val = 0 ∨ lp5xEnd < fld s R.CKPT_BASE.val * 2 ^ 20 + 0x8980000 then []
  else
    ((List.range 12).foldl (fun a p =>
      if flag s (R.PART_CFG.EN p) ∧ flag s (R.PART_CFG.CHECKPOINT_ON_PWRFAIL p) ∧
          a.1 + ckptTime s p ≤ (timeLeft s - 1000) * 1000 then (a.1 + ckptTime s p, a.2 ++ [p]) else a) (0, [])).2

/-- A partition that is not admitted: its passes abort with CAUSE 4, and its tasks end ABORTED (R171, R543). -/
def abortPart (s : State) (p : Nat) : State :=
  let s := (partCores s p).foldl (fun s c =>
    let s := match (core s c).lanes.running with
      | some r => passAbort s c r 4
      | none => s
    coreTaskEnd s c 1 0) s
  let mine := s.sched.tasks.filter (fun t => t.part = p)
  mine.foldl (fun s t => taskEnd s t 1 0) (mine.foldl withdrawTask s)

/-- Claim a core for the checkpoint: a radio task that it has borrowed ends ABORTED and the core returns; a claim not yet at its
image is taken over (R283, R543). -/
def ckptClaim (s : State) (c : Nat) : State :=
  let s := match (core s c).claim with
    | some cl =>
      if (core s c).held.isSome then
        let s := match (core s c).task.bind (taskNum s) with
          | some t => taskEnd s t 1 0
          | none => s
        let s := onCore (clearStaged (abandonWait s c) (128 + c)) c (fun k => { k with task := none, lanes := { k.lanes with
          running := none, pending := none, drain := none, stop := false, stopped := false } })
        returnCore s c
      else onCore s c (fun k => { k with claim := some { cl with part := ckptClaimer } })
    | none => s
  if (core s c).claim.isSome then s else claimCore s ckptClaimer 0 c

/-- What the header area keeps of a partition (R541). -/
def ckptOf (s : State) (p : Nat) : Ckpt :=
  let mine (c : Nat) : Bool := corePart s c = some p
  let qs := ((s.regs.filter (fun x => 0x200000 ≤ x.1 && x.1 < 0x208000 && x.1 % 32 = 0)).map (fun x => (x.1 - 0x200000) / 32)).filter (fun q =>
    (fld s (R.QCFG.MODE q) = 1 || fld s (R.QCFG.MODE q) = 2) && mine (fld s (R.QCFG.CONSUMER q)))
  { part := p
    cfg := partCanon (reg s (R.PART_CFG.QMASK p).off) (reg s (R.PART_LEND.val p).off) (reg s (R.PART_LEDGER.LEAD p).off)
    queues := qs.flatMap (fun q => (List.range 7).map (fun i => (0x200000 + 32 * q + 4 * i, reg s (0x200000 + 32 * q + 4 * i))))
    objs := (s.syncs.filter (fun x => x.2.owner = p)).map (fun x => (x.1, { x.2 with waiters := [] }))
    binds := ((List.range 64).filter (fun b => fld s (R.BIND_CFG.PART b) = p && flag s (R.BIND_CFG.EN b))).map (fun b =>
      ((R.BIND_CFG.PART b).off, reg s (R.BIND_CFG.PART b).off))
    tasks := s.sched.tasks.filter (fun t => t.part = p)
    cores := (partCores s p).map (fun c => ⟨c, 0, (core s c).sysWord c R.CLAIM_RPC.val.off, holdAside (core s c) c⟩) }

/-- Has every core of the admitted partitions yielded? -/
def ckptReady (s : State) (l : List Nat) : Bool :=
  l.all (fun p => (partCores s p).all (fun c => (core s c).claim.any (fun cl => cl.yielded)))

/-- The checkpoint (R543 steps 4 to 7) and entry to DORMANT, once every claimed core has yielded; `l` are the admitted
partitions. -/
def ckptWrite (s : State) (l : List Nat) : State :=
  let s := l.foldl (fun s p => (partCores s p).foldl rowStop s) s
  let ks := l.map (ckptOf s)
  let s := ks.foldl (fun s k => k.cores.foldl (fun s x =>
    (ckptParts x.core).foldl (fun s p => copyRange s p.1 (blockAddr s x.core + p.2.1) p.2.2) s) s) s
  let ks := ks.map (fun k => { k with cores := k.cores.map (fun x => { x with crc := blockCrc s x.core }) })
  let s := leaveStart s
  let done := leaveDone s
  let s := setFlag (setFld s R.CKPT_STAT.VALID (l.foldl (fun m p => putBits m p p 1) 0)) R.CKPT_STAT.COMPLETE (l ≠ [])
  let s := setFld (setFlag s R.CKPT_STAT.LEAVE_DONE done) R.CKPT_STAT.TIME_USED
    ((l.map (ckptTime s)).sum / 1000)
  dormantEnter (onWdn s (fun w => { w with ckpt := ks })) true

/-- Under PWRFAIL_N the checkpoint runs as soon as the last claimed core has yielded. -/
def brownoutStep (s : State) : State :=
  if !flag s R.PWR_STATE.SHED ∨ !wardenUp s then s
  else
    let l := (List.range 12).filter (fun p => (partCores s p).any (fun c => (core s c).claim.any (fun cl => cl.part = ckptClaimer)))
    if ckptReady s l then ckptWrite s l else s

/-- Every command accepted but not applied is answered STATUS_POWER_FAIL (R498). -/
def failAccepted (s : State) : State :=
  let l := s.wdn.accepted
  l.foldl (fun s b => answer s b.key b.ticket (mkRsp b.msg 0x10 [] 0)) (onWdn s (fun w => { w with accepted := [] }))

/-- PWRFAIL_N asserts (R523): the shed, the claims for the checkpoint, and DORMANT. In the boot sequence there is no partition, and
nothing is checkpointed (R549). A chip in DORMANT or OFF is not disturbed. -/
def pwrfailAssert (s : State) : State :=
  if flag s R.PWR_STATE.PWRFAIL then s
  else
    let s := setFlag (setFlag s R.PWR_STATE.PWRFAIL true) R.EG_STAT.PWRFAIL_N false
    let s := bump s R.EG_PFCOUNT.val
    if !s.wdn.boot.power ∨ s.wdn.boot.dormant then s
    else
      let s := setFlag s R.PWR_STATE.SHED true
      let s := (List.range 12).foldl (fun s q => if flag s (R.QCLK.GATED q) then s else setFld s (R.QCLK.DIV q) 4) s
      let s := report s 0x0701 0x7F [fld s R.EG_STAT.VIN, fld s R.EG_HOLDUP.val]
      let s := powerNotice (failAccepted s) (fld s R.PWR_CAP.val)
      let s := onPower s (fun w => { w with entering := none })
      let l := ckptAdmit s
      let s := (List.range 12).foldl (fun s p => if flag s (R.PART_CFG.EN p) && !l.contains p then abortPart s p else s) s
      let s := l.foldl (fun s p => (partCores s p).foldl ckptClaim s) s
      if wardenUp s then brownoutStep s else dormantEnter s true

/-! ### Entries that wait for a leave, and resets (R431, R511, R533, R534) -/

/-- At a boundary, an entry to WATCH or DORMANT whose leave is complete, or has had its time (30 ms and 50 ms), takes place. -/
def enterBoundary (s : State) : State :=
  match s.wdn.power.entering with
  | none => s
  | some (st, t) =>
    let limit := if st = 3 then 30000000 else 50000000
    if !leaveDone s ∧ extTime s < t + limit then s
    else if st = 3 then watchEnter s else dormantEnter s false

/-- CHIP_RESET begins: the leave starts (R533, R534). Jobs are lost with no JOB_DONE (R549). -/
def resetBegin (s : State) (kind cause : Nat) : State :=
  let s := onWdn s (fun w => { w with jobs := [] })
  leaveStart (onBoot s (fun b => { b with leaving := some (kind, cause) }))

/-! ### The Energy Guard (R521, R588, R591) -/

/-- Change the guard. -/
def onGuard (s : State) (f : GuardSt → GuardSt) : State := { s with guard := f s.guard }

/-- EG_STAT follows the guard. `vin` is in units of 10 mV. -/
def setVin (s : State) (t vin : Nat) : State :=
  let s := onGuard s (fun g => { g with
    vin := vin, goodSince := if vin < 3500 then none else some (g.goodSince.getD t) })
  setFld s R.EG_STAT.VIN (min 8191 vin)

/-- The input switch opens, which asserts PWRFAIL_N. -/
def switchOpen (s : State) : State :=
  pwrfailAssert (setFlag (onGuard s (fun g => { g with closed := false })) R.EG_STAT.SWITCH_ON false)

/-- May the switch close at time `t` (in microseconds): input at or above 35.0 V and not above 62 V, 1 s after an over-current
opening, and neither latched open nor tripped? -/
def mayClose (s : State) (t : Nat) : Bool :=
  let g := s.guard
  3500 ≤ g.vin && g.vin ≤ 6200 && !g.latched && !g.tripped && (match g.opens.head? with
    | some o => o + 1000000 ≤ t
    | none => true)

/-- The switch closes under its condition. -/
def switchClose (s : State) (t : Nat) : State :=
  if mayClose s t then
    setFlag (setFlag (onGuard s (fun g => { g with closed := true })) R.EG_STAT.SWITCH_ON true) R.EG_STAT.OV false
  else s

/-- An over-current opening; the third within 60 s holds the switch open until the input is removed (R591). -/
def overcurrent (s : State) (t ma us : Nat) : State :=
  if !s.guard.closed ∨ !(10000 < ma || (3000 < ma && 1000 < us)) then s
  else
    let l := t :: s.guard.opens.filter (fun o => t < o + 60000000)
    switchOpen (onGuard s (fun g => { g with opens := l, latched := g.latched || 3 ≤ l.length }))

/-- Pilot writes CLAIM.YIELD (R270 step 3); under a brown-out the last yield lets the checkpoint run. -/
def yieldWrite (s : State) (c rpc : Nat) : State := brownoutStep (claimYield s c rpc)

/-! ### Meanings -/

/-- CLAIM_YIELD (R270): the PREEMPT handler of core `c` writes CLAIM.YIELD; Pilot halts and records the address after
that bundle. -/
def execClaimYield (c : Nat) (s : State) : Host.Outcome State Fault Refusal :=
  if c < 96 then finish (yieldWrite s c ((core s c).pc + 8)) else .fault .absentUnit

/-- PWRFAIL (R521, R523): the input, in units of 10 mV, falls below 34.0 V at time `t` (in microseconds). -/
def execPwrfail (t vin : Nat) (s : State) : Host.Outcome State Fault Refusal :=
  if vin < 3400 then finish (pwrfailAssert (setVin s t vin)) else finish (setVin s t vin)

/-- PWRFAIL_N_DEASSERT (R521): the input has stayed at or above 35.0 V for 10 ms and bulk, in units of 10 mV, is at 95 % of it. -/
def execPwrfailNDeassert (t bulk : Nat) (s : State) : Host.Outcome State Fault Refusal :=
  let good := s.guard.goodSince.any (fun g => g + 10000 ≤ t)
  if good && s.guard.closed && 95 * s.guard.vin ≤ 100 * bulk then
    finish (setFlag (setFlag s R.PWR_STATE.PWRFAIL false) R.EG_STAT.PWRFAIL_N true)
  else finish s

/-- OVERCURRENT (R591): the input current, in mA, has lasted `us` microseconds at time `t`. -/
def execOvercurrent (t ma us : Nat) (s : State) : Host.Outcome State Fault Refusal := finish (overcurrent s t ma us)

/-- OVERVOLTAGE (R521): the input, in units of 10 mV, rises above 62 V. -/
def execOvervoltage (t vin : Nat) (s : State) : Host.Outcome State Fault Refusal :=
  let s := setVin s t vin
  if 6200 < vin then finish (switchOpen (setFlag s R.EG_STAT.OV true)) else finish s

/-- SWITCH_RECLOSE (R591): at time `t` the switch recloses under its close condition, 1 s after it opened. -/
def execSwitchReclose (t : Nat) (s : State) : Host.Outcome State Fault Refusal := finish (switchClose s t)

/-- INPUT_SWITCH_CLOSE (R521): the input rises to 35.0 V, or falls back to 62 V or less. -/
def execInputSwitchClose (t vin : Nat) (s : State) : Host.Outcome State Fault Refusal := finish (switchClose (setVin s t vin) t)

/-- INPUT_REMOVED (R591, R519): the input falls below 20 V: AON is lost, and with it the latch and the OFF state of a thermal
trip. -/
def execInputRemoved (vin : Nat) (s : State) : Host.Outcome State Fault Refusal :=
  if 2000 ≤ vin then finish s
  else
    let s := powerOff (setVin (switchOpen s) 0 vin)
    finish (onGuard s (fun g => { g with opens := [], latched := false, tripped := false, thermN := false }))

/-- RAILS_FALL (R523, R550): the module's rails fall; the chip is OFF and the retention domain is lost. -/
def execRailsFall (s : State) : Host.Outcome State Fault Refusal := finish (powerOff s)

/-- THERMAL_TRIP (R519): at 115 degrees C (`temp` in units of 0.1) the switch opens without any checkpoint, and the module is OFF
until its input is removed. -/
def execThermalTrip (temp : Nat) (s : State) : Host.Outcome State Fault Refusal :=
  if temp < 1150 then finish s
  else
    let s := powerOff (setFlag (setFlag s R.EG_STAT.SWITCH_ON false) R.EG_STAT.PWRFAIL_N false)
    finish (onGuard (setFlag s R.PWR_STATE.PWRFAIL true) (fun g => { g with closed := false, tripped := true, thermN := true }))

/-- THERM_N (R588): the hottest Quarter `q` is at `temp` (units of 0.1 degrees C): asserted at 100, released below 95, and kept
after a trip. The assertion is reported as THERMAL. -/
def execThermN (q temp : Nat) (s : State) : Host.Outcome State Fault Refusal :=
  if 12 ≤ q then .fault .absentUnit
  else if 1000 ≤ temp then
    if s.guard.thermN then finish s
    else finish (emit (report (onGuard s (fun g => { g with thermN := true })) 0x0702 0x7F [q, temp]) .pin [0, 1] [])
  else if temp < 950 ∧ !s.guard.tripped ∧ s.guard.thermN then finish (emit (onGuard s (fun g => { g with thermN := false })) .pin [0, 0] [])
  else finish s

/-- POWER_ON (R538): the power-on sequence; `role` is the PCIE_ROLE strap, `err` the flash reads that fail. -/
def execPowerOn (role : Bool) (err : Nat) (s : State) : Host.Outcome State Fault Refusal := finish (powerOn s role err)

/-- WAKE_N (R512): a falling edge of WAKE_N, of `ns` nanoseconds, wakes the chip from DORMANT; a pulse of 1 microsecond is
recognised (R589). `err` names the flash reads that fail. -/
def execWakeN (ns err : Nat) (s : State) : Host.Outcome State Fault Refusal :=
  if ns < 1000 then finish s else finish (dormantExit s err)

/-- BROWNOUT_RESTART (R512): the input has stayed at or above 35.0 V for PWR_WAKE.RESTART_MS at time `t` (in microseconds).
`err` names the flash reads that fail. -/
def execBrownoutRestart (t err : Nat) (s : State) : Host.Outcome State Fault Refusal :=
  if s.wdn.boot.brownout && s.guard.goodSince.any (fun g => g + 1000 * fld s R.PWR_WAKE.RESTART_MS ≤ t) then finish (dormantExit s err)
  else finish s

/-- The clocks stop (R528). -/
def clocksStop (s : State) : State :=
  let s := bumpSat (setFlag s R.CLK_STAT.PLL_LOCK false) R.CLK_STAT.REF_LOSS
  onTime (report s 0x0704 0x7F [fld s R.CLK_STAT.REF_LOSS]) (fun t => { t with running := false })

/-- REFCLK_LOSS (R528): no REFCLK edge for 1 microsecond. -/
def execRefclkLoss (s : State) : Host.Outcome State Fault Refusal := finish (clocksStop (setFlag s R.CLK_STAT.REF_OK false))

/-- PLL_LOCK_LOSS (R528): the PLL loses lock with REFCLK present. -/
def execPllLockLoss (s : State) : Host.Outcome State Fault Refusal := finish (clocksStop s)

/-- REFCLK_RETURN (R528): the PLL has locked again; Warden performs a warm reset. `err` names the flash reads that fail. -/
def execRefclkReturn (err : Nat) (s : State) : Host.Outcome State Fault Refusal :=
  if flag s R.CLK_STAT.PLL_LOCK ∨ !s.wdn.boot.power ∨ s.wdn.boot.dormant then finish s
  else finish (warmReset (leaveStart s) (warmCause 2) none err)

/-- WARM_RESET (R534): the warm reset whose leave is under way takes effect. `err` names the flash reads that fail. -/
def execWarmReset (err : Nat) (s : State) : Host.Outcome State Fault Refusal :=
  match s.wdn.boot.leaving with
  | some (2, c) => finish (warmReset s (warmCause c) none err)
  | _ => finish s

/-- CORE_RESET (R533): the core reset whose leave is under way takes effect. -/
def execCoreReset (s : State) : Host.Outcome State Fault Refusal :=
  match s.wdn.boot.leaving with
  | some (1, _) => finish (coreReset s)
  | _ => finish s

/-- BOOT_FALLBACK (R540): BOOT_ATTEMPTS has reached 3; the hardware performs a warm reset onto the other image. `err` names the
flash reads that fail. -/
def execBootFallback (err : Nat) (s : State) : Host.Outcome State Fault Refusal :=
  if fld s R.BOOT_STAT.BOOT_ATTEMPTS < 3 then finish s
  else
    let booted := fld s R.WDN_STAT.IMAGE
    let was := if booted = 0 then fld s R.BOOT_STAT.FAIL_B else fld s R.BOOT_STAT.FAIL_A
    let s := setFld (leaveStart s) R.BOOT_STAT.BOOT_ATTEMPTS 0
    if was = 6 then
      -- the second image has failed in the same way: the both-failed outcome of R539
      let s := setCause (bootStart (hardReset (leaveFinish s) .warm)) [warmCause 3]
      finish (onBoot (setFld (setFld s R.BOOT_STAT.FAIL_A 6) R.BOOT_STAT.FAIL_B 6) (fun b => { b with rom := true }))
    else finish (warmReset s (warmCause 3) (some booted) err)

/-- BOOT_ATTEMPTS_CLEAR (R540): `after` ticks later the firmware has run for 60 s. -/
def execBootAttemptsClear (after : Nat) (s : State) : Host.Outcome State Fault Refusal :=
  let s := advance s after
  if wardenUp s ∧ s.wdn.boot.at_ + 60000000000 ≤ extTime s then finish (setFld s R.BOOT_STAT.BOOT_ATTEMPTS 0) else finish s

/-- ROLLBACK_RAISE (R539): `after` ticks later, the running image has run for 24 h without a watchdog restart; the OTP floor rises
to its ROLLBACK when both images carry ROLLBACK at or above it. -/
def execRollbackRaise (after : Nat) (s : State) : Host.Outcome State Fault Refusal :=
  let s := advance s after
  let new := imageRollback (flashImage s (fld s R.WDN_STAT.IMAGE))
  if wardenUp s && !s.wdn.boot.recovery && s.wdn.boot.cleanSince + 86400000000000 ≤ extTime s && !s.wdn.otp.badFloor && s.wdn.otp.floor < new && new ≤ 64 &&
      new ≤ imageRollback (flashImage s (spareDev s)) then
    finish (setFld (onWdn s (fun w => { w with otp := { w.otp with floor := new } })) R.BOOT_STAT.ROLLBACK new)
  else finish s

/-- CHECKPOINT_EXPIRY (R545): at the first slot boundary 600 s after the DORMANT exit, `after` ticks later, VALID clears for every
partition. -/
def execCheckpointExpiry (after : Nat) (s : State) : Host.Outcome State Fault Refusal :=
  let s := advance s after
  if extTime s < s.wdn.boot.exitAt + 600000000000 then finish s
  else finish (onWdn (setFld s R.CKPT_STAT.VALID 0) (fun w => { w with ckpt := [] }))

end Sys2Proof.Machine
end

