-- ==== Sys2Proof/Machine/Bus.lean ====
section
/-!
DEFINITION. Accesses to everything that is no plain memory: the device register region, the mailbox region, sync objects and
doorbell pages, and uncached accesses to another chip (R9, R11, R97, R221, R238, R383, R421, R444, R454, R472, R473, R494,
R603). A register is read and written word by word; a write narrower than a word changes the bytes it names.
-/
namespace Sys2Proof.Machine

/-! ### Words and bytes -/

/-- The aligned words that a range touches. -/
def wordsIn (off n : Nat) : List Nat := (List.range (n / 4 + 2)).filterMap (fun i =>
  let w := 4 * (off / 4) + 4 * i
  if w < off + n then some w else none)

/-- The bytes of a range, from its words. -/
def bytesOfWords (off n : Nat) (f : Nat → Nat) : List Byte :=
  sliceBytes ((wordsIn off n).flatMap (fun w => bytesLE 4 (f w))) (off % 4) n

/-- What a write of bytes at an offset puts into an aligned word: the mask of the bits written and their values. -/
def wordWrite (off : Nat) (d : List Byte) (w : Nat) : Nat × Nat :=
  (List.range 4).foldl (fun x i =>
    if off ≤ w + i ∧ w + i < off + d.length then
      (x.1 + 255 * 2 ^ (8 * i), x.2 + (d.getD (w + i - off) 0).toNat * 2 ^ (8 * i))
    else x) (0, 0)

/-- The word that a masked write leaves under the access codes of its fields (R9). -/
def accWord (rows : List RegField) (off old mask v : Nat) (sealed : Bool) : Nat :=
  rows.foldl (fun w r =>
    if (rowIndex r off).isNone then w
    else
      let o := bitsOf w r.hi r.lo
      let m := bitsOf mask r.hi r.lo
      let x := bitsOf v r.hi r.lo &&& m
      let set := putBits w r.hi r.lo ((o - (o &&& m)) ||| x)
      match r.acc with
      | .ro => w
      | .rw => set
      | .w1c => putBits w r.hi r.lo (o - (o &&& x))
      | .w1s => putBits w r.hi r.lo (o ||| x)
      | .rwl => if sealed then w else set) old

/-- Does a masked write name a field that the seal locks? -/
def namesRwl (off mask : Nat) : Bool :=
  (devRows off).any (fun r => r.acc = .rwl && (rowIndex r off).isSome && bitsOf mask r.hi r.lo ≠ 0)

/-! ### Pages (Table 15-8) -/

/-- A page that agents write directly. -/
inductive Page where
  | submit (p : Nat)
  | lookup (p : Nat)
  | radio
  | weave (i : Nat)
  | hcopy (c : Nat)
deriving DecidableEq, Repr

/-- The page at a device register offset, with the offset in it. -/
def pageAt (off : Nat) : Option (Page × Nat) :=
  let i := off % 0x10000 / 0x1000
  let o := off % 0x1000
  match off / 0x10000 with
  | 0x31 => if i < 12 then some (.submit i, o) else none
  | 0x42 => if i < 12 then some (.lookup i, o) else none
  | 0x51 => if i = 1 then some (.radio, o) else none
  | 0x54 => if i = 1 ∨ i = 2 then some (.weave (i - 1), o) else none
  | 0x5D => if i < 8 then some (.hcopy i, o) else none
  | _ => none

/-- May this agent write a page (R257, R297, R336, R369, R449)? -/
def pageOpen (s : State) (w : Who) : Page → Bool
  | .submit p => lookupPageOpen s w p
  | .lookup p => lookupPageOpen s w p
  | .radio => radioPageOpen s w
  | .weave i => weavePageOpen s w && weavePowered s i
  | .hcopy c => hdmaOpen s w c

/-- A write to an open page. A page takes no write beyond the offsets its table names. -/
def pageWrite (s : State) (w : Who) (p : Page) (o : Nat) (d : List Byte) : State :=
  match p with
  | .radio => (wordsIn o d.length).foldl (fun s x => radioPageWrite s w x (wordWrite o d x).2) s
  | .submit q => if o < 64 then submitWrite s w q o d else s
  | .lookup q => if o < 64 then lookupWrite s w q o d else s
  | .weave i => if o < 64 then weaveWrite s w i o d else s
  | .hcopy c => if o < 64 then hdmaWrite s w c o d else s

/-! ### Reads of device registers (R603) -/

/-- A system register of a core as the inspection window shows it (R97). -/
def inspect (s : State) (off : Nat) : Nat :=
  let c := (off - 0x600000) / 0x1000
  let i := off % 0x1000 / 4
  if flag s (R.QCLK.GATED (c / 8)) ∨ !rowsName sysRows i then 0 else sysRead s c i

/-- The port and ring that an Ethernet ring register of port 0 or 1 names, and which of its words. -/
def ringAt (off : Nat) : Option (Nat × Nat × Nat) :=
  if 0x5B0100 ≤ off ∧ off < 0x5B2000 ∧ 0x100 ≤ off % 0x1000 ∧ off % 0x1000 < 0x200 then
    some ((off - 0x5B0000) / 0x1000, (off % 0x1000 - 0x100) / 32, off % 32)
  else none

/-- HOLDUP_AGE: hours since the last hold-up test, saturating (Table 18-6). -/
def holdupAge (s : State) : Nat :=
  match s.wdn.health.testAt with
  | some a => 65536 + min 65535 ((extTime s - a) / 3600000000000)
  | none => reg s R.HOLDUP_AGE.val.off

/-- A register word as a source reads it; some are computed where they are read. -/
def devWord (s : State) (w : Who) (off : Nat) : Nat :=
  if off = R.TIME_HI.val.off then latchedHi s w
  else if off = R.TIME_FRAC.val.off then latchedFrac s w
  else if off = R.JRX_FIXLAT.val.off then rxFixLat s
  else if off = R.JTX_FIXLAT.val.off then txFixLat s
  else if off = R.LOW_GEN.val.off then lowGen s
  else if off = R.WSTAT.OUT_OF_BAND.off then wstat s
  else if 0x400000 ≤ off ∧ off < 0x401000 ∧ off % 64 = 12 then tdRowBytes s ((off - 0x400000) / 64)
  else if off = R.WDN_HB.val.off ∧ flag s R.WDN_STAT.RUNNING then (extTime s - s.wdn.hbAt) / 1000000 % 2 ^ 32
  else if off = R.HOLDUP_AGE.val.off then holdupAge s
  else if 0x600000 ≤ off ∧ off < 0x660000 then inspect s off
  else reg s off

/-- May this agent read a register word (R603)? -/
def devReadable (s : State) (w : Who) (off : Nat) : Bool :=
  match w with
  | .warden => true
  | .host => !(0x600000 ≤ off && off < 0x660000) && !rootRole s
  | _ =>
    match w.core? with
    | none => false
    | some c =>
      (match w with | .dma _ => false | _ => true) &&
      (off < 8 || [R.TIME_NS.NS.off, R.TIME_HI.val.off, R.TIME_FRAC.val.off, R.TIME_STAT.HALF.off].contains off ||
        ((activePart s c).map (fun p => off = (R.PART_STAT.TASKS p).off || off = (R.PART_EVT.FALLBACKS p).off)).getD false ||
        (match ringAt off with
        | some (p, r, o) => (o = 12 || o = 16) && ringOwner s w p r
        | none => false) ||
        (match pageAt off with
        | some (pg, _) => pageOpen s w pg
        | none => false))

/-- What reading a range changes: a 4-byte read of TIME_NS latches for its source (R383), and one of a TOTAL clears PEAK and TOTAL
(R305). -/
def devReadEffect (s : State) (w : Who) (off n : Nat) : State :=
  let s := if off = R.TIME_NS.NS.off ∧ n = 4 then latchTime s w else s
  (wordsIn off n).foldl (fun s x =>
    if 0x430000 ≤ x ∧ x < 0x434000 ∧ x % 8 = 4 then skewRead s ((x - 0x430000) / 8) else s) s

/-- A read of the device register region. An 8-byte read of TIME_NS gives EPOCH_EFF in its upper half (R383). -/
def devRead (s : State) (w : Who) (off n : Nat) : Res (List Byte) :=
  if (wordsIn off n).all (devReadable s w) then
    let f (x : Nat) : Nat := if off = R.TIME_NS.NS.off ∧ n = 8 ∧ x = off + 4 then epochEff s else devWord s w x
    .ok (bytesOfWords off n f) (devReadEffect s w off n)
  else .unmapped s

/-! ### Writes of device registers -/

/-- Warden stores a word: the effect beside the word itself. `old` is the state before. -/
def regHook (s old : State) (off : Nat) : State :=
  if off = R.JRX_CTL.EN.off then jrxChanged s (flag old R.JRX_CTL.EN) (fld old R.JRX_CTL.MODE)
  else if off = R.PPS_IN_CTL.EN.off then
    if flag s R.PPS_IN_CTL.EN ∧ !flag old R.PPS_IN_CTL.EN then onTime s (fun t => { t with lastEdge := some (extTime s) }) else s
  else if off = R.PWR_CAP.val.off then makePlan (setCap s (fld s R.PWR_CAP.val))
  else if off = R.WDN_SEAL.SEAL.off then setFlag s R.WDN_STAT.SEALED (flag s R.WDN_SEAL.SEAL)
  else if off = R.CKPT_CTL.DISCARD.off then
    let m := fld s R.CKPT_CTL.DISCARD
    setFld (forN 12 (fun p s => if bitOf m p then dropCkpt s p else s) s) R.CKPT_CTL.DISCARD 0
  else if 0x580000 ≤ off ∧ off < 0x580200 ∧ off % 64 = 0 then
    let p := (off - 0x580000) / 64
    pctlChanged s p (flag old (R.ADR_PCTL.EN p))
  else if 0x200000 ≤ off ∧ off < 0x208000 ∧ off % 32 < 16 then
    let q := (off - 0x200000) / 32
    qReconfig s q (qSnapshot old q)
  else if 0x5A1000 ≤ off ∧ off < 0x5A1800 ∧ off % 16 = 12 then
    let v := (off - 0x5A1000) / 16
    if flag old (R.MSIX.MASK v) ∧ !flag s (R.MSIX.MASK v) then msixUnmask s v else s
  else s

/-- A masked write of a register word by Warden, or by an agent that may write it (R9). -/
def regStore (s : State) (w : Who) (off mask v : Nat) : State :=
  let nv := accWord (devRows off) off (reg s off) mask v (flag s R.WDN_STAT.SEALED)
  let s := if namesRwl off mask ∧ flag s R.WDN_STAT.SEALED then report s 0x0801 w.agent [off] else s
  if off = R.KSLOT_PHASE.val.off then phaseWrite s w nv
  else if off = R.KSLOT_NUM.val.off then slotNumWrite s w nv
  else if off = R.TIME_EPOCH.EPOCH.off then epochWrite s nv
  else if off = R.TIME_INC.INC.off then incWrite s nv
  else if off = R.TIME_SLEW.val.off then slewWrite s nv
  else if off = R.TIME_STEP.val.off then stepWrite s nv
  else if off = R.REF_TUNE.val.off then tuneWrite s nv
  else if off = R.PPS_OUT_PERIOD.PERIOD.off then periodWrite s nv
  else if off = R.JSYSREF.ARM.off then
    let t := setFlag s R.JSYSREF.PERIODIC (bitOf nv 0)
    if bitOf (v &&& mask) 1 then sysrefArm t else t
  else regHook (setReg s off nv) s off

/-- May this agent write a register word directly (R494, Table 15-8)? -/
def devWritable (s : State) (w : Who) (off : Nat) : Bool :=
  match w with
  | .warden => !(0x600000 ≤ off && off < 0x660000)
  | .host => (0x5A1000 ≤ off && off < 0x5A1810) ||
      (match ringAt off with
      | some (p, r, o) => o = 16 && ringOwner s w p r
      | none => false)
  | _ =>
    match w.core?, ringAt off with
    | some _, some (p, r, o) => o = 16 && ringOwner s w p r
    | _, _ => false

/-- One word of a write to the device register region. -/
def devWriteWord (s : State) (w : Who) (off : Nat) (d : List Byte) (x : Nat) : State :=
  let m := wordWrite off d x
  regStore s w x m.1 m.2

/-- A write to the device register region by an agent other than the host: a page, or registers that are all open to it. -/
def devWrite (s : State) (w : Who) (off : Nat) (d : List Byte) : Res Unit :=
  match pageAt off with
  | some (pg, o) => if pageOpen s w pg then .ok () (pageWrite s w pg o d) else .unmapped s
  | none =>
    if (wordsIn off d.length).all (devWritable s w) then
      .ok () ((wordsIn off d.length).foldl (fun s x => devWriteWord s w off d x) s)
    else .unmapped s

/-! ### The mailbox region (Table 15-2, R472) -/

/-- A word of a requester's rings. -/
def mboxWord (s : State) (key o : Nat) : Nat :=
  let x := mail s key
  let slot (t : Tab (List Byte)) (b : Nat) : Nat := fieldLE (tabGet t ((o - b) / 64) []) ((o - b) % 64) 4
  if o < 0x200 then slot x.req 0
  else if o < 0x400 then slot x.rsp 0x200
  else if o < 0x800 then slot x.ntc 0x400
  else match o with
    | 0x800 => x.reqTail
    | 0x804 => x.reqHead
    | 0x808 => x.rspTail
    | 0x80C => x.rspHead
    | 0x810 => x.ntcTail
    | 0x814 => x.ntcHead
    | 0x818 => num (pairReady s (pairOf key)) + 2 * num x.identified + 256 * (s.wdn.epoch % 256) + 65536 * x.ntcLost
    | 0x81C => x.vector + 128 * num x.vecEn + 256 * x.nclass
    | _ => 0

/-- A word of the mailbox region as the host and Warden read it: pairs 4 to 15 read as zero to the host. -/
def mboxRegion (s : State) (w : Who) (off : Nat) : Nat :=
  let m := off / 0x1000
  if 16 ≤ m ∨ (w = .host ∧ 4 ≤ m) then 0 else mboxWord s (mailKey m (m - 4)) (off % 0x1000)

/-- A read of the mailbox region. -/
def mboxRead (s : State) (w : Who) (off n : Nat) : Res (List Byte) :=
  if w = .warden ∨ (w = .host ∧ !rootRole s) then .ok (bytesOfWords off n (mboxRegion s w)) s else .unmapped s

/-- May a requester write this word of its pair? -/
def mboxWritable (o : Nat) : Bool := o < 0x200 || o = 0x800 || o = 0x80C || o = 0x814

/-- A masked write of a word on a requester's side. -/
def mboxStore (s : State) (key o mask v : Nat) : State :=
  let nv := ((mboxWord s key o) - (mboxWord s key o &&& mask)) ||| (v &&& mask)
  onMail s key (fun x =>
    if o < 0x200 then { x with req := tabSet x.req (o / 64) (putBytes (sliceBytes (tabGet x.req (o / 64) []) 0 64) (o % 64) (bytesLE 4 nv)) }
    else if o = 0x800 then { x with reqTail := nv % 65536 }
    else if o = 0x80C then { x with rspHead := nv % 65536 }
    else if o = 0x814 then { x with ntcHead := nv % 65536 }
    else x)

/-! ### Host writes (R444) -/

/-- May the host write this word of window A? -/
def hostWritable (s : State) (off : Nat) : Bool :=
  if off < 0x1000000 then devWritable s .host off
  else off < 0x1004000 && mboxWritable (off % 0x1000)

/-- One word of a host write. -/
def hostWord (s : State) (off : Nat) (d : List Byte) (x : Nat) : State :=
  if x < 0x1000000 then devWriteWord s .host off d x
  else
    let m := wordWrite off d x
    mboxStore s ((x - 0x1000000) / 0x1000) (x % 0x1000) m.1 m.2

/-- A host write through window A: judged word by word; the words the host may write are performed, and the write is counted and
reported once where any is refused. Above 0x01FF_FFFF it is unmapped. -/
def hostWrite (s : State) (off : Nat) (d : List Byte) : State :=
  if rootRole s then s
  else if 0x2000000 ≤ off then reportUnmapped s .host (ownGa s (0xA0000000000 + off)) 1
  else
    let words := wordsIn off d.length
    let no := words.filter (fun x => !hostWritable s x)
    let s := (words.filter (hostWritable s)).foldl (fun s x => hostWord s off d x) s
    match no with
    | [] => s
    | x :: _ => report (bump s R.HIF_DENIED.val) 0x0601 97 [max off x]

/-! ### Sync objects and doorbells (R221, R238) -/

/-- A word of a sync object's slot. -/
def syncWord (s : State) (n o : Nat) : Nat :=
  let x := syncObj s n
  match o with
  | 0 => x.value
  | 4 => x.type + 4 * num x.en + 16 * x.owner
  | 0x10 => x.waiters.length
  | 0x14 => num x.ovf
  | _ => 0

/-- A write into a sync object's slot: only an aligned word acts; SIGNAL is open under the OWNER rule, and the other registers to
Warden alone. -/
def syncWrite (s : State) (w : Who) (n o : Nat) (d : List Byte) : Res Unit :=
  let v := numLE d
  let mine : Bool := match w with
    | .remote _ => true
    | .warden => true
    | _ => (syncObj s n).owner = 0xF || (w.core?.bind (activePart s)) = some (syncObj s n).owner
  if d.length ≠ 4 ∨ o % 4 ≠ 0 then .ok () (report s 0x0802 w.agent [syncAddr n + o])
  else if 0x18 ≤ o then .ok () s
  else if o = 8 then
    if mine then
      match w with
      | .remote chip => .ok () (signalLocal s n v chip w.agent)
      | _ => .ok () (signalLocal s n v (chipId s) w.agent)
    else .unmapped s
  else if w ≠ .warden then .unmapped s
  else if o = 4 then .ok () (syncConfig s n v)
  else if o = 0xC then .ok () (syncReset s n v)
  else if o = 0x14 ∧ bitOf v 0 then .ok () (setSync s n { syncObj s n with ovf := false })
  else .ok () s

/-- A word of a doorbell page. -/
def bellWord (s : State) (q o : Nat) : Nat :=
  if o = 0x40 then fld s (R.QSTAT.COUNT q) else if o = 0x48 then fld s (R.QPTR.HEAD q) else 0

/-- A write into a doorbell page. -/
def bellWrite (s : State) (w : Who) (q o : Nat) (d : List Byte) : State :=
  let s := if o < 0x40 then sendWrite s w q o d else s
  if o < 0x48 ∧ 0x44 < o + d.length then consumeWrite s w q (numLE (d.take 4)) (o = 0x44 && d.length = 4) else s

/-! ### Any address -/

/-- An uncached read of a sync object or doorbell of another chip: asked for, awaited, and taken once it has come (R421, R425). -/
def ucRead (s : State) (w : Who) (ga n : Nat) : Res (List Byte) :=
  match s.coh.ucGot.find? (fun x => x.1 = (ga, w.agent) && x.2 ≠ some []) with
  | some x =>
    let s := onCoh s (fun h => { h with ucGot := h.ucGot.erase x })
    match x.2 with
    | some d => .ok (sliceBytes d 0 n) s
    | none => .unmapped s
  | none =>
    if s.coh.ucOut.contains (ga, w.agent) then .wait s
    else .wait (sendPkt (onCoh s (fun h => { h with ucOut := h.ucOut ++ [(ga, w.agent)] })) (ga / 2 ^ 44 % 16) 0x07 w.agent ga
      (bytesLE 1 n) [])

/-- Read a range at any address. -/
def busRead (s : State) (w : Who) (ga n : Nat) : Res (List Byte × Bool) :=
  let plain (r : Res (List Byte)) : Res (List Byte × Bool) := r.andThen (fun d s => .ok (d, false) s)
  match resolve s w ga with
  | .sync obj o => plain (.ok (bytesOfWords o n (syncWord s obj)) s)
  | .bell q o => plain (.ok (bytesOfWords o n (bellWord s q)) s)
  | .dev off => plain (devRead s w off n)
  | .mbox off => plain (mboxRead s w off n)
  | .remote _ a => if a < lp5xEnd then readRange s w ga n else plain (ucRead s w ga n)
  | _ => readRange s w ga n

/-- An uncached write of a sync object or doorbell of another chip: sent, awaited, and done once it is acknowledged (R421, R425). -/
def ucWrite (s : State) (w : Who) (ga : Nat) (d : List Byte) : Res Unit :=
  match s.coh.ucGot.find? (fun x => x.1 = (ga, w.agent) && (x.2 = some [] || x.2 = none)) with
  | some x =>
    let s := onCoh s (fun h => { h with ucGot := h.ucGot.erase x })
    if x.2 = none then .unmapped s else .ok () s
  | none =>
    if s.coh.ucOut.contains (ga, w.agent) then .wait s
    else .wait (sendPkt (onCoh s (fun h => { h with ucOut := h.ucOut ++ [(ga, w.agent)] })) (ga / 2 ^ 44 % 16) 0x08 w.agent ga
      (bytesLE 1 d.length) d)

/-- Write a range at any address. -/
def busWrite (s : State) (w : Who) (ga : Nat) (d : List Byte) (poison : Bool) : Res Unit :=
  match resolve s w ga with
  | .sync obj o => syncWrite s w obj o d
  | .bell q o => .ok () (bellWrite s w q o d)
  | .dev off => devWrite s w off d
  | .mbox off =>
    if w = .warden ∧ off / 0x1000 < 16 ∧ (wordsIn off d.length).all (fun x => mboxWritable (x % 0x1000)) then
      .ok () ((wordsIn off d.length).foldl (fun s x =>
        let m := wordWrite off d x
        mboxStore s (mailKey (x / 0x1000) (x / 0x1000 - 4)) (x % 0x1000) m.1 m.2) s)
    else .unmapped s
  | .remote _ a => if a < lp5xEnd then writeRange s w ga d poison else ucWrite s w ga d
  | _ => writeRange s w ga d poison

/-! ### Uncached accesses from other chips (R421, R425, R238) -/

/-- The source under which a write of another chip's agent is staged (R222). -/
def farSrc (chip agent : Nat) : Nat := 1024 * (16 + 128 * chip + agent) + 1023

/-- An uncached read arrives: its data returns, or ERR where the address is closed to other chips. -/
def ucReadIn (s : State) (chip agent ga n : Nat) : State :=
  match resolve s (.remote chip) ga with
  | .sync obj o => sendPkt s chip 0x29 agent ga [] (bytesOfWords o n (syncWord s obj))
  | .bell q o => sendPkt s chip 0x29 agent ga [] (bytesOfWords o n (bellWord s q))
  | _ => report (sendPkt s chip 0x28 agent ga [] []) 0x0107 agent [ga, 1, num (kennelHit s ga)]

/-- An uncached write arrives: performed and acknowledged, or answered with ERR. -/
def ucWriteIn (s : State) (chip agent ga : Nat) (d : List Byte) : State :=
  let ack (s : State) : State := sendPkt s chip 0x2A agent ga [] []
  let err (s : State) : State := report (sendPkt s chip 0x28 agent ga [] []) 0x0107 agent [ga, 1, num (kennelHit s ga)]
  match resolve s (.remote chip) ga with
  | .sync obj o =>
    if o = 8 ∧ d.length = 4 then ack (signalLocal s obj (numLE d) chip agent)
    else
      match syncWrite s (.remote chip) obj o d with
      | .ok _ s => ack s
      | _ => err s
  | .bell q o =>
    if o < 0x40 then
      match stage s 0 (farSrc chip agent) o d with
      | (none, s) => ack s
      | (some m, s) => ack (enqueue s true ⟨chip, agent, q, none, m⟩)
    else ack (bellWrite s (.remote chip) q o d)
  | _ => err s

/-- Data of an uncached read has come, or the acknowledgement of a write (no data). -/
def ucAnswer (s : State) (ga agent : Nat) (d : List Byte) : State :=
  if s.coh.ucOut.contains (ga, agent) then
    onCoh s (fun h => { h with ucOut := h.ucOut.erase (ga, agent), ucGot := h.ucGot ++ [((ga, agent), some d)] })
  else s

/-- A request has been answered with ERR: the access that waits finds its address unmapped (R425). -/
def errArrives (s : State) (ga agent : Nat) : State :=
  if s.coh.ucOut.contains (ga, agent) then
    onCoh s (fun h => { h with ucOut := h.ucOut.erase (ga, agent), ucGot := h.ucGot ++ [((ga, agent), none)] })
  else
    let line := ga / 128
    if s.coh.await.any (fun r => r.line = line ∧ r.agent = agent) then
      drainPosted (onCoh s (fun h => { h with
        await := h.await.filter (fun r => !(r.line = line ∧ r.agent = agent)), errs := setAdd h.errs (128 * line) }))
    else s

/-! ### Meanings -/

/-- UC_RD (R421): an uncached read of a sync object or doorbell arrives over Adruoth. -/
def execUcRd (chip agent ga n : Nat) (s : State) : Host.Outcome State Fault Refusal :=
  if chip < 16 then finish (ucReadIn s chip agent ga n) else .fault .absentUnit

/-- UC_WR (R421): an uncached write to a sync object or doorbell arrives over Adruoth. -/
def execUcWr (chip agent ga : Nat) (d : List Byte) (s : State) : Host.Outcome State Fault Refusal :=
  if chip < 16 then finish (ucWriteIn s chip agent ga d) else .fault .absentUnit

/-- ERR (R425): the requester receives an error response. -/
def execErr (ga agent : Nat) (s : State) : Host.Outcome State Fault Refusal := finish (errArrives s ga agent)

/-- UC_DATA (R421): the data of an uncached read returns. -/
def execUcData (ga agent : Nat) (d : List Byte) (s : State) : Host.Outcome State Fault Refusal := finish (ucAnswer s ga agent d)

/-- UC_ACK (R421): an uncached write is acknowledged. -/
def execUcAck (ga agent : Nat) (s : State) : Host.Outcome State Fault Refusal := finish (ucAnswer s ga agent [])

/-- REGISTER_WRITE (R444, R494, R9, R469): a write of the device register or mailbox region, `off` counting from the start of window
A; for an agent other than the host also of a sync object, whose region `off` names by its local address. A host write is judged word
by word; one by any other agent that is not open to it is unmapped. -/
def execRegisterWrite (w : Who) (off : Nat) (d : List Byte) (s : State) : Host.Outcome State Fault Refusal :=
  match w with
  | .host => finish (hostWrite s off d)
  | _ =>
    let ga := ownGa s (if off < 0x2000000 then 0xA0000000000 + off else off)
    match busWrite s w ga d false with
    | .ok _ s => finish s
    | .unmapped s => finish (reportUnmapped s w ga 1)
    | .wait s => finish s

/-- RING_TAIL (R454): a write of a ring's TAIL; only its owner, or Warden, may write it. -/
def execRingTail (w : Who) (p r v : Nat) (s : State) : Host.Outcome State Fault Refusal :=
  if 2 ≤ p ∨ 8 ≤ r then .fault .absentUnit
  else
    let off := (R.RING_TAIL.TAIL p r).off
    if w = .host then finish (hostWrite s off (bytesLE 4 v))
    else if devWritable s w off then finish (regStore s w off (2 ^ 32 - 1) v)
    else finish (reportUnmapped s w (ownGa s (0xA0000000000 + off)) 1)

/-- REQ_TAIL (R473): the doorbell of a pair's request ring: the host's write of a host pair; on the other pairs the requests that
the pair's path has brought are posted. -/
def execReqTail (pair chip v : Nat) (s : State) : Host.Outcome State Fault Refusal :=
  if 16 ≤ pair ∨ 16 ≤ chip then .fault .absentUnit
  else if pair < 4 ∧ rootRole s then finish s
  else finish (mboxStore s (mailKey pair chip) 0x800 (2 ^ 32 - 1) v)

end Sys2Proof.Machine
end

