-- ==== Sys2Proof/Machine/Kennel.lean ====
section
/-!
DEFINITION. Errors of LP5X and tile memory, the patrol, and the Kennel list (R179, R181, R207 to R209, R214, R535, R552).
-/
namespace Sys2Proof.Machine

/-- Change the memory marks. -/
def onMarks (s : State) (f : MemMarks → MemMarks) : State := { s with marks := f s.marks }

/-! ### The list (R207, R208) -/

/-- The address of a page or row. -/
def kennelAddr (num_ : Nat) (page : Bool) : Nat := if page then 4096 * num_ else 128 * num_

/-- Is the list full for this page or row: 512 pages, and 4 rows a core? -/
def kennelFull (s : State) (num_ : Nat) (page : Bool) : Bool :=
  if page then 512 ≤ s.marks.pages.length
  else
    let c (r : Nat) : Nat := (128 * r - tileAddr 0 0) / 0x200000
    4 ≤ (s.marks.rows.filter (fun r => c r = c num_)).length

/-- Is it on the list? -/
def kennelHas (s : State) (num_ : Nat) (page : Bool) : Bool :=
  if page then s.marks.pages.contains num_ else s.marks.rows.contains num_

/-- A KENNEL notice: address, reason (1 an uncorrectable error, 2 corrected errors, 3 a test; log entry 38), and 1 once in effect. -/
def kennelNotice (s : State) (num_ : Nat) (page : Bool) (reason : Nat) (inEffect : Bool) : State :=
  notify s 5 0x8006 (bytesLE 8 (kennelAddr num_ page) ++ bytesLE 1 reason ++ bytesLE 1 (num inEffect))

/-- KENNEL_STAT, and the indicator that counts entries (Table 18-10). -/
def kennelStat (s : State) : State :=
  let s := setFld (setFld s R.KENNEL_STAT.PAGES s.marks.pages.length) R.KENNEL_STAT.ROWS s.marks.rows.length
  onWdn s (fun w => { w with health := { w.health with now_ := w.health.now_.set 6 (s.marks.pages.length + s.marks.rows.length) } })

/-- A candidate that finds the list full is reported and not retired. -/
def kennelRefuse (s : State) (num_ : Nat) (page : Bool) : State :=
  report (setFlag s R.KENNEL_STAT.FULL true) 0x0108 100 [kennelAddr num_ page]

/-- A page or row is retired: from now on every access to it is unmapped. The journal on the device that does not hold the booted
image records it (R537). -/
def kennelTake (s : State) (num_ : Nat) (page : Bool) (reason : Nat) : State :=
  let s := onMarks s (fun m => { m with candidates := m.candidates.filter (· ≠ (num_, page)) })
  if kennelHas s num_ page then s
  else if kennelFull s num_ page then kennelRefuse s num_ page
  else
    let s := onMarks s (fun m =>
      if page then { m with pages := setAdd m.pages num_ } else { m with rows := setAdd m.rows num_ })
    let dev := spareDev s
    let s := onBoot s (fun b => { b with
      journals := tabSet b.journals dev ((tabGet b.journals dev [] ++ [KennelEnt.mk num_ page reason]).take 3840) })
    kennelNotice (kennelStat s) num_ page reason true

/-- A page or row becomes a candidate (R209): one with an uncorrectable error takes effect at once, any other waits. -/
def kennelCandidate (s : State) (num_ : Nat) (page : Bool) (reason : Nat) : State :=
  if kennelHas s num_ page then s
  else if reason = 1 then kennelTake s num_ page reason
  else if kennelFull s num_ page then kennelRefuse s num_ page
  else if s.marks.candidates.contains (num_, page) then s
  else kennelNotice (onMarks s (fun m => { m with candidates := m.candidates ++ [(num_, page)] })) num_ page reason false

/-- Corrected errors of a page or row in the last 24 h. -/
def correctedIn (s : State) (num_ : Nat) : Nat :=
  (s.marks.corrected.filter (fun x => x.1 = num_ && extTime s < x.2 + 86400000000000)).length

/-- The reason a waiting candidate has. -/
def candidateReason (s : State) (num_ : Nat) : Nat := if 4 < correctedIn s num_ then 2 else 3

/-- Released pages take effect at a slot boundary (R209). -/
def kennelBoundary (s : State) : State :=
  let l := s.wdn.candidates
  l.foldl (fun s n => kennelTake s n true (candidateReason s n)) (onWdn s (fun w => { w with candidates := [] }))

/-- Candidate rows of a core take effect at its partition reset (R209). -/
def kennelRows (s : State) (cores : List Nat) : State :=
  (s.marks.candidates.filter (fun x => !x.2 && cores.contains ((128 * x.1 - tileAddr 0 0) / 0x200000))).foldl (fun s x =>
    kennelTake s x.1 false (candidateReason s x.1)) s

/-! ### Errors (R179, R181, R214) -/

/-- A corrected error counts against its page or row: more than 4 in 24 h make it a candidate. -/
def correctedAt (s : State) (num_ : Nat) (page : Bool) : State :=
  let now := extTime s
  let s := onMarks s (fun m => { m with
    corrected := m.corrected.filter (fun x => now < x.2 + 86400000000000) ++ [(num_, now)] })
  if 4 < correctedIn s num_ then kennelCandidate s num_ page 2 else s

/-- A single-bit error of LP5X is corrected. -/
def lp5xCe (s : State) (a : Nat) : State :=
  correctedAt (report (bump s R.LP5X_CE_COUNT.val) 0x0101 0x7F [a]) (a / 4096) true

/-- An uncorrectable error of LP5X poisons the granule's line. -/
def lp5xUe (s : State) (a : Nat) : State :=
  let s := poisonRange (bump s R.LP5X_UE_COUNT.val) (128 * (a / 128)) 128
  kennelCandidate (report s 0x0102 0x7F [a]) (a / 4096) true 1

/-- A single-bit error of tile memory is corrected. -/
def tileCe (s : State) (c off : Nat) : State :=
  correctedAt (report (bump s R.TM_CE_COUNT.val) 0x0105 c [c, off]) (tileAddr c off / 128) false

/-- An uncorrectable error of tile memory poisons its 8-byte word. -/
def tileUe (s : State) (c off : Nat) : State :=
  let s := poisonRange (bump s R.TM_UE_COUNT.val) (tileAddr c (8 * (off / 8))) 8
  kennelCandidate (report s 0x0106 c [c, off]) (tileAddr c off / 128) false 1

/-- May the patrol run (R181)? LP5X is in self-refresh in WATCH and DORMANT. -/
def patrolOn (s : State) : Bool := flag s R.SQ_CTL.PATROL_EN && s.wdn.boot.power && !s.wdn.boot.dormant && fld s R.PWR_STATE.STATE < 3

/-- The patrol reads the next 64-byte granule; `err` is 1 for a corrected error there and 2 for an uncorrectable one. -/
def patrolRead (s : State) (err : Nat) : State :=
  if !patrolOn s then s
  else
    let a := s.marks.patrol
    let s := onMarks s (fun m => { m with patrol := (a + 64) % lp5xEnd })
    if err = 1 then lp5xCe s a else if err = 2 then lp5xUe s a else s

/-! ### Meanings -/

/-- PATROL_READ (R181): the patrol reads its next address, correcting an error (1) or poisoning the line (2). -/
def execPatrolRead (err : Nat) (s : State) : Host.Outcome State Fault Refusal := finish (patrolRead s err)

/-- KENNEL_ENTRY (R209): a candidate takes effect: at once with an uncorrectable error (`ue`), otherwise a page that its owner has
released, or a row at the partition reset of its core. -/
def execKennelEntry (num_ : Nat) (page ue : Bool) (s : State) : Host.Outcome State Fault Refusal :=
  if page ∧ lp5xEnd / 4096 ≤ num_ then .fault .absentUnit
  else if !page ∧ (128 * num_ < tileAddr 0 0 ∨ tileAddr 96 0 ≤ 128 * num_) then .fault .absentUnit
  else if ue then finish (kennelCandidate s num_ page 1)
  else if s.marks.candidates.contains (num_, page) ∧ (page → s.wdn.candidates.contains num_) then
    finish (kennelTake (onWdn s (fun w => { w with candidates := setDel w.candidates num_ })) num_ page (candidateReason s num_))
  else finish s

end Sys2Proof.Machine
end

