-- ==== Sys2Proof/Machine/CmdEffect.lean ====
section
/-!
DEFINITION. What the class B commands of Table 15-6 do at the boundary where they take effect (R481, R487 to R489), and what the jobs
of the pool and the radio do at a boundary (R301, R347).
-/
namespace Sys2Proof.Machine

/-! ### References (R480) -/

/-- A reference: address, length, kind. -/
structure MRef where
  addr : Nat
  len : Nat
  kind : Nat
deriving DecidableEq, Repr

/-- The reference at payload byte `i`. -/
def refAt (m : List Byte) (i : Nat) : MRef := ⟨pl m i 8, pl m (i + 8) 4, pl m (i + 12) 1⟩

/-- May Warden move `need` bytes by a reference that came on this pair? KIND 0 names usable LP5X of a current member, KIND 1 host memory
on a host pair in the endpoint role. -/
def refOk (s : State) (key : Nat) (r : MRef) (need : Nat) : Bool :=
  need ≤ r.len &&
    (if r.kind = 0 then
      r.addr < 2 ^ 48 && r.addr % 2 ^ 44 + need ≤ lp5xEnd && isMember s (r.addr / 2 ^ 44)
    else r.kind = 1 && key < 4 && !rootRole s)

/-- Read what a reference names; `host` is what host memory holds there. -/
def refRead (s : State) (r : MRef) (n : Nat) (host : List Byte) : Res (List Byte × Bool) :=
  if r.kind = 0 then readRange s .warden r.addr n
  else if host.length < n then .unmapped s
  else .ok (host.take n, false) (emit s .hostRead [r.addr, n] [])

/-- Write where a reference names: the state, and whether all of it was mapped. -/
def refWrite (s : State) (r : MRef) (d : List Byte) : State × Bool :=
  if r.kind = 0 then
    ((unitPieces r.addr d.length).foldl (fun s x => unitWrite s .warden (r.addr + x.1) (sliceBytes d x.1 x.2) false) s,
      (unitPieces r.addr d.length).all (fun x => !kennelHit s (r.addr + x.1)))
  else (if d = [] then s else emit s .hostWrite [r.addr, 0] d, true)

/-! ### SNAPSHOT (R488, R557) -/

/-- The named words of a range of the device register region. -/
def namedWords (lo hi : Nat) : List Nat :=
  ((List.range ((hi - lo) / 4)).map (fun i => lo + 4 * i)).filter (fun o => rowsName (devRows o) o)

/-- The words of a set of Table 18-5, by ascending offset. -/
def setWords (b : Nat) : List Nat :=
  match b with
  | 0 => namedWords 0x100000 0x100100
  | 1 => namedWords 0x5E0200 0x5E0250
  | 2 => (List.range 12).flatMap (fun p => [(R.PART_STAT.TASKS p).off, (R.PART_EVT.FALLBACKS p).off])
  | 3 => (List.range 1024).flatMap (fun q => [(R.QSTAT.COUNT q).off, (R.QOVF_COUNT.val q).off])
  | 4 => namedWords 0x401000 0x401014
  | 5 => [R.JRX_STAT.LANE_LOCK.off, R.JRX_CRC_ERR.val.off, R.JRX_OVERRUN.val.off, R.JTX_UNDERRUN.val.off, R.KMAP_ERR.val.off] ++
      (List.range 16).flatMap (fun c => [(R.WCNT.val c).off, (R.WFCNT.val c).off])
  | 6 => namedWords 0x540000 0x540200
  | 7 => [R.TIME_STAT.HALF.off, R.PPS_IN_COUNT.val.off, R.TCHK_OFFSET.val.off, R.TCHK_RTT.val.off, R.TCHK_COUNT.DONE.off]
  | 8 => namedWords 0x580000 0x581000
  | 9 => namedWords 0x5A0004 0x5A0014 ++ (List.range 8).map (fun c => (R.HDMA_STAT.val c).off) ++
      (List.range 3).flatMap (fun p => namedWords (0x5B0010 + 0x1000 * p) (0x5B002C + 0x1000 * p)) ++
      [R.XSPI_BUSY_READS.val.off, R.XSPI_DQS_ERR.val.off]
  | 10 => [R.CLK_STAT.PLL_LOCK.off, R.PWR_STATE.STATE.off, R.PWR_CAP.val.off, R.VCORE.MARGIN.off] ++
      (List.range 12).map (fun q => (R.QCLK.DIV q).off) ++ (List.range 12).map (fun q => (R.DROOP_CNT.val q).off) ++
      [R.EG_STAT.VIN.off, R.EG_HOLDUP.val.off, R.EG_PFCOUNT.val.off]
  | _ => []

/-- The sets that SETS names. -/
def setsOf (sets : Nat) : List Nat := (List.range 11).filter (bitOf sets)

/-- The bytes that a snapshot of these sets takes. -/
def snapshotLen (sets : Nat) : Nat := ((setsOf sets).map (fun b => 16 + 4 * (setWords b).length)).sum

/-- The latched values, set by set under their headers; `ts` is the boundary's time. -/
def snapshotData (s : State) (sets ts : Nat) : List Byte :=
  (setsOf sets).flatMap (fun b =>
    bytesLE 2 b ++ bytesLE 2 (setWords b).length ++ bytesLE 4 ts ++ bytesLE 8 0 ++
      (setWords b).flatMap (fun o => bytesLE 4 (devWord s .warden o)))

/-! ### Tables (R288, R301, R304) -/

/-- Install a descriptor and a shard map of 128 bytes; reserved bits are zero. -/
def tableInstall (s : State) (t ctl rows seed : Nat) (map : List Byte) : State :=
  let s := setReg s (R.TD_CTL.EN t).off (putBits ctl 7 7 0 % 2 ^ 21)
  let s := setReg (setReg s (R.TD_ROWS.val t).off (rows % 2 ^ 25)) (R.TD_SEED.val t).off seed
  forN 32 (fun i s => setReg s (0x410000 + 0x80 * t + 4 * i) (fieldLE map (4 * i) 4)) s

/-- The entry of a row that this chip owns, with one version. -/
def ownEntry (k gen : Nat) : Entry := ⟨k, true, false, 1, false, gen, 0, 0⟩

/-- Drop a row: its slots are free and it has no version. -/
def dropRow (s : State) (t r : Nat) : State :=
  let x := entryAt s t r
  putEntry (freeEntry x.2 t x.1) t r Entry.empty

/-- Write a filled row where this chip owns it; none when the heap is full. A row that another chip owns is that chip's. -/
def fillRow (s : State) (t r gen : Nat) (d : List Byte) : Option State :=
  if shardOwner s t (shardOf s t r) ≠ chipId s then some s
  else
    let x := entryAt s t r
    match writeVersion (freeEntry x.2 t x.1) t d with
    | (none, _) => none
    | (some k, s) => some (putEntry s t r (ownEntry k gen))

/-- POOL_GEN as a table is enabled: restored from flash, or 1 where nothing was committed (R287, R314). -/
def restoreGen (s : State) : State := if fld s R.POOL_GEN.val = 0 then setFld s R.POOL_GEN.val (max 1 s.pool.genFlash) else s

/-- TABLE_CREATE: an enabled table is checked against flash and serves (R314). -/
def tableCreate (s : State) (t ctl rows seed : Nat) (map : List Byte) : State :=
  let s := tableInstall s t ctl rows seed map
  if bitOf ctl 0 then setTableState (checkShards (restoreGen s) t) t 0 else s

/-- TABLE_DELETE: the table is disabled and its rows are gone. -/
def tableDelete (s : State) (t : Nat) : State :=
  let s := forN (tdRows s t) (fun r s => dropRow s t r) s
  let s := if flag s (R.TD_CTL.EN t) ∧ fld s (R.TD_STATE.STATE t) = 0 then setTableState s t 1 else s
  let s := setFld (setReg (tableInstall s t 0 0 0 []) (R.TD_SWAP_GEN.val t).off 0) (R.TD_STATE.STATE t) 0
  onPool s (fun p => { p with
    staged := tabErase p.staged t, layout := tabErase p.layout t, policy := tabErase p.policy t,
    unavail := p.unavail.filter (fun x => x / 256 ≠ t) })

/-- The state with a table laid out as its staged rows are, for their canonical form. -/
def underLayout (s : State) (t : Nat) : State :=
  match tabFind s.pool.layout t with
  | some l => setReg (setReg s (R.TD_CTL.EN t).off l.1) (R.TD_ROWS.val t).off l.2
  | none => s

/-- TABLE_SWAP PAUSE (R304 step 1): rows may be staged under the layout the command gives, or the present one where it gives none. -/
def swapPause (s : State) (t ctl rows : Nat) : State :=
  let l := if rows = 0 then (reg s (R.TD_CTL.EN t).off, tdRows s t) else (putBits ctl 7 7 0 % 2 ^ 21, rows % 2 ^ 25)
  setTableState (onPool s (fun p => { p with staged := tabSet p.staged t [], layout := tabSet p.layout t l })) t 1

/-- The staged rows of a table are discarded. -/
def dropStaged (s : State) (t : Nat) : State :=
  onPool s (fun p => { p with staged := tabErase p.staged t, layout := tabErase p.layout t })

/-- TABLE_SWAP COMMIT (R304 step 3): a new generation, the new descriptor, and the staged rows in place of the old. -/
def swapCommit (s : State) (t ctl rows seed : Nat) (map : List Byte) : State :=
  let staged := tabGet s.pool.staged t []
  let s := forN (tdRows s t) (fun r s => dropRow s t r) s
  let s := bump (restoreGen s) R.POOL_GEN.val
  let g := fld s R.POOL_GEN.val
  let s := setFld (tableInstall s t ctl rows seed map) (R.TD_SWAP_GEN.val t) g
  let s := staged.foldl (fun s x => (fillRow s t x.1 g x.2).getD s) s
  let s := onPool (dropStaged s t) (fun p => { p with unavail := p.unavail.filter (fun x => x / 256 ≠ t) })
  setTableState (recordShards s t) t 0

/-- A job's own record changes. -/
def onJob (s : State) (id : Nat) (f : Job → Job) : State :=
  onWdn s (fun w => { w with jobs := w.jobs.map (fun j => if j.id = id then f j else j) })

/-- The records of a replacement: row and new version. -/
def replaceRecords (s : State) (j : Job) : List (Nat × List Byte) :=
  let n := tdRowBytes s (pl j.msg 0 4)
  (List.range (pl j.msg 4 4)).map (fun i => (fieldLE j.data (i * (4 + n)) 4, sliceBytes j.data (i * (4 + n) + 4) n))

/-- A job of TABLE_REPLACE may write its batch: no other replacement is under way, the table serves, and no row of it still holds
two versions or is frozen by a move (R301, R303, R308). -/
def replaceReady (s : State) (j : Job) : Bool :=
  let t := pl j.msg 0 4
  msgCmd j.msg = 0x0403 && j.value.isNone && !j.bad && s.pool.repl = [] && flag s (R.TD_CTL.EN t) && fld s (R.TD_STATE.STATE t) = 0 &&
    (replaceRecords s j).all (fun x => !(entryAt s t x.1).1.prevValid && !moveFrozen s t x.1)

/-- One row of a batch on this chip, as its owner or with a replica of it (R301 step 2): CUR becomes PREV in one directory write. -/
def replaceRow (s : State) (t g r : Nat) (d : List Byte) : Option State :=
  let x := entryAt s t r
  let own := shardOwner s t (shardOf s t r) = chipId s
  if !own ∧ x.1.role ≠ 2 then some x.2
  else
    match writeVersion x.2 t d with
    | (none, _) => none
    | (some k, s) => some (putEntry s t r ⟨k, true, x.1.curValid, if own then 1 else 2, x.1.former, g, x.1.curSlot, x.1.curGen⟩)

/-- A batch is written at generation POOL_GEN + 1 (R301 steps 1 and 2). A heap without a free slot ends the job with an error. -/
def replaceWrite (s : State) (j : Job) : State :=
  let t := pl j.msg 0 4
  let g := fld s R.POOL_GEN.val + 1
  let l := replaceRecords s j
  let n := (l.filter (fun x => canonRow s t x.2 ≠ x.2)).length
  let s := setFld s R.BENIGN_DIVERGENCE.val (fld s R.BENIGN_DIVERGENCE.val + n)
  match l.foldl (fun (o : Option State) x => o.bind (fun s => replaceRow s t g x.1 x.2)) (some s) with
  | none => onJob s j.id (fun j => { j with bad := true, done := true })
  | some s =>
    let s := onPool s (fun p => { p with repl := [⟨t, false, l.map (fun x => x.1), g⟩] })
    onJob s j.id (fun j => { j with value := some g })

/-- The boundary at which a written batch is committed (R301 step 3). -/
def replaceCommit (s : State) : State :=
  s.pool.repl.foldl (fun s r =>
    let s := recordShards (setFld s R.POOL_GEN.val r.gen) r.table
    let s := onPool s (fun p => { p with repl := p.repl.filter (fun x => x ≠ r) })
    onWdn s (fun w => { w with jobs := w.jobs.map (fun j =>
      if msgCmd j.msg = 0x0403 ∧ pl j.msg 0 4 = r.table ∧ j.value = some r.gen then { j with done := true } else j) })) s

/-- The jobs of replacement that may write their batch do so, one at a time. -/
def replaceBoundary (s : State) : State :=
  match s.wdn.jobs.find? (replaceReady s) with
  | some j => replaceWrite s j
  | none => s

/-! ### The radio (R347, R491) -/

/-- Steps 1 and 2 of R347: modes, latencies, bandwidth, sector and slot phase; SYSREF is armed. -/
def radioSetup (s : State) (m : List Byte) : State :=
  let en := flag s R.JRX_CTL.EN
  let mode := fld s R.JRX_CTL.MODE
  let s := setReg s R.JRX_CTL.EN.off (Nat.land (pl m 0 4) 0xF1F)
  let s := setReg (setReg s R.JTX_CTL.EN.off (pl m 4 4 % 32)) R.JRX_DLAT.val.off (pl m 8 4)
  let s := jrxChanged (setReg s R.JTX_DLAT.val.off (pl m 12 4)) en mode
  let s := setFld (setFld s R.KCTL.BW (pl m 16 1)) R.KCTL.SECTOR_ID (pl m 17 1)
  sysrefArm (setFld (setFld s R.KSLOT_PHASE.val (pl m 20 4)) R.KSLOT_NUM.val (pl m 24 4))

/-- Steps 4 and 5 of R347, at a boundary once the link is up: FREE_SYNC at NBUF, and the enables. -/
def radioBoundary (s : State) : State :=
  match s.wdn.jobs.find? (fun j => msgCmd j.msg = 0x0501 && !j.done) with
  | none => s
  | some j =>
    if !flag s R.JRX_STAT.LINK_UP then s
    else
      let s := setFlag (setFlag (radioBuffers s) R.KCTL.RX_EN true) R.KCTL.TX_EN (flag s R.JTX_CTL.EN)
      onJob s j.id (fun j => { j with done := true, value := some (fld s R.KSLOT_NUM.val) })

/-! ### Class B effects (R481) -/

/-- The writes of a REG_WRITE: offset, mask, value. -/
def regWrites (m : List Byte) : List (Nat × Nat × Nat) :=
  (List.range (pl m 0 4)).map (fun i => (pl m (4 + 12 * i) 4, pl m (8 + 12 * i) 4, pl m (12 + 12 * i) 4))

/-- The effect of a class B command, with the status and payload of its response; `ts` is the time of its boundary and `data` what
its reference gave. -/
def bEffect (s : State) (m data : List Byte) (ts : Nat) : Nat × List Byte × State :=
  match msgCmd m with
  | 0x0002 =>
    let d := snapshotData s (pl m 0 4) ts
    let r := refWrite s (refAt m 16) d
    if r.2 then (0, bytesLE 4 d.length, r.1) else (0xE, [], r.1)
  | 0x0101 => (0, [], (regWrites m).foldl (fun s w => regStore s .warden w.1 w.2.1 w.2.2) s)
  | 0x0201 => (0, [], partSet s (pl m 0 4) (pl m 4 4) (pl m 8 4) (pl m 12 4))
  | 0x0202 => (0, [], kennelRows (partReset s (pl m 0 4)) (homeCores s (pl m 0 4)))
  | 0x0301 =>
    let r := budgetApply s ⟨pl m 0 4, pl m 4 4, pl m 8 2, pl m 10 2, extTime s⟩
    (0, bytesLE 4 r.1, r.2)
  | 0x0302 => (0, [], stateApply s (pl m 0 4) (pl m 4 4))
  | 0x0401 => (0, [], tableCreate s (pl m 0 4) (pl m 4 4) (pl m 8 4) (pl m 12 4) data)
  | 0x0404 =>
    let t := pl m 0 1
    match pl m 1 1 with
    | 0 => (0, [], swapPause s t (pl m 4 4) (pl m 8 4))
    | 1 =>
      let s := swapCommit s t (pl m 4 4) (pl m 8 4) (pl m 12 4) data
      (0, bytesLE 4 (fld s (R.TD_SWAP_GEN.val t)), s)
    | _ => (0, [], setTableState (dropStaged s t) t 0)
  | 0x0405 => (0, [], tableDelete s (pl m 0 1))
  | 0x0502 => (0, [], setFlag (setFlag s R.KCTL.RX_EN false) R.KCTL.TX_EN false)
  | 0x0504 => (0, [], setFlag (setFld s (R.WV_CTL.SEL (pl m 0 1)) (pl m 1 1)) (R.WV_CTL.EN (pl m 0 1)) true)
  | _ => (0, [], s)

/-- A class B command takes effect: its response carries the boundary's time. The response to a POWER_STATE that leads to WATCH is
posted before entry begins (R498). -/
def runB (s : State) (b : BCmd) (ts : Nat) : State :=
  if msgCmd b.msg = 0x0302 ∧ pl b.msg 0 4 = 3 then
    (bEffect (answer s b.key b.ticket (mkRsp b.msg 0 [] ts)) b.msg b.data ts).2.2
  else
    let r := bEffect s b.msg b.data ts
    answer r.2.2 b.key b.ticket (mkRsp b.msg r.1 r.2.1 ts)

/-- The configuration that will hold after every command accepted so far (R483). A snapshot changes none. -/
def pendingOf (s : State) : State :=
  (s.wdn.accepted.filter (fun b => msgCmd b.msg ≠ 2)).foldl (fun s b => (bEffect s b.msg b.data 0).2.2) s

end Sys2Proof.Machine
end

