-- ==== Sys2Proof/Machine/CmdCheck.lean ====
section
/-!
DEFINITION. The command catalogue (Table 15-6) and the checks of a request (R254, R483 to R485, R489 to R491, R561, R563).
-/
namespace Sys2Proof.Machine

/-! ### Status codes (Table 15-5) -/

abbrev St.accepted : Nat := 1
abbrev St.unsupported : Nat := 2
abbrev St.notReady : Nat := 3
abbrev St.badLength : Nat := 4
abbrev St.badCrc : Nat := 5
abbrev St.badArg : Nat := 6
abbrev St.badRef : Nat := 7
abbrev St.refused : Nat := 8
abbrev St.denied : Nat := 9
abbrev St.busy : Nat := 10
abbrev St.seqReuse : Nat := 11
abbrev St.authFail : Nat := 12
abbrev St.rollback : Nat := 13
abbrev St.ioError : Nat := 14
abbrev St.powerFail : Nat := 16
abbrev St.sealed : Nat := 17

/-! ### The catalogue -/

/-- A command of the catalogue: the groups that may issue it (bit 0 H, 1 F, 2 M, 3 T), its timing class (0 I, 1 B, 2 L), its payload
length, and the payload bytes that its layout names (offset, length). -/
structure CmdSpec where
  groups : Nat
  cls : Nat
  len : Nat
  named : List (Nat × Nat)
deriving DecidableEq, Repr

/-- The catalogue of firmware line 4.x by code. -/
def cmdSpec : Nat → Option CmdSpec
  | 0x0001 => some ⟨15, 0, 0, []⟩
  | 0x0002 => some ⟨15, 1, 32, [(0, 4), (16, 13)]⟩
  | 0x0003 => some ⟨13, 0, 32, [(0, 8), (16, 13)]⟩
  | 0x0004 => some ⟨13, 0, 3, [(0, 3)]⟩
  | 0x0101 => some ⟨15, 1, 40, [(0, 40)]⟩
  | 0x0102 => some ⟨15, 0, 48, [(0, 48)]⟩
  | 0x0201 => some ⟨1, 1, 16, [(0, 16)]⟩
  | 0x0202 => some ⟨1, 1, 4, [(0, 4)]⟩
  | 0x0203 => some ⟨9, 0, 4, [(0, 4)]⟩
  | 0x0301 => some ⟨5, 1, 12, [(0, 12)]⟩
  | 0x0302 => some ⟨5, 1, 8, [(0, 8)]⟩
  | 0x0303 => some ⟨15, 0, 0, []⟩
  | 0x0401 => some ⟨1, 1, 32, [(0, 16), (16, 13)]⟩
  | 0x0402 => some ⟨1, 2, 32, [(0, 2), (4, 8), (16, 13)]⟩
  | 0x0403 => some ⟨1, 2, 32, [(0, 8), (16, 13)]⟩
  | 0x0404 => some ⟨1, 1, 32, [(0, 2), (4, 12), (16, 13)]⟩
  | 0x0405 => some ⟨1, 1, 1, [(0, 1)]⟩
  | 0x0406 => some ⟨1, 0, 2, [(0, 2)]⟩
  | 0x0407 => some ⟨13, 0, 32, [(0, 4), (16, 13)]⟩
  | 0x0408 => some ⟨1, 0, 8, [(0, 8)]⟩
  | 0x0501 => some ⟨1, 2, 28, [(0, 18), (20, 8)]⟩
  | 0x0502 => some ⟨1, 1, 0, []⟩
  | 0x0503 => some ⟨1, 2, 32, [(0, 4), (16, 13)]⟩
  | 0x0504 => some ⟨1, 1, 2, [(0, 2)]⟩
  | 0x0601 => some ⟨1, 2, 32, [(16, 13)]⟩
  | 0x0602 => some ⟨15, 0, 0, []⟩
  | 0x0603 => some ⟨2, 0, 48, [(0, 48)]⟩
  | 0x0701 => some ⟨5, 2, 32, [(0, 4), (16, 13)]⟩
  | 0x0702 => some ⟨5, 0, 1, [(0, 1)]⟩
  | 0x0703 => some ⟨9, 0, 32, [(16, 13)]⟩
  | 0x0704 => some ⟨1, 0, 0, []⟩
  | 0x0801 => some ⟨13, 0, 0, []⟩
  | 0x0901 => some ⟨9, 0, 5, [(0, 5)]⟩
  | 0x0902 => some ⟨9, 2, 8, [(0, 8)]⟩
  | 0x0903 => some ⟨9, 2, 32, [(0, 3), (16, 13)]⟩
  | 0x0A01 => some ⟨1, 0, 32, [(0, 12), (16, 13)]⟩
  | 0x0A02 => some ⟨5, 0, 4, [(0, 4)]⟩
  | 0x0A03 => some ⟨5, 0, 4, [(0, 4)]⟩
  | _ => none

/-- The group of a pair (Table 15-1), as a bit of `groups`. -/
def groupOf (key : Nat) : Nat := if 32 ≤ key then 1 else if key < 4 then 0 else if key < 14 then 2 else 3

/-- Does a payload leave every byte that its layout does not name at zero? -/
def reservedZero (sp : CmdSpec) (m : List Byte) : Bool :=
  (List.range (min 48 (msgLen m))).all (fun i => pl m i 1 = 0 || sp.named.any (fun x => x.1 ≤ i && i < x.1 + x.2))

/-- Where a command has a reference that it reads or writes. ABORT and PAUSE of TABLE_SWAP use none. -/
def cmdRef (m : List Byte) : Option MRef :=
  if [0x0002, 0x0003, 0x0401, 0x0402, 0x0403, 0x0407, 0x0503, 0x0601, 0x0701, 0x0703, 0x0903, 0x0A01].contains (msgCmd m) ∨
      (msgCmd m = 0x0404 ∧ pl m 1 1 = 1) then some (refAt m 16)
  else none

/-! ### Registers (R489) -/

/-- Registers that only their own commands set. -/
def commandOnly (off : Nat) : Bool :=
  (0x300000 ≤ off && off < 0x300300 && off % 64 < 12) || (0x400000 ≤ off && off < 0x401000) || off = 0x401000 ||
    (0x401100 ≤ off && off < 0x401300 && off % 8 = 4) || (0x410000 ≤ off && off < 0x412000) || off = 0x540000 || off = 0x540100 ||
    (0x510000 ≤ off && off < 0x51000C) || (0x580000 ≤ off && off < 0x590000) || (0x5E0000 ≤ off && off < 0x5E000C) ||
    (0x560000 ≤ off && off < 0x560100 && !(0x560080 ≤ off && off < 0x560098) &&
      !([R.PPS_OUT_PERIOD.PERIOD.off, R.PPS_OUT_CTL.EN.off, R.PPS_IN_CTL.EN.off, R.TCHK_CTL.EN.off]).contains off) ||
    (0x1000000 ≤ off && off < 0x1010000)

/-- Is the ring of a queue placed as R220 asks? `q` holds the configuration that would stand. -/
def queueOk (s : State) (q : Nat) : Bool :=
  let d := fld s (R.QCFG.DEPTH_LOG2 q)
  let c := fld s (R.QCFG.CONSUMER q)
  let base := 2 ^ 32 * fld s (R.QRING_HI.RING_BASE q) + 64 * fld s (R.QRING_LO.RING_BASE q)
  let size := 64 * 2 ^ d
  let inPool := base + size ≤ lp5xEnd
  let inTile := tileAddr c 0 ≤ base && base + size ≤ tileAddr c 0 + 0x140000
  2 ≤ d && d ≤ 12 &&
    (match fld s (R.QCFG.MODE q) with
    | 0 => true
    | 3 => c ≤ 123 && base % size = 0 && inPool
    | _ => c ≤ 95 && base % size = 0 && (inPool || inTile))

/-- Does the configuration `t`, which a write of the word at `off` would leave in place of `s`, obey the validity rules of the word's
own chapter? -/
def regValid (s t : State) (off : Nat) : Bool :=
  if 0x200000 ≤ off ∧ off < 0x208000 then queueOk t ((off - 0x200000) / 32)
  else if off = R.SQ_CTL.REMOTE_WAYS.off then fld t R.SQ_CTL.REMOTE_WAYS ≤ 16
  else if off = R.JRX_CTL.EN.off then fld t R.JRX_CTL.MODE ≤ 11 && fld t R.JRX_CTL.RX_PART < 12
  else if off = R.JTX_CTL.EN.off then
    (3 ≤ fld t R.JTX_CTL.MODE && fld t R.JTX_CTL.MODE ≤ 11) ||
      (!flag t R.JTX_CTL.EN && fld t R.JTX_CTL.MODE = fld s R.JTX_CTL.MODE)
  else if off = R.WCTL.EN.off then 4 ≤ fld t R.WCTL.H && fld t R.WCTL.H ≤ 10
  else if off = R.WRING_LOG2.val.off then 16 ≤ fld t R.WRING_LOG2.val && fld t R.WRING_LOG2.val ≤ 24
  else if 0x520040 ≤ off ∧ off < 0x5200C0 ∧ off % 8 = 0 then fld t (R.WCH.BW ((off - 0x520040) / 8)) ≤ 2
  else if off = R.PPS_OUT_PERIOD.PERIOD.off then true
  else if 0x5A0100 ≤ off ∧ off < 0x5A0120 then reg t off % 16 < 12
  else if off = 0x5B0000 ∨ off = 0x5B1000 ∨ off = 0x5B2000 then
    let p := (off - 0x5B0000) / 0x1000
    fld t (R.ETH_CTL.FEC p) ≤ 2 && fld t (R.ETH_CTL.MAXLEN p) ≤ 9216
  else match ringAt off with
    | some (p, r, o) =>
      let size := 32 * 2 ^ fld t (R.RING_CFG.SIZE_LOG2 p r)
      let base := 2 ^ 32 * reg t (off - o + 4) + reg t (off - o)
      let own := fld t (R.RING_CFG.OWNER p r)
      o = 16 || (4 ≤ fld t (R.RING_CFG.SIZE_LOG2 p r) && fld t (R.RING_CFG.SIZE_LOG2 p r) ≤ 12 && base % size = 0 &&
        base + size ≤ lp5xEnd && own ≠ 13 && own ≠ 14 && 1 ≤ fld t (R.RING_CFG.NOTIFY_EVERY p r))
    | none =>
      if off = R.PWR_CAP.val.off then 12000 ≤ fld t R.PWR_CAP.val && fld t R.PWR_CAP.val ≤ 55000
      else if off = R.VCORE.MARGIN.off then fld t R.VCORE.MARGIN ≤ 30
      else if off = R.PWR_RADIO.DIV_MAX.off then fld t R.PWR_RADIO.DIV_MAX ≤ 4
      else if 0x5F0040 ≤ off ∧ off < 0x5F0070 then
        let q := (off - 0x5F0040) / 4
        fld t (R.QCLK.DIV q) ≤ 4 && 10 ≤ fld t (R.QCLK.DROOP_THR q) && fld t (R.QCLK.DROOP_THR q) ≤ 60
      else if off = R.CKPT_BASE.val.off then
        fld t R.CKPT_BASE.val = 0 || 2 ^ 20 * fld t R.CKPT_BASE.val + 0x8980000 ≤ lp5xEnd
      else true

/-- The status of a REG_WRITE against the configuration `p` that will hold, before the seal. -/
def regWriteStatus (p : State) (m : List Byte) : Nat :=
  let l := regWrites m
  if pl m 0 4 = 0 ∨ 3 < pl m 0 4 then St.badArg
  else if l.any (fun w => w.1 % 4 = 0 && commandOnly w.1 && (0x1000000 ≤ w.1 || rowsName (devRows w.1) w.1)) then St.denied
  else if l.any (fun w => w.1 % 4 ≠ 0 || 0x600000 ≤ w.1 || !rowsName (devRows w.1) w.1) then St.badArg
  else if l.any (fun w => w.1 = R.PPS_OUT_PERIOD.PERIOD.off &&
      (let v := accWord (devRows w.1) w.1 (reg p w.1) w.2.1 w.2.2 false; v < 1000000 || 2 ^ 31 ≤ v)) then St.badArg
  else
    let t := l.foldl (fun t w => setReg t w.1 (accWord (devRows w.1) w.1 (reg t w.1) w.2.1 w.2.2 false)) p
    if l.all (fun w => regValid p t w.1) then 0 else St.badArg

/-- The configuration checks of a REG_WRITE: the seal (R495), and EG_HOLDUP above its measured value (R524). -/
def regWriteConfig (p : State) (m : List Byte) : Nat :=
  if flag p R.WDN_STAT.SEALED ∧ (regWrites m).any (fun w => namesRwl w.1 w.2.1) then St.sealed
  else if (regWrites m).any (fun w => w.1 = R.EG_HOLDUP.val.off &&
      fld p R.EG_HOLDUP.val < accWord (devRows w.1) w.1 (reg p w.1) w.2.1 w.2.2 false % 65536) then St.refused
  else 0

/-- May REG_READ name this offset: any register, page or core inspection word of the device register region? -/
def readableOff (off : Nat) : Bool :=
  off % 4 = 0 && off < 0x1000000 && (rowsName (devRows off) off || (pageAt off).isSome || (0x600000 ≤ off && off < 0x660000))

/-! ### Jobs (R484) -/

/-- The object of a class L command: a table, a Weave instance, the domain block, a flash device, the radio, a self-test target, or a
link under a sweep. -/
def jobObj (m : List Byte) : Nat × Nat :=
  match msgCmd m with
  | 0x0402 => (1, pl m 0 1)
  | 0x0403 => (1, pl m 0 4)
  | 0x0503 => (2, pl m 0 4)
  | 0x0601 => (3, 0)
  | 0x0701 => (4, pl m 0 4)
  | 0x0501 => (5, 0)
  | 0x0902 => (6, pl m 0 4)
  | _ => (7, 256 * pl m 0 1 + pl m 1 1)

/-- Is an object the object of a running job? -/
def jobOn (s : State) (o : Nat × Nat) : Bool := s.wdn.jobs.any (fun j => jobObj j.msg = o)

/-- The elements of a target that self-tests now hold (R563). -/
def underTest (s : State) (target : Nat) : Nat :=
  ((s.wdn.jobs.filter (fun j => msgCmd j.msg = 0x0902 && pl j.msg 0 4 = target)).map (fun j => pl j.msg 4 4)).foldl (fun a b => a ||| b) 0

/-- Quarters whose cores a self-test holds. -/
def quartersUnderTest (s : State) : Nat := underTest s 0 ||| underTest s 1 ||| underTest s 2

/-! ### Partitions (R254) -/

/-- Does a PART_SET conflict with the configuration `p` that will hold? A Quarter that already waits to leave a partition counts as
gone from it. -/
def partConflict (p : State) (m : List Byte) : Bool :=
  let n := pl m 0 4
  let cfg := pl m 4 4
  let en := bitOf cfg 13
  let lend := pl m 8 4 % 4096
  let mine (q : Nat) : Bool := en && bitOf cfg q
  let others := (List.range 12).filter (fun x => x ≠ n && flag p (R.PART_CFG.EN x))
  let has (x q : Nat) : Bool := bitOf (fld p (R.PART_CFG.QMASK x)) q && !p.wdn.removals.any (fun r => r.1 = x && r.2.1 = q)
  let t := partSet p n cfg (pl m 8 4) (pl m 12 4)
  (en && cfg % 4096 = 0) ||
    (List.range 12).any (fun q => mine q && (others.any (fun x => has x q) || bitOf (quartersUnderTest p) q)) ||
    ((bitOf cfg 14 || bitOf cfg 16) && !bitOf cfg 12) ||
    bitOf lend n || (List.range 12).any (fun x => bitOf lend x && x ≠ n && !flag p (R.PART_CFG.LEND x)) ||
    (!bitOf cfg 14 && others.any (fun x => bitOf (reg p (R.PART_LEND.val x).off) n)) ||
    (pwrState p = 2 && !nightOk t)

/-! ### PRBS (R560, R561) -/

/-- Lanes that a link's mask may name. -/
def prbsLanes (link : Nat) : Nat := if link = 1 then 1 else if link = 4 then 15 else 255

/-- Ports of a link. -/
def prbsPorts (link : Nat) : Nat := if link = 1 then 3 else if link = 4 then 8 else 1

/-- The session of a link and port. -/
def prbsAt (s : State) (link port : Nat) : Option Prbs := s.wdn.prbs.find? (fun x => x.link = link && x.port = port)

/-- Members that this chip reaches without its port `p`. -/
def reachWithout (s : State) (p : Nat) : Nat :=
  let first := (List.range 16).foldl (fun m c => if (portsTo s c).any (· ≠ p) then m ||| 2 ^ c else m) 0
  forN 16 (fun _ m => (maskList m).foldl (fun m c => m ||| reachOf s c) m) first

/-- Is a port the only one in UP on every path to some member? -/
def onlyPath (s : State) (p : Nat) : Bool :=
  portState s p = 2 && (maskList (fld s R.ADR_MEMBERS.CURRENT)).any (fun c =>
    c ≠ chipId s && (hops s (chipId s) c).isSome && !bitOf (reachWithout s p) c)

/-! ### Fields and references (step 7) -/

/-- Are the fields of a command in range? Register words take their reserved bits as R8 says. -/
def fieldsOk (s : State) (key : Nat) (m : List Byte) : Bool :=
  match msgCmd m with
  | 0x0002 => pl m 0 4 < 2048
  | 0x0004 => pl m 0 1 < 128 && pl m 1 1 < 128 && pl m 2 1 ≤ 1 && (key < 4 || (pl m 1 1 = 0 && pl m 2 1 = 0))
  | 0x0102 => 1 ≤ pl m 0 4 && pl m 0 4 ≤ 11 && (List.range (pl m 0 4)).all (fun i => readableOff (pl m (4 + 4 * i) 4))
  | 0x0201 => pl m 0 4 < 12 && 22 ≤ pl m 14 1
  | 0x0202 => pl m 0 4 < 12
  | 0x0203 => pl m 0 4 = 1 || pl m 0 4 = 2
  | 0x0301 => pl m 8 2 ≤ 1000 && (pl m 10 2 = 0 || (10 ≤ pl m 10 2 && pl m 10 2 ≤ 3600))
  | 0x0302 => pl m 0 4 ≤ 4 && (pl m 0 4 ≠ 1 || (12000 ≤ pl m 4 4 && pl m 4 4 ≤ 55000))
  | 0x0401 => pl m 0 4 < 64 && 1 ≤ pl m 8 4 && pl m 8 4 ≤ 2 ^ 24
  | 0x0402 =>
    pl m 0 1 < 64 && pl m 1 1 ≤ 1 &&
      pl m 4 4 + pl m 8 4 ≤ tdRows (if pl m 1 1 = 1 then underLayout s (pl m 0 1) else s) (pl m 0 1)
  | 0x0403 => pl m 0 4 < 64 && 1 ≤ pl m 4 4 && pl m 4 4 ≤ 65536
  | 0x0404 => pl m 0 1 < 64 && pl m 1 1 ≤ 2 && (pl m 1 1 ≠ 1 || (1 ≤ pl m 8 4 && pl m 8 4 ≤ 2 ^ 24))
  | 0x0405 => pl m 0 1 < 64
  | 0x0406 => pl m 0 1 < 64 && pl m 1 1 < 8
  | 0x0408 => s.marks.candidates.any (fun x => x.2 && x.1 = pl m 0 8 / 4096)
  | 0x0501 =>
    bitsOf (pl m 0 4) 4 1 ≤ 11 && bitsOf (pl m 0 4) 11 8 < 12 && 3 ≤ bitsOf (pl m 4 4) 4 1 && bitsOf (pl m 4 4) 4 1 ≤ 11 && pl m 16 1 ≤ 2
  | 0x0503 => pl m 0 4 < 2
  | 0x0504 => pl m 0 1 < 2 && pl m 1 1 < 2
  | 0x0701 => pl m 0 4 < 2
  | 0x0702 => pl m 0 1 < 2
  | 0x0901 =>
    pl m 0 1 ≤ 4 && pl m 1 1 < prbsPorts (pl m 0 1) && pl m 2 1 ≤ prbsLanes (pl m 0 1) && pl m 3 1 ≤ 4 && pl m 4 1 ≤ 6
  | 0x0902 => pl m 0 4 ≤ 5 && pl m 4 4 < [4096, 4096, 4096, 4, 4, 16].getD (pl m 0 4) 0
  | 0x0903 => pl m 0 1 ≤ 4 && pl m 0 1 ≠ 3 && pl m 1 1 < prbsPorts (pl m 0 1) && bitOf (prbsLanes (pl m 0 1)) (pl m 2 1)
  | 0x0A01 => pl m 4 4 ≤ 32
  | 0x0A02 => pl m 0 1 < 8 && pl m 1 1 ≤ 2 && pl m 3 1 ≤ 2 && !(pl m 1 1 = 2 && bitOf (pl m 0 1) 2)
  | 0x0A03 => pl m 0 4 ≠ 0x80000000
  | _ => true

/-- The entries that LOG_READ copies: the first and the last of them plus one. -/
def logRange (s : State) (m : List Byte) : Nat × Nat :=
  let a := max (pl m 0 4) (s.wdn.logNext - s.wdn.log.length)
  (a, min s.wdn.logNext (a + pl m 4 4))

/-- The bytes that a command needs of its reference, where they do not depend on what stands there. -/
def refNeed (s : State) (m : List Byte) : Nat :=
  match msgCmd m with
  | 0x0002 => snapshotLen (pl m 0 4)
  | 0x0003 => 32 * ((logRange s m).2 - (logRange s m).1)
  | 0x0401 => 128
  | 0x0402 => pl m 8 4 * tdRowBytes (if pl m 1 1 = 1 then underLayout s (pl m 0 1) else s) (pl m 0 1)
  | 0x0403 => pl m 4 4 * (4 + tdRowBytes s (pl m 0 4))
  | 0x0404 => 128
  | 0x0407 => 16 * min ((refAt m 16).len / 16) (s.marks.pages.length + s.marks.rows.length - pl m 0 4)
  | 0x0503 => 0x28
  | 0x0601 => 0x4000
  | 0x0701 => 24
  | 0x0703 => (refAt m 16).len
  | 0x0903 => 1024
  | 0x0A01 => 32
  | _ => 0

/-- Does a command read its reference, where LOG_READ and its like only write it? -/
def refReads (m : List Byte) : Bool := [0x0401, 0x0402, 0x0403, 0x0404, 0x0503, 0x0601, 0x0701, 0x0703, 0x0A01].contains (msgCmd m)

/-- What checking a request gives: pass with the data of its reference and whether that was poisoned, a status, or a wait for a line. -/
inductive Verdict where
  | pass (data : List Byte) (bad : Bool)
  | fail (status : Nat)
  | wait
deriving DecidableEq, Repr

/-- The length of an image that its header gives, with what the header breaks (R358, R539). -/
def imageLen (m data : List Byte) : Nat × Nat :=
  if msgCmd m = 0x0503 then
    let len := fieldLE data 0x14 4
    let ncfg := fieldLE data 0x18 2
    let sig := fieldLE data 0x24 4
    (len, if fieldLE data 0 4 = 0x31575657 ∧ fieldLE data 4 2 = 1 ∧ 1 ≤ fieldLE data 6 2 ∧ fieldLE data 6 2 ≤ 5 ∧ ncfg ≤ 16 ∧
        fieldLE data 0x20 4 = 0x100 ∧ fieldLE data 0x1C 4 + 160 * ncfg ≤ len ∧ 0x10100 ≤ sig ∧ sig + 104 ≤ len ∧ len < 2 ^ 20 then 0
      else St.badArg)
  else
    let len := fieldLE data 0x10 4
    (len, if fieldLE data 0 4 = 0x31574657 ∧ fieldLE data 4 4 = 1 ∧ 128 ≤ len ∧ len ≤ 448 * 1024 then 0 else St.badArg)

/-- Read what a request's reference names, once its rules hold (R480). An image is read by the length in its header. -/
def fetchRef (s : State) (key : Nat) (m host : List Byte) : Verdict × State :=
  match cmdRef m with
  | none => (.pass [] false, s)
  | some r =>
    if !refOk s key r (refNeed s m) then (.fail St.badRef, s)
    else if !refReads m then (.pass [] false, s)
    else match refRead s r (refNeed s m) host with
      | .unmapped s => (.fail St.badRef, s)
      | .wait s => (.wait, s)
      | .ok d s =>
        if msgCmd m ≠ 0x0503 ∧ msgCmd m ≠ 0x0701 then (.pass d.1 d.2, s)
        else if d.2 then (.pass d.1 true, s)
        else
          let x := imageLen m d.1
          if x.2 ≠ 0 then (.fail x.2, s)
          else if r.len < x.1 then (.fail St.badRef, s)
          else match refRead s r x.1 host with
            | .unmapped s => (.fail St.badRef, s)
            | .wait s => (.wait, s)
            | .ok d s => (.pass d.1 d.2, s)

/-! ### Configuration and security (step 9) -/

/-- The signature and rollback checks of an image (R359, R539). -/
def imageStatus (s : State) (m data : List Byte) : Nat :=
  if msgCmd m = 0x0503 then
    let sig := fieldLE data 0x24 4
    if !signed104 s data sig then St.authFail
    else if belowFloor s.wdn.otp (fieldLE data 0xC 4) then St.rollback
    else if (List.range 4096).all (fun c => frameOk (cellFrame (data.drop 0x100) c)) then 0
    else St.badArg
  else
    match imageCheck s data with
    | 3 => St.authFail
    | 4 => St.rollback
    | 0 => 0
    | _ => St.badArg

/-- The planes of an instance that are not in use. -/
def freePlanes (s : State) (w : Nat) : List Nat := [0, 1].filter (fun p => !planeInUse s w p)

/-- Does a self-test target meet its precondition (Table 18-8)? -/
def bistReady (s : State) (target mask : Nat) : Bool :=
  match target with
  | 3 => (List.range 2).all (fun w => !bitOf mask w || (!flag s (R.WV_CTL.EN w) && (weave s w).bound = [] && !jobOn s (2, w)))
  | 4 => (List.range 2).all (fun d => !bitOf mask d || (!flashBusy s d && !jobOn s (4, d)))
  | 5 => true
  | _ => (List.range 12).all (fun q => !bitOf mask q || (quarterHome s q).isNone)

/-- The configuration and security checks against `p`, the configuration that will hold; `s` is the present state. -/
def configStatus (s p : State) (m data : List Byte) (bad : Bool) : Nat :=
  let radioOn (x : State) : Bool := flag x R.KCTL.RX_EN || flag x R.KCTL.TX_EN
  let no (b : Bool) : Nat := if b then St.refused else 0
  match msgCmd m with
  | 0x0101 => regWriteConfig p m
  | 0x0201 => no (partConflict p m)
  | 0x0302 => no (pl m 0 4 = 2 && !nightMay p)
  | 0x0401 => no (flag p (R.TD_CTL.EN (pl m 0 4)) || jobOn s (1, pl m 0 4))
  | 0x0402 =>
    let t := pl m 0 1
    no (if pl m 1 1 = 0 then flag s (R.TD_CTL.EN t)
      else !flag s (R.TD_CTL.EN t) || fld s (R.TD_STATE.STATE t) ≠ 1)
  | 0x0403 =>
    let t := pl m 0 4
    no (!flag s (R.TD_CTL.EN t) || fld s (R.TD_STATE.STATE t) ≠ 0)
  | 0x0404 =>
    let t := pl m 0 1
    no (jobOn s (1, t) || !flag p (R.TD_CTL.EN t) || fld p (R.TD_STATE.STATE t) ≠ (if pl m 1 1 = 0 then 0 else 1))
  | 0x0405 => no (jobOn s (1, pl m 0 1))
  | 0x0501 => no (radioOn s || radioOn p)
  | 0x0502 => no (jobOn s (5, 0))
  | 0x0503 =>
    let w := pl m 0 4
    if bitOf (underTest s 3) w ∨ freePlanes s w = [] ∨ !weavePowered s w then St.refused
    else if bad then 0 else imageStatus s m data
  | 0x0504 =>
    let w := pl m 0 1
    no (jobOn s (2, w) || bitOf (underTest s 3) w || !weavePowered p w || !bitOf (fld p (R.WV_PSTAT.VALID w)) (pl m 1 1))
  | 0x0601 => no (!bad && !blockOk s data)
  | 0x0701 =>
    if (pl m 0 4 ≠ spareDev s ∧ !s.wdn.boot.recovery) ∨ bitOf (underTest s 4) (pl m 0 4) ∨ jobOn s (4, 1 - pl m 0 4) then St.refused
    else if bad then 0 else imageStatus s m data
  | 0x0703 => if (Config.tokenScope data s.domain.die s.wdn.otp.keys (deadKeys s.wdn.otp)).isSome then 0 else St.authFail
  | 0x0901 =>
    let start := pl m 4 1 = 1 || pl m 4 1 = 2 || pl m 4 1 = 3
    no (start && ((pl m 0 1 = 4 && onlyPath s (pl m 1 1)) || ((pl m 0 1 = 2 || pl m 0 1 = 3) && radioOn s)))
  | 0x0902 => no (!bistReady s (pl m 0 4) (pl m 4 4))
  | 0x0A03 => no (radioOn s)
  | _ => 0

/-- Does the power state let a command run (R498, R515)? POWER_BUDGET is for FULL and CAPPED; in WATCH no command may use LP5X, a
partition or the radio. -/
def stateAllows (s p : State) (m : List Byte) : Bool :=
  if msgCmd m = 0x0301 then pwrState p ≤ 1
  else if pwrState s = 3 then
    !([0x0201, 0x0202, 0x0401, 0x0402, 0x0403, 0x0404, 0x0405, 0x0406, 0x0408, 0x0501, 0x0502, 0x0503, 0x0504]).contains (msgCmd m) &&
      (cmdRef m).all (fun r => r.kind ≠ 0)
  else true

/-- A PRBS session of this link already holds the role that a START asks for (R576). -/
def prbsBusy (s : State) (m : List Byte) : Bool :=
  match prbsAt s (pl m 0 1) (pl m 1 1) with
  | none => false
  | some x => (bitOf (pl m 4 1) 0 && pl m 4 1 < 4 && x.gen) || (bitOf (pl m 4 1) 1 && pl m 4 1 < 4 && x.chk)

/-- Steps 4 to 9 of Table 15-4: the first status that applies. -/
def judge (s : State) (key : Nat) (m host : List Byte) : Verdict × State :=
  match cmdSpec (msgCmd m) with
  | none => (.fail St.unsupported, s)
  | some sp =>
    if msgVer m ≠ 1 then (.fail St.unsupported, s)
    else if msgCmd m ≠ 1 ∧ !(mail s key).identified then (.fail St.notReady, s)
    else
      let p := pendingOf s
      if !stateAllows s p m then (.fail St.notReady, s)
      else if !bitOf sp.groups (groupOf key) then (.fail St.denied, s)
      else if msgLen m ≠ sp.len then (.fail St.badLength, s)
      else if !reservedZero sp m ∨ !fieldsOk s key m then (.fail St.badArg, s)
      else if msgCmd m = 0x0101 ∧ regWriteStatus p m ≠ 0 then (.fail (regWriteStatus p m), s)
      else if msgCmd m = 0x0901 ∧ pl m 0 1 = 0 ∧ groupOf key ≠ 3 then (.fail St.denied, s)
      else
        let r := fetchRef s key m host
        match r.1 with
        | .pass data bad =>
          if sp.cls = 2 ∧ (4 ≤ s.wdn.jobs.length ∨ jobOn s (jobObj m)) then (.fail St.busy, r.2)
          else if msgCmd m = 0x0901 ∧ prbsBusy s m then (.fail St.busy, r.2)
          else if sp.cls ≠ 2 ∧ bad then (.fail St.ioError, r.2)
          else if msgCmd m = 0x0403 ∧ !bad ∧
              !(List.range (pl m 4 4)).all (fun i => fieldLE data (i * (4 + tdRowBytes s (pl m 0 4))) 4 < tdRows s (pl m 0 4)) then
            (.fail St.badArg, r.2)
          else
            let c := configStatus s p m data bad
            if c ≠ 0 then (.fail c, r.2) else (.pass data bad, r.2)
        | v => (v, r.2)

end Sys2Proof.Machine
end

