-- ==== Sys2Proof/Machine/CohRows.lean ====
section
/-!
DEFINITION. The meanings of the coherence rows (R198 to R206): the messages a home and a caching agent receive.
-/
namespace Sys2Proof.Machine

/-! ### What arrives -/

/-- A request reaches the home. One for a line that is closed to other chips is answered with ERR and reported (R425). -/
def homeRequest (s : State) (a : HomeReq) (b : Option HomeReq) : State :=
  if 128 * a.line < lp5xEnd ∧ !s.marks.pages.contains (a.line / 32) then homeCycle s a b
  else
    let s := (a :: b.toList).foldl (fun s r => sendPkt s r.chip 0x28 r.agent (128 * globalLine s r.line) [] []) s
    report s 0x0107 a.agent [128 * globalLine s a.line, 1, num (s.marks.pages.contains (a.line / 32))]

/-- A writeback reaches the home; it is processed before the requests of its home cycle and acknowledged. -/
def homeWb (s : State) (line chip : Nat) (data : List Byte) (poison : Bool) : State :=
  drainPosted (sendPkt (homeWriteback s line chip (some data) poison) chip 0x25 96 (128 * globalLine s line) [] [])

/-- Line data reaches the requester. Data of an own line, forwarded by the chip that held it, goes to LP5X: the home
holds own lines. -/
def dataArrives (s : State) (line : Nat) (st : LineSt) (data : List Byte) (poison : Bool) : State :=
  drainPosted (if homeOf line = chipId s then writeMem s (128 * (line % 2 ^ 37)) data poison
    else lineArrives s line st data poison)

/-- A writeback of a line is acknowledged. -/
def wbAcked (s : State) (line : Nat) : State :=
  onCoh s (fun h => { h with
    wbOut := tabErase h.wbOut line, await := h.await.filter (fun r => !(r.line = line ∧ r.kind = .wrl)) })

/-- The home learns that a snooped line's writeback is in flight: the chip stays among those that the request awaits until its WB is processed
(R206). One whose WB has been processed before is awaited no more, and stays so. -/
def wbPending (s : State) (_line _chip : Nat) : State := s

/-- A request that a full home queue refused is sent again (R204). -/
def reissue (s : State) (line agent : Nat) : State :=
  (s.coh.await.filter (fun r => r.line = line ∧ r.agent = agent)).foldl (fun s r =>
    sendPkt s (homeOf line) (reqPtype r.kind) agent (128 * line) [] r.data) s

/-! ### Meanings -/

/-- A request row at the home: the request, with the second one of its home cycle (R202). -/
def homeRow (kind : ReqKind) (line chip agent : Nat) (data : List Byte) (other : Option HomeMate) (s : State) :
    Host.Outcome State Fault Refusal :=
  finish (homeRequest s ⟨kind, line, chip, agent, data⟩ (other.map (fun o => ⟨o.kind, line, o.chip, o.agent, o.data⟩)))

/-- RD_S (R202): the home receives a read-shared request. -/
def execRdS (line chip agent : Nat) (other : Option HomeMate) (s : State) : Host.Outcome State Fault Refusal :=
  homeRow .rdS line chip agent [] other s

/-- RD_X (R203): the home receives a read-for-ownership request. -/
def execRdX (line chip agent : Nat) (other : Option HomeMate) (s : State) : Host.Outcome State Fault Refusal :=
  homeRow .rdX line chip agent [] other s

/-- UPG (R202): the home receives an upgrade from S to M. -/
def execUpg (line chip agent : Nat) (other : Option HomeMate) (s : State) : Host.Outcome State Fault Refusal :=
  homeRow .upg line chip agent [] other s

/-- WRL (R202): the home receives a whole-line write with data. -/
def execWrl (line chip agent : Nat) (data : List Byte) (other : Option HomeMate) (s : State) :
    Host.Outcome State Fault Refusal :=
  homeRow .wrl line chip agent data other s

/-- WB (R203): the home receives a writeback; it is processed before the requests of its home cycle. -/
def execWb (line chip : Nat) (data : List Byte) (poison : Bool) (s : State) : Host.Outcome State Fault Refusal :=
  finish (homeWb s line chip data poison)

/-- EVICT_E (R198): the home receives notice of an evicted E line. -/
def execEvictE (line chip : Nat) (s : State) : Host.Outcome State Fault Refusal :=
  finish (drainPosted (homeWriteback s line chip none false))

/-- SNP_INV (R206): the caching agent receives an invalidating snoop. -/
def execSnpInv (line home : Nat) (s : State) : Host.Outcome State Fault Refusal :=
  finish (snoopArrives s (.inv line home))

/-- SNP_FWD_S (R200): the caching agent sends S to a requester and keeps S. -/
def execSnpFwdS (line home dest : Nat) (s : State) : Host.Outcome State Fault Refusal :=
  finish (snoopArrives s (.fwdS line home dest))

/-- SNP_FWD_X (R203): the caching agent sends M to a requester after its access retires, and invalidates. -/
def execSnpFwdX (line home dest : Nat) (s : State) : Host.Outcome State Fault Refusal :=
  finish (snoopArrives s (.fwdX line home dest))

/-- A data row. -/
def dataRow (line : Nat) (st : LineSt) (data : List Byte) (poison : Bool) (s : State) :
    Host.Outcome State Fault Refusal := finish (dataArrives s line st data poison)

/-- DATA_S (R200): the requester receives a line in S. -/
def execDataS (line : Nat) (data : List Byte) (poison : Bool) (s : State) : Host.Outcome State Fault Refusal :=
  dataRow line .s data poison s

/-- DATA_E (R200): the requester receives a line in E. -/
def execDataE (line : Nat) (data : List Byte) (poison : Bool) (s : State) : Host.Outcome State Fault Refusal :=
  dataRow line .e data poison s

/-- DATA_M (R203): the requester receives a line in M. -/
def execDataM (line : Nat) (data : List Byte) (poison : Bool) (s : State) : Host.Outcome State Fault Refusal :=
  dataRow line .m data poison s

/-- INV_ACK (R200): the home receives an invalidation acknowledgement, with the data of an M copy. -/
def execInvAck (line chip : Nat) (data : Option (List Byte)) (poison : Bool) (s : State) : Host.Outcome State Fault Refusal :=
  finish (drainPosted (homeAck s line chip false data poison))

/-- FWD_ACK (R203): the home receives the acknowledgement of a forward and serves the next queued request. -/
def execFwdAck (line chip : Nat) (data : Option (List Byte)) (poison : Bool) (s : State) : Host.Outcome State Fault Refusal :=
  finish (drainPosted (homeAck s line chip true data poison))

/-- WB_ACK (R200): the writeback of a line is acknowledged. -/
def execWbAck (line : Nat) (s : State) : Host.Outcome State Fault Refusal :=
  finish (wbAcked s line)

/-- WB_PENDING (R206): the home learns that the snooped line's writeback is in flight, and waits for it. -/
def execWbPending (line chip : Nat) (s : State) : Host.Outcome State Fault Refusal :=
  finish (wbPending s line chip)

/-- RETRY (R204): the requester reissues a request that a full home queue refused. -/
def execRetry (line agent : Nat) (s : State) : Host.Outcome State Fault Refusal :=
  finish (reissue s line agent)

end Sys2Proof.Machine
end

