-- ==== Sys2Proof/Machine/Deliver.lean ====
section
/-!
DEFINITION. Packets at this chip (R419, R421, R423 to R425, R479), and the domain messages of R429, R430 and R432 as rows.
-/
namespace Sys2Proof.Machine

/-! ### Domain control -/

/-- The leader's Warden hears of a change of TIME_SUSPECT at another chip (R399). -/
def suspectIn (s : State) (chip sus off : Nat) : State := report s 0x0504 0x7F [chip, sus, off]

/-- This chip has been quarantined (R432): its ports to members leave UP, and it is no member. -/
def quarantinedIn (s : State) (chip : Nat) : State :=
  if chip ≠ fld s R.ADR_LEADER.LEADER ∨ selfState s = 0 then s
  else
    let s := setFld (setFld (setFld s R.ADR_CHIP.SELF_STATE 3) R.ADR_CHIP.ID 0) R.ADR_MEMBERS.CURRENT 0
    (List.range 8).foldl (fun s p => if portState s p = 2 then maskRoutes (setPortState s p 4) p else s) s

/-- The digest that will hold after the next boundary, where domain actions wait for it (R438). -/
def digestNext (s : State) : Nat := digestDue s

/-- Warden takes a domain control message out of its receive FIFO. -/
def dctlIn (s : State) (k : Packet) : State :=
  let x (i n : Nat) : Nat := fieldLE k.inl i n
  match x 0 1 with
  | 1 => reachIn s (x 1 1) (x 2 2)
  | 2 => joinIn s k.src (x 7 8) (x 1 2) (x 3 4) (fieldLE k.data 0 16) (digestNext s)
  | 3 => if k.src = fld s R.ADR_LEADER.LEADER then admitIn s else s
  | 4 => memberIn s (x 1 1) (x 2 2) (x 4 4)
  | 5 => confirmIn s k.src (x 1 1)
  | 6 => commitIn s (x 1 2) (x 3 1) (x 4 4) (x 8 2) (x 10 4)
  | 7 => peerLeft s k.src
  | 8 => declareLost s (x 1 1)
  | 9 => suspectIn s k.src (x 1 1) (x 2 4)
  | 10 => heartbeatIn s k.src (x 1 2) (fieldLE k.data 0 16) (digestNext s)
  | 11 => heartbeatAnswered s k.src
  | 13 => quarantinedIn s k.src
  | _ => s

/-! ### Delivery (R424) -/

/-- Warden takes a response or notice that a peer's Warden has sent it: its content is the firmware's (R479). -/
def peerAnswer (s : State) (chip : Nat) (m : List Byte) : State := emit s .response [100, chip] m

/-- A packet in its order is acted on as the row of its type says. `full` says that Warden's receive FIFO is full (R419). -/
def deliver (full : Bool) (s : State) (k : Packet) : State :=
  let line := k.ga / 128
  let ln := line % 2 ^ 37
  let d := k.data.take 128
  let poison := fieldLE k.inl 0 1 = 1
  let some? : Option (List Byte) := if d = [] then none else some d
  let obj := (k.ga % 2 ^ 44 - 0x90000000000) / 64 % 16384
  let x (i n : Nat) : Nat := fieldLE k.inl i n
  match k.ptype with
  | 0x01 => homeRequest s ⟨.rdS, ln, k.src, k.agent, []⟩ none
  | 0x02 => homeRequest s ⟨.rdX, ln, k.src, k.agent, []⟩ none
  | 0x03 => homeRequest s ⟨.upg, ln, k.src, k.agent, []⟩ none
  | 0x04 => homeRequest s ⟨.wrl, ln, k.src, k.agent, d⟩ none
  | 0x05 => homeWb s ln k.src d poison
  | 0x06 => drainPosted (homeWriteback s ln k.src none false)
  | 0x07 => ucReadIn s k.src k.agent k.ga (x 0 1)
  | 0x08 => ucWriteIn s k.src k.agent k.ga (sliceBytes k.data 0 (x 0 1))
  | 0x10 => snoopArrives s (.inv line k.src)
  | 0x11 => snoopArrives s (.fwdS line k.src (x 0 1))
  | 0x12 => snoopArrives s (.fwdX line k.src (x 0 1))
  | 0x20 => dataArrives s line .s d poison
  | 0x21 => dataArrives s line .e d poison
  | 0x22 => dataArrives s line .m d poison
  | 0x23 => drainPosted (homeAck s ln k.src false some? poison)
  | 0x24 => drainPosted (homeAck s ln k.src true some? poison)
  | 0x25 => wbAcked s line
  | 0x26 => wbPending s ln k.src
  | 0x27 => reissue s line k.agent
  | 0x28 => errArrives s k.ga k.agent
  | 0x29 => ucAnswer s k.ga k.agent k.data
  | 0x2A => ucAnswer s k.ga k.agent []
  | 0x2B => e2eAcked s k.src (x 0 1) (x 1 2)
  | 0x30 => qmsgArrives s k.src k.agent ((k.ga % 2 ^ 44 - 0x90010000000) / 0x4000 % 1024) (k.ga % 4) (k.inl ++ k.data.take 48)
  | 0x31 => signalLocal s obj (x 0 4) k.src k.agent
  | 0x32 => syncWaitIn s k.src (x 0 2) obj (x 2 2)
  | 0x33 => syncGrantIn s k.src obj (x 0 2) (x 2 1) (x 3 4) (x 7 1)
  | 0x34 => syncWithdrawIn s k.src (x 0 2) obj
  | 0x35 => mailPost s (32 + k.src) (k.inl ++ k.data.take 48)
  | 0x36 => peerAnswer s k.src (k.inl ++ k.data.take 48)
  | 0x37 => checkAnswer s k.src (x 4 2) (x 0 4)
  | 0x38 => checkDone s (x 4 2) (x 6 4) (x 10 4) (x 0 4) false
  | 0x39 => lookupServe (lookupLater s) ⟨k.src, x 10 4, x 0 1, x 1 3, x 4 4, x 8 2, x 14 1⟩
  | 0x3A => lookupData s (x 0 4) (x 4 2) (x 6 1) (x 7 2) k.data
  | 0x3C => if full then bump s R.ADR_BAD_PKT.DCTL_DROP else dctlIn s k
  | _ => s

/-! ### Forwarding (R423) -/

/-- The port to a direct neighbour, for domain control before any route is installed (R429). -/
def neighbourPort (s : State) (chip : Nat) : Option Nat :=
  (List.range 8).find? (fun p => (portState s p = 2 || portState s p = 4) && flag s (R.ADR_PSTAT.PEER_VALID p) &&
    fld s (R.ADR_PSTAT.PEER_CHIP p) = chip)

/-- Remove a packet from those that wait at this chip. -/
def unwait (s : State) (k : Packet) : State :=
  { s with fabric := { s.fabric with waiting := dropPacket s.fabric.waiting k } }

/-- A packet whose destination has no route is dropped and counted; an own request so dropped receives ERR (R437). -/
def noRoute (s : State) (k : Packet) : State :=
  let s := returnCredits (bump s R.ADR_BAD_PKT.BAD) k
  if ptypeVc k.ptype = 0 ∧ k.port.isNone then errArrives s k.ga k.agent else s

/-- The `i`th packet that waits at this chip is delivered here, or sent on the port of R423, or waits, there also for a packet
that goes before it (R420). -/
def forward (s : State) (i : Nat) (full : Bool) : State :=
  match s.fabric.waiting[i]? with
  | none => s
  | some k =>
    if k.dst = selfName s then
      let (s, l) := e2eArrive (unwait s k) k
      l.foldl (deliver full) s
    else if !windowOpen s k then s
    else
      match routePort s k with
      | some (p, esc) => if outputBusy s p k then s else portSend (unwait s k) (addResidence s k) p esc
      | none =>
        if hasRoute s k.dst then s
        else
          match (if k.ptype = 0x3C then neighbourPort s k.dst else none) with
          | some p => portSend (unwait s k) k p false
          | none => noRoute (unwait s k) k

/-- A peer is declared lost: its requests end with it (R430, R499). -/
def peerLost (s : State) (chip : Nat) : State :=
  if chip = s.domain.own ∨ !bitOf (fld s R.ADR_MEMBERS.CURRENT) chip then s else mailLost (declareLost s chip) chip

/-! ### Meanings -/

/-- PACKET_FORWARD (R423): the `i`th packet that waits at this chip, oldest first, is delivered or sent on; `full` says that
Warden's receive FIFO has no room (R419). -/
def execPacketForward (i : Nat) (full : Bool) (s : State) : Host.Outcome State Fault Refusal := finish (forward s i full)

/-- MBOX (R479): a mailbox request of a peer chip arrives for its fabric pair. -/
def execMbox (chip : Nat) (msg : List Byte) (s : State) : Host.Outcome State Fault Refusal :=
  chipRow chip (fun s => mailPost s (32 + chip) msg) s

/-- MBOX_RSP (R479): a mailbox response of a peer chip arrives. -/
def execMboxRsp (chip : Nat) (msg : List Byte) (s : State) : Host.Outcome State Fault Refusal :=
  chipRow chip (fun s => peerAnswer s chip msg) s

/-- JOIN (R429, R432): the leader receives JOIN with the joiner's DIE_ID, PROTO, FEATURES and digest. -/
def execJoin (chip die proto feats dig : Nat) (s : State) : Host.Outcome State Fault Refusal :=
  chipRow chip (fun s => joinIn s chip die proto feats dig (digestNext s)) s

/-- HEARTBEAT (R432): the leader receives a member's heartbeat with its PROTO, membership epoch and digest. -/
def execHeartbeat (chip proto mepoch dig : Nat) (s : State) : Host.Outcome State Fault Refusal :=
  chipRow chip (fun s => if mepoch < 65536 then heartbeatIn s chip proto dig (digestNext s) else s) s

/-- LOSS_BROADCAST (R430): the leader's broadcast of a loss arrives. -/
def execLossBroadcast (chip : Nat) (s : State) : Host.Outcome State Fault Refusal :=
  chipRow chip (fun s => peerLost s chip) s

/-- PEER_LOST (R430): `after` ticks later a peer has no route or has been silent for 5 ms. -/
def execPeerLost (after chip : Nat) (s : State) : Host.Outcome State Fault Refusal :=
  chipRow chip (fun s =>
    let s := advance s after
    if peerGone s chip then peerLost s chip else s) s

end Sys2Proof.Machine
end

