-- ==== Sys2Proof/Machine/Command.lean ====
section
/-!
DEFINITION. Warden consumes requests and runs commands (R478, R481, R482, R484, R485), ends jobs (R490 to R492), and the rows of the
command catalogue.
-/
namespace Sys2Proof.Machine

/-! ### Responses of class I commands -/

/-- The payload of HEALTH (R573). -/
def healthBody (p : Predict) : List Byte :=
  bytesLE 4 p.days ++ bytesLE 4 p.lo ++ bytesLE 4 p.hi ++ bytesLE 1 p.conf ++ bytesLE 1 p.dom ++ bytesLE 2 0 ++ bytesLE 4 p.at_

/-- The payload of IDENTIFY. -/
def identifyBody (s : State) : List Byte :=
  let img := fld s R.WDN_STAT.IMAGE
  bytesLE 4 (reg s R.DEV_ID.VENDOR.off) ++ bytesLE 4 (reg s R.DEV_FEATURES.QUARTERS.off) ++ bytesLE 1 4 ++
    bytesLE 1 (Config.fwMinor img).toNat ++ bytesLE 2 (Config.fwPatch img).toNat ++ bytesLE 4 (Config.fwBuild img).toNat ++
    bytesLE 8 s.domain.die ++ bytesLE 1 img ++ bytesLE 1 s.wdn.otp.floor ++ bytesLE 2 0 ++ bytesLE 4 s.wdn.boot.boots ++
    bytesLE 2 (fld s R.ADR_PROTO.OWN)

/-- The payload of TELEMETRY: the last sample; zeros before the first. -/
def telemetryBody (s : State) : List Byte :=
  match s.wdn.power.samples.head? with
  | none => bytesLE 48 0
  | some x =>
    let h := hottest s
    bytesLE 4 x.vin ++ bytesLE 4 x.iin ++ bytesLE 4 x.chip ++ bytesLE 4 x.mod ++ bytesLE 2 (wrapTo 16 h.1) ++ bytesLE 1 h.2 ++ bytesLE 1 0 ++
      (List.range 6).flatMap (fun p => bytesLE 4 (x.parts.getD p 0)) ++ bytesLE 4 x.at_

/-- The payload of DOMAIN_STATUS. -/
def domainBody (s : State) : List Byte :=
  [R.ADR_CHIP.ID.off, R.ADR_MEMBERS.CONFIGURED.off, R.ADR_PEERS.LOST.off, R.ADR_LEADER.LEADER.off, R.ADR_FEAT.val.off].flatMap (fun o =>
    bytesLE 4 (reg s o)) ++ bytesLE 16 (digest s)

/-- The entries of the Kennel list: pages, then rows. -/
def kennelEntries (s : State) : List KennelEnt :=
  s.marks.pages.map (fun n => KennelEnt.mk n true 0) ++ s.marks.rows.map (fun n => KennelEnt.mk n false 0)

/-- An entry as KENNEL_READ copies it, in the form of the journal: address, kind (0 a page, 1 a row), reason, CRC32C (Table 17-2). The
reason is the one the journals hold. -/
def kennelBytes (s : State) (e : KennelEnt) : List Byte :=
  let known := (tabGet s.wdn.boot.journals 0 [] ++ tabGet s.wdn.boot.journals 1 []).find? (fun x => x.num = e.num && x.page = e.page)
  let b := bytesLE 8 (kennelAddr e.num e.page) ++ bytesLE 2 (num (!e.page)) ++ bytesLE 2 ((known.map (fun x => x.reason)).getD 0)
  b ++ bytesLE 4 (crc32c b)

/-- Write by a command's reference: the response's payload, or an error. -/
def copyOut (s : State) (m d body : List Byte) : Nat × List Byte × State :=
  let r := refWrite s (refAt m 16) d
  if r.2 then (0, body, r.1) else (St.ioError, [], r.1)

/-! ### PRBS (R559 to R561) -/

/-- Change the session of a link and port, which begins where there is none. -/
def onPrbs (s : State) (link port : Nat) (f : Prbs → Prbs) : State :=
  let x := (prbsAt s link port).getD ⟨link, port, 0, 0, false, false, 0, [], 0, 0⟩
  onWdn s (fun w => { w with prbs := w.prbs.filter (fun y => !(y.link = link && y.port = port)) ++ [f x] })

/-- A link leaves service. -/
def linkOut (s : State) (link port : Nat) : State :=
  match link with
  | 0 => pcieDown s []
  | 1 => setFlag s (R.ETH_STAT.LINK port) false
  | 2 => linkDown s
  | 4 => if portState s port = 0 then s else portDown s port
  | _ => s

/-- A link returns to service through its own training. The other links come up by rows of their own. -/
def linkBack (s : State) (link port : Nat) : State :=
  if link = 4 ∧ flag s (R.ADR_PCTL.EN port) ∧ portState s port = 0 then portTrain s port else s

/-- The payload of TEST_PRBS. -/
def prbsBody (x : Prbs) : List Byte :=
  (List.range 8).flatMap (fun k => bytesLE 4 (min (2 ^ 32 - 1) (tabGet x.errs k 0))) ++ bytesLE 8 x.bits ++ bytesLE 4 x.lock ++ bytesLE 4 x.losses

/-- TEST_PRBS: START takes the link out of service until STOP. -/
def testPrbs (s : State) (m : List Byte) : Nat × List Byte × State :=
  let link := pl m 0 1
  let port := pl m 1 1
  let act := pl m 4 1
  let s := match act with
    | 0 =>
      let on := prbsOn s link port
      let s := onPrbs s link port (fun x => { x with gen := false, chk := false, lock := 0 })
      if on then linkBack s link port else s
    | 4 => s
    | 5 => onPrbs s link port (fun x => { x with errs := [], bits := 0, losses := 0 })
    | 6 => s
    | _ =>
      let s := if prbsOn s link port then s else linkOut s link port
      onPrbs s link port (fun x =>
        { x with lanes := pl m 2 1, pattern := pl m 3 1, gen := x.gen || bitOf act 0, chk := x.chk || bitOf act 1 })
  (0, prbsBody ((prbsAt s link port).getD ⟨link, port, 0, 0, false, false, 0, [], 0, 0⟩), s)

/-! ### Class I commands -/

/-- The effect of a class I command with the status and payload of its response. CHIP_RESET begins once its response is posted. -/
def classI (s : State) (key : Nat) (m data : List Byte) : Nat × List Byte × State :=
  match msgCmd m with
  | 0x0001 => (0, identifyBody s, onMail s key (fun x => { x with identified := true }))
  | 0x0003 =>
    let r := logRange s m
    let old := s.wdn.logNext - s.wdn.log.length
    let l := (s.wdn.log.drop (r.1 - old)).take (r.2 - r.1)
    copyOut s m (l.flatMap LogEntry.bytes) (bytesLE 4 l.length ++ bytesLE 4 (r.1 + l.length) ++ bytesLE 4 (r.1 - pl m 0 4))
  | 0x0004 =>
    (0, [], onMail s key (fun x => { x with
      nclass := pl m 0 1, vector := if key < 4 then pl m 1 1 else x.vector, vecEn := if key < 4 then pl m 2 1 = 1 else x.vecEn }))
  | 0x0102 =>
    let offs := (List.range (pl m 0 4)).map (fun i => pl m (4 + 4 * i) 4)
    offs.foldl (fun r o => (0, r.2.1 ++ bytesLE 4 (devWord r.2.2 .warden o), devReadEffect r.2.2 .warden o 4)) (0, [], s)
  | 0x0303 => (0, telemetryBody s, s)
  | 0x0406 => (0, [], onPool s (fun p => { p with policy := tabSet p.policy (pl m 0 1) (pl m 1 1) }))
  | 0x0407 =>
    let all := kennelEntries s
    let l := (all.drop (pl m 0 4)).take ((refAt m 16).len / 16)
    copyOut s m (l.flatMap (kennelBytes s)) (bytesLE 4 l.length ++ bytesLE 4 all.length ++ bytesLE 4 s.marks.candidates.length)
  | 0x0408 => (0, [], onWdn s (fun w => { w with candidates := setAdd w.candidates (pl m 0 8 / 4096) }))
  | 0x0602 => (0, domainBody s, s)
  | 0x0603 => (0, bytesLE 48 (Config.peerCoord s.fresh).toNat, tickFresh s)
  | 0x0702 =>
    let ver (d : Nat) : Nat := imageVersion (bytesAt s (flashAddr d 0x100000) 24)
    (0, [], bcbWrite s (pl m 0 1) (ver 0) (ver 1))
  | 0x0703 =>
    let sc := ((Config.tokenScope data s.domain.die s.wdn.otp.keys (deadKeys s.wdn.otp)).getD 0).toNat
    (0, bytesLE 4 sc, report (onWdn s (fun w => { w with tap := { w.tap with scope := sc } })) 0x0804 0x7F [sc])
  | 0x0704 => (0, [], setFlag (setFlag s R.WDN_SEAL.SEAL true) R.WDN_STAT.SEALED true)
  | 0x0801 => (0, healthBody s.wdn.health.pred, s)
  | 0x0901 => testPrbs s m
  | 0x0A01 => (0, [], setReady (onWdn s (fun w => { w with mgmt := some ⟨pl m 0 4, pl m 4 4, pl m 8 4, data⟩ })))
  | 0x0A02 =>
    (0, [], onEth s (fun e => { e with
      ptp := (List.range 3).foldl (fun t p => if bitOf (pl m 0 1) p then tabSet t p (pl m 1 1, pl m 2 1, pl m 3 1) else t) e.ptp }))
  | 0x0A03 =>
    let s := stepWrite s (pl m 0 4)
    (0, bytesLE 4 (fld s R.TIME_STAT.STEP_SEQ), s)
  | _ => (0, [], s)

/-! ### Consuming a request (R473, R478, R482, R485) -/

/-- The request at REQ_HEAD is consumed: it takes a ticket, and a response is owed in its turn. -/
def takeReq (s : State) (key : Nat) (again : Option Nat) (rsp : Option (List Byte)) : State :=
  onMail s key (fun x => { x with
    reqHead := (x.reqHead + 1) % 2 ^ 16, ticket := x.ticket + 1, owed := x.owed ++ [⟨x.ticket, again, rsp⟩] })

/-- A request answered at once and not kept. -/
def replyOnly (s : State) (key : Nat) (m : List Byte) (st : Nat) : State :=
  let s := takeReq s key none (some (mkRsp m st [] 0))
  flushOwed (mail s key).owed.length s key

/-- A retry: the kept response is posted again, now or once it is known, and so is the notice of a job that has ended. -/
def replayReq (s : State) (key : Nat) (k : KeptReq) : State :=
  let s := takeReq s key (some k.ticket) (k.rsp.map withReplay)
  let s := flushOwed (mail s key).owed.length s key
  match k.done with
  | some d => postNotice s key 0x8001 d (nowNs s)
  | none => s

/-- A new request is consumed and kept among the last 8. -/
def keepReq (s : State) (key : Nat) (m : List Byte) : State :=
  let t := (mail s key).ticket
  onMail (takeReq s key none none) key (fun x => { x with
    kept := (x.kept ++ [KeptReq.mk (msgSeq m) m t none none]).drop (x.kept.length - 7) })

/-- A job starts (R481): STATUS_ACCEPTED with its JOB_ID, and what the job does first. -/
def startJob (s : State) (key t : Nat) (m data : List Byte) (bad : Bool) : State :=
  let id := s.wdn.nextJob
  let s := onWdn s (fun w => { w with jobs := w.jobs ++ [⟨id, key, t, m, data, bad, none, false⟩], nextJob := (id + 1) % 2 ^ 16 })
  let s := answer s key t (mkRsp m St.accepted (bytesLE 2 id) 0)
  if msgCmd m = 0x0501 then radioSetup s m
  else if msgCmd m = 0x0601 ∧ !bad then domainAccept s data
  else s

/-- A request that has passed its checks is executed or accepted. -/
def runReq (s : State) (key t : Nat) (m data : List Byte) (bad : Bool) : State :=
  match (cmdSpec (msgCmd m)).map (fun sp => sp.cls) with
  | some 1 =>
    if msgCmd m = 0x0302 ∧ pl m 0 4 = 4 then stateApply (answer s key t (mkRsp m 0 [] 0)) 4 0
    else onWdn s (fun w => { w with accepted := w.accepted ++ [⟨key, t, m, extTime s, data⟩] })
  | some 2 => startJob s key t m data bad
  | _ =>
    if msgCmd m = 0x0203 then resetBegin (answer s key t (mkRsp m 0 [] 0)) (pl m 0 4) 1
    else
      let r := classI s key m data
      answer r.2.2 key t (mkRsp m r.1 r.2.1 0)

/-- Two messages are the same request (R478). -/
def sameReq (a b : List Byte) : Bool :=
  msgCmd a = msgCmd b && msgVer a = msgVer b && msgLen a = msgLen b && payload a = payload b

/-- May Warden consume a request of a pair now: it runs firmware, the power holds (R498), the pair is READY, a request waits, and a
response slot is free? -/
def mayConsume (s : State) (key : Nat) : Bool :=
  let x := mail s key
  wardenUp s && !flag s R.PWR_STATE.PWRFAIL && pairReady s (pairOf key) && x.reqTail ≠ x.reqHead &&
    decide ((x.reqHead + 2 ^ 16 - x.rspHead) % 2 ^ 16 < 8)

/-- Warden consumes the oldest request of a pair, and answers it by the first check of Table 15-4 that applies. A request whose
reference must wait for a line stays. `host` is what host memory holds where it names a PCIe address. -/
def consume (s : State) (key : Nat) (host : List Byte) : State :=
  if !mayConsume s key then s
  else
    let x := mail s key
    let m := sliceBytes (tabGet x.req (x.reqHead % 8) []) 0 64
    if 48 < msgLen m then replyOnly s key m St.badLength
    else if bitOf (msgFlags m) 0 ∧ msgCrc m ≠ crcOf m then replyOnly s key m St.badCrc
    else match x.kept.find? (fun k => k.seq = msgSeq m) with
      | some k => if sameReq k.msg m then replayReq s key k else replyOnly s key m St.seqReuse
      | none =>
        match judge s key m host with
        | (.wait, s) => s
        | (.fail st, s) => answer (keepReq s key m) key x.ticket (mkRsp m st [] 0)
        | (.pass data bad, s) => runReq (keepReq s key m) key x.ticket m data bad

/-! ### The end of a job (R490 to R492) -/

/-- TABLE_FILL ends: its rows are written, live or staged. -/
def fillEnd (s : State) (j : Job) : Nat × List Byte × State :=
  let t := pl j.msg 0 1
  let staged := pl j.msg 1 1 = 1
  let u := if staged then underLayout s t else s
  let n := tdRowBytes u t
  let rows := (List.range (pl j.msg 8 4)).map (fun i => (pl j.msg 4 4 + i, sliceBytes j.data (i * n) n))
  let odd := (rows.filter (fun r => canonRow u t r.2 ≠ r.2)).length
  let s := setFld s R.BENIGN_DIVERGENCE.val (fld s R.BENIGN_DIVERGENCE.val + odd)
  if staged then
    let f (l : Tab (List Byte)) := rows.foldl (fun l r => tabSet l r.1 (canonRow u t r.2)) l
    (0, bytesLE 4 rows.length, onPool s (fun p => { p with staged := tabSet p.staged t (f (tabGet p.staged t [])) }))
  else
    let r := rows.foldl (fun (a : Nat × Bool × State) r =>
      if a.2.1 then a
      else match fillRow a.2.2 t r.1 (fld a.2.2 R.POOL_GEN.val) r.2 with
        | some s => (a.1 + 1, false, s)
        | none => (a.1, true, a.2.2)) (0, false, s)
    (if r.2.1 then St.ioError else 0, bytesLE 4 r.1, recordShards r.2.2 t)

/-- WEAVE_LOAD ends: the image is in a plane that is not in use (R359). -/
def weaveEnd (s : State) (j : Job) : Nat × List Byte × State :=
  let w := pl j.msg 0 4
  match freePlanes s w with
  | [] => (St.refused, [], s)
  | p :: _ =>
    let cfg := fieldLE j.data 0x1C 4
    let n := fieldLE j.data 0x18 2
    let plane : WPlane := {
      image := fieldLE j.data 8 4
      kind := fieldLE j.data 6 2
      frames := (List.range 4096).flatMap (fun c => canonFrame (cellFrame (j.data.drop 0x100) c))
      cfgs := (List.range n).map (fun i => sliceBytes j.data (cfg + 160 * i) 160) }
    (0, bytesLE 4 p, planeLoad s w p plane)

/-- FLASH_UPDATE ends: the image area is erased and programmed, and the boot configuration block written (R490, R537). -/
def flashEnd (s : State) (j : Job) : Nat × List Byte × State :=
  let dev := pl j.msg 0 4
  let s := storeBytes s (flashAddr dev 0x100000) (j.data ++ List.replicate (0x80000 - j.data.length) (BitVec.ofNat 8 0xFF))
  let s := onFlash s (fun x => { x with buf := tabErase x.buf dev })
  let s := onWdn s (fun w => { w with health := { w.health with now_ := w.health.now_.set 3 (w.health.now_.getD 3 0 + 1) } })
  let ver (d : Nat) : Nat := imageVersion (bytesAt s (flashAddr d 0x100000) 24)
  (0, bytesLE 4 j.data.length, bcbWrite s (bcbDecide (bcbOf s 0) (bcbOf s 1)).2.1 (ver 0) (ver 1))

/-- TEST_BIST ends (Table 18-8): tile memory, IMEM and Weave planes under test have lost their content. -/
def bistEnd (s : State) (j : Job) (mask : Nat) : Nat × List Byte × State :=
  let target := pl j.msg 0 4
  let on := pl j.msg 4 4
  let cores := (List.range 96).filter (fun c => bitOf on (c / 8))
  let s := match target with
    | 1 => cores.foldl (fun s c => eraseRange s (tileAddr c 0) 0x180000) s
    | 2 => cores.foldl (fun s c => eraseRange s (imemAddr c 0) 0x20000) s
    | 3 => (List.range 2).foldl (fun s w => if bitOf on w then weaveLost s w else s) s
    | _ => s
  (0, bytesLE 4 (mask &&& on), s)

/-- TEST_BATHTUB ends (R562): 64 points, from phase -32. With an error the points already measured are written. -/
def bathtubEnd (s : State) (j : Job) (o : JobOut) : Nat × List Byte × State :=
  let l := (o.points.take 64).zipIdx.flatMap (fun p => bytesLE 2 (wrapTo 16 ((p.2 : Int) - 32)) ++ bytesLE 2 0 ++ bytesLE 4 p.1.1 ++ bytesLE 8 p.1.2)
  let r := copyOut s j.msg l (bytesLE 4 (l.length / 16))
  (if o.io then St.ioError else r.1, bytesLE 4 (l.length / 16), r.2.2)

/-- What a job has come to: its status, its results and the state; none while it cannot end yet. -/
def jobResult (s : State) (j : Job) (o : JobOut) : Option (Nat × List Byte × State) :=
  let cmd := msgCmd j.msg
  if cmd = 0x0501 then
    match j.value with
    | some n => some (0, bytesLE 4 n, s)
    | none => if flag s R.JRX_STAT.LINK_UP then none else some (St.ioError, [], s)
  else if cmd = 0x0903 then some (bathtubEnd s j o)
  else if cmd = 0x0403 ∧ j.done ∧ !j.bad then some (0, bytesLE 4 (j.value.getD 0), s)
  else if j.bad ∨ o.io then
    if cmd = 0x0403 ∧ j.value.isSome then none else some (St.ioError, [], s)
  else match cmd with
    | 0x0402 => some (fillEnd s j)
    | 0x0403 => none
    | 0x0503 => some (weaveEnd s j)
    | 0x0601 => some (0, bytesLE 4 (selfState s) ++ bytesLE 4 (chipId s) ++ bytesLE 4 (fld s R.ADR_LEADER.LEADER), s)
    | 0x0701 => some (flashEnd s j)
    | _ => some (bistEnd s j o.mask)

/-- A job ends: its notice goes to the pair that issued it, and its request keeps it for a retry. -/
def jobEnd (s : State) (id : Nat) (o : JobOut) : State :=
  match s.wdn.jobs.find? (fun j => j.id = id) with
  | none => s
  | some j =>
    match jobResult s j o with
    | none => s
    | some (st, body, s) =>
      let d := bytesLE 2 id ++ bytesLE 2 (msgCmd j.msg) ++ bytesLE 4 st ++ body
      let s := onWdn s (fun w => { w with jobs := w.jobs.filter (fun x => x.id ≠ id) })
      if j.key = noKey then s else
      let s := onMail s j.key (fun x => { x with kept := x.kept.map (fun k => if k.ticket = j.ticket then { k with done := some d } else k) })
      postNotice s j.key 0x8001 d (nowNs s)

/-! ### Datagrams (R475) -/

/-- A datagram on a management pair, from an address and port: one whose length or HMAC fails is dropped and counted. -/
def mgmtIn (s : State) (pair from_ : Nat) (d : List Byte) : State :=
  match s.wdn.mgmt with
  | none => s
  | some g =>
    let m := d.take 64
    if d.length ≠ 96 ∨ numLE (d.drop 64) ≠ (Config.hmac g.key m).toNat then onWdn s (fun w => { w with mgmtBad := w.mgmtBad + 1 })
    else mailPost (onMail s pair (fun x => { x with from_ := from_ })) pair m

/-! ### Meanings -/

/-- REQUEST_CONSUME (R485): Warden consumes the oldest request of a pair when a response slot is free. -/
def execRequestConsume (pair chip : Nat) (host : List Byte) (s : State) : Host.Outcome State Fault Refusal :=
  if pair < 16 ∧ chip < 16 then finish (consume s (mailKey pair chip) host) else .fault .absentUnit

/-- MGMT_DATAGRAM (R475): a datagram on pair 12 or 13. -/
def execMgmtDatagram (pair from_ : Nat) (d : List Byte) (s : State) : Host.Outcome State Fault Refusal :=
  if pair = 12 ∨ pair = 13 then finish (mgmtIn s pair from_ d) else .fault .absentUnit

/-- JOB_DONE (R492): a job ends. -/
def execJobDone (id : Nat) (o : JobOut) (s : State) : Host.Outcome State Fault Refusal := finish (jobEnd s id o)

/-- A command of the catalogue: its request is posted on its pair, and consumed where no earlier one waits there. The host reaches no
pair in the root role. -/
def commandRow (code : Nat) (r : MailReq) (s : State) : Host.Outcome State Fault Refusal :=
  if 16 ≤ r.pair ∨ 16 ≤ r.chip then .fault .absentUnit
  else if r.pair < 4 ∧ rootRole s then finish s
  else
    let key := mailKey r.pair r.chip
    let alone := (mail s key).reqTail = (mail s key).reqHead
    let s := mailPost s key (mkMsg code r.ver 0 r.seq r.payload 0 0)
    finish (if alone then consume s key r.host else s)

/-- IDENTIFY (R487): identity, firmware and boot data; the pair is identified. -/
def execIdentify (r : MailReq) (s : State) : Host.Outcome State Fault Refusal := commandRow 0x0001 r s

/-- SNAPSHOT (R488): register sets latched at a boundary. -/
def execSnapshot (r : MailReq) (s : State) : Host.Outcome State Fault Refusal := commandRow 0x0002 r s

/-- LOG_READ (R555): log entries from an index. -/
def execLogRead (r : MailReq) (s : State) : Host.Outcome State Fault Refusal := commandRow 0x0003 r s

/-- NOTICE_CFG (R492): the notice classes and vector of a pair. -/
def execNoticeCfg (r : MailReq) (s : State) : Host.Outcome State Fault Refusal := commandRow 0x0004 r s

/-- REG_WRITE (R489): masked writes of up to three registers at one boundary. -/
def execRegWrite (r : MailReq) (s : State) : Host.Outcome State Fault Refusal := commandRow 0x0101 r s

/-- REG_READ (R487): up to eleven register values. -/
def execRegRead (r : MailReq) (s : State) : Host.Outcome State Fault Refusal := commandRow 0x0102 r s

/-- PART_SET (R254): a partition's configuration at a boundary. -/
def execPartSet (r : MailReq) (s : State) : Host.Outcome State Fault Refusal := commandRow 0x0201 r s

/-- PART_RESET (R532): a partition is reset at a boundary. -/
def execPartReset (r : MailReq) (s : State) : Host.Outcome State Fault Refusal := commandRow 0x0202 r s

/-- CHIP_RESET (R533): a core or warm reset. -/
def execChipReset (r : MailReq) (s : State) : Host.Outcome State Fault Refusal := commandRow 0x0203 r s

/-- POWER_BUDGET (R515): budget, floor and lease. -/
def execPowerBudget (r : MailReq) (s : State) : Host.Outcome State Fault Refusal := commandRow 0x0301 r s

/-- POWER_STATE (R509): a move to a power state. -/
def execPowerState (r : MailReq) (s : State) : Host.Outcome State Fault Refusal := commandRow 0x0302 r s

/-- TELEMETRY (R487): the last sample. -/
def execTelemetry (r : MailReq) (s : State) : Host.Outcome State Fault Refusal := commandRow 0x0303 r s

/-- TABLE_CREATE (R288): a table's descriptor and shard map. -/
def execTableCreate (r : MailReq) (s : State) : Host.Outcome State Fault Refusal := commandRow 0x0401 r s

/-- TABLE_FILL (R490): a job that writes canonical rows. -/
def execTableFill (r : MailReq) (s : State) : Host.Outcome State Fault Refusal := commandRow 0x0402 r s

/-- TABLE_REPLACE (R301): a job that replaces a batch of rows at a new generation. -/
def execTableReplace (r : MailReq) (s : State) : Host.Outcome State Fault Refusal := commandRow 0x0403 r s

/-- TABLE_SWAP (R304): pause, commit or abort of a paused replacement. -/
def execTableSwap (r : MailReq) (s : State) : Host.Outcome State Fault Refusal := commandRow 0x0404 r s

/-- TABLE_DELETE (R487): a table is deleted at a boundary. -/
def execTableDelete (r : MailReq) (s : State) : Host.Outcome State Fault Refusal := commandRow 0x0405 r s

/-- POOL_POLICY (R307): skew actions disabled for a table. -/
def execPoolPolicy (r : MailReq) (s : State) : Host.Outcome State Fault Refusal := commandRow 0x0406 r s

/-- KENNEL_READ (R208): entries of the Kennel list. -/
def execKennelRead (r : MailReq) (s : State) : Host.Outcome State Fault Refusal := commandRow 0x0407 r s

/-- KENNEL_RELEASE (R209): the owner releases a candidate page. -/
def execKennelRelease (r : MailReq) (s : State) : Host.Outcome State Fault Refusal := commandRow 0x0408 r s

/-- RADIO_START (R347): a job that brings the radio up. -/
def execRadioStart (r : MailReq) (s : State) : Host.Outcome State Fault Refusal := commandRow 0x0501 r s

/-- RADIO_STOP (R487): the radio stops at a boundary. -/
def execRadioStop (r : MailReq) (s : State) : Host.Outcome State Fault Refusal := commandRow 0x0502 r s

/-- WEAVE_LOAD (R359): a job that checks and loads a signed image. -/
def execWeaveLoad (r : MailReq) (s : State) : Host.Outcome State Fault Refusal := commandRow 0x0503 r s

/-- WEAVE_SELECT (R360): the plane for the next boundary. -/
def execWeaveSelect (r : MailReq) (s : State) : Host.Outcome State Fault Refusal := commandRow 0x0504 r s

/-- DOMAIN_CONFIG (R426): a job that accepts a domain block and joins. -/
def execDomainConfig (r : MailReq) (s : State) : Host.Outcome State Fault Refusal := commandRow 0x0601 r s

/-- DOMAIN_STATUS (R487): domain membership. -/
def execDomainStatus (r : MailReq) (s : State) : Host.Outcome State Fault Refusal := commandRow 0x0602 r s

/-- PEER_COORD (R487): firmware coordination between Wardens. -/
def execPeerCoord (r : MailReq) (s : State) : Host.Outcome State Fault Refusal := commandRow 0x0603 r s

/-- FLASH_UPDATE (R490): a job that checks and programs an image. -/
def execFlashUpdate (r : MailReq) (s : State) : Host.Outcome State Fault Refusal := commandRow 0x0701 r s

/-- BOOT_PREFER (R537): the boot configuration block prefers an image. -/
def execBootPrefer (r : MailReq) (s : State) : Host.Outcome State Fault Refusal := commandRow 0x0702 r s

/-- DEBUG_UNLOCK (R567): a signed token opens a scope. -/
def execDebugUnlock (r : MailReq) (s : State) : Host.Outcome State Fault Refusal := commandRow 0x0703 r s

/-- SEAL (R495): RWL registers are sealed. -/
def execSeal (r : MailReq) (s : State) : Host.Outcome State Fault Refusal := commandRow 0x0704 r s

/-- HEALTH (R573): the prediction. -/
def execHealth (r : MailReq) (s : State) : Host.Outcome State Fault Refusal := commandRow 0x0801 r s

/-- TEST_PRBS (R560): generators and checkers of a link. -/
def execTestPrbs (r : MailReq) (s : State) : Host.Outcome State Fault Refusal := commandRow 0x0901 r s

/-- TEST_BIST (R563): a job that runs self-tests. -/
def execTestBist (r : MailReq) (s : State) : Host.Outcome State Fault Refusal := commandRow 0x0902 r s

/-- TEST_BATHTUB (R562): a job that sweeps a lane's monitor phase. -/
def execTestBathtub (r : MailReq) (s : State) : Host.Outcome State Fault Refusal := commandRow 0x0903 r s

/-- MGMT_SET (R475): management address and key. -/
def execMgmtSet (r : MailReq) (s : State) : Host.Outcome State Fault Refusal := commandRow 0x0A01 r s

/-- PTP_SET (R393): the time-stamping mode of ports. -/
def execPtpSet (r : MailReq) (s : State) : Host.Outcome State Fault Refusal := commandRow 0x0A02 r s

/-- TIME_ADJUST (R491): a step of the counter while the radio is off. -/
def execTimeAdjust (r : MailReq) (s : State) : Host.Outcome State Fault Refusal := commandRow 0x0A03 r s

end Sys2Proof.Machine
end

