-- ==== Sys2Proof/Machine/Warden.lean ====
section
/-!
DEFINITION. Integrity, test and health (chapter 18): reports of errors, the watchdog, PRBS checkers, the test port, the hold-up test,
health records and the prediction; and the resets of the PCIe port.
-/
namespace Sys2Proof.Machine

/-! ### Errors of units (R552, R554, Table 18-1) -/

/-- A state entry of a unit has an uncorrectable error: unit 0 queue, 1 sync, 2 scheduler, 3 lookup, 4 multicast (log entry 40). -/
def unitStateUe (s : State) (unit entry agent : Nat) : State :=
  report (bumpSat s R.INT_UE.UNIT_STATE_UE) 0x0305 agent [unit, entry]

/-- A queue whose state fails goes to MODE 0. -/
def queueStateUe (s : State) (q : Nat) : State :=
  let old := qSnapshot s q
  unitStateUe (qReconfig (setFld s (R.QCFG.MODE q) 0) q old) 0 q 100

/-- A sync object whose state fails is disabled, and its waiters end with LOST. -/
def syncStateUe (s : State) (n : Nat) : State :=
  unitStateUe (loseWaiters (setSync s n { syncObj s n with en := false }) n) 1 n 100

/-- A task whose entry fails ends ABORTED, with the CAUSE of asynchronous errors. -/
def taskStateUe (s : State) (part id : Nat) : State :=
  let s := match s.sched.tasks.find? (fun t => t.part = part && t.id = id) with
    | some t =>
      match t.st with
      | .running c => coreTaskEnd s c 1 18
      | _ => taskEnd s t 1 18
    | none => s
  unitStateUe s 2 (65536 * part + id) 100

/-- A batch whose entry fails ends with POISON. -/
def batchStateUe (s : State) (n : Nat) : State :=
  unitStateUe (onPool s (fun p => { p with
    batches := p.batches.map (fun b => if b.num = n then { b with todo := [], sent := [], whole := some 6 } else b) })) 3 n 96

/-- A directory entry fails: its line is poisoned at its home, and each holder that the entry still names receives SNP_INV. -/
def directoryUe (s : State) (a : Nat) (readable : List Nat) : State :=
  let ln := a / 128
  let s := setDir (poisonRange s (128 * ln) 128) ln none
  report (readable.foldl (fun s c => sendPkt s c 0x10 100 (128 * globalLine s ln) [] []) s) 0x010A 100 [a]

/-- The model's key of a local address that holds data. -/
def dataKey (a n : Nat) : Bool := a + n ≤ lp5xEnd || (tileAddr 0 0 ≤ a && a + n ≤ tileAddr 96 0)

/-- A way whose tag fails is invalidated, and its line is poisoned at its home: a copy held in E or M goes back poisoned (R179). -/
def squareTagUe (s : State) (a : Nat) : State :=
  let line := a / 128
  if homeOf line = chipId s then if a % 2 ^ 44 < lp5xEnd then poisonRange s (a % 2 ^ 44 / 128 * 128) 128 else s
  else
    match tabFind s.coh.lines line with
    | some l =>
      let st : LineSt := if l.st = .s then .s else .m
      evictLine (onCoh s (fun h => { h with lines := tabSet h.lines line ⟨st, l.data, true⟩ })) line
    | none => s

/-- The system is told of a watchdog restart (R496, R540, R578): the rings of every pair, jobs, kept responses and accepted commands are
lost, every PRBS session stops, and a self-test leaves its targets with their content lost; settings and the log stay. -/
def watchdogRestart (s : State) : State :=
  let s := s.wdn.jobs.foldl (fun s j => if msgCmd j.msg = 0x0902 then (bistEnd s j 0).2.2 else s) s
  let on := s.wdn.prbs
  let early := extTime s < s.wdn.boot.at_ + 60000000000
  let s := onWdn s (fun w => { w with
    mails := [], epoch := (w.epoch + 1) % 256, accepted := [], jobs := [], prbs := [], hbAt := w.hbAt + 250000000
    boot := { w.boot with cleanSince := extTime s } })
  let s := onPool s (fun p => { p with staged := [], layout := [] })
  let s := on.foldl (fun s x => linkBack s x.link x.port) s
  let s := bumpSat s R.WDN_STAT.RESTARTS
  let s := if early then bump s R.BOOT_STAT.BOOT_ATTEMPTS else s
  report (setReady s) 0x0803 0x7F [fld s R.WDN_STAT.RESTARTS]

/-- What an error does where it is found, and its report. -/
def unitError (s : State) : UnitErr → State
  | .tileCe c off => tileCe s c off
  | .tileUe c off => tileUe s c off
  | .lp5xCe a => lp5xCe s a
  | .lp5xUe a => lp5xUe s a
  | .imemCe c off => report s 0x0202 c [c, off / 8 * 8]
  | .imemUe c off => poisonRange s (imemAddr c (off / 8 * 8)) 8
  | .vectorSlice c r n => onCore s c (fun k => { k with vparity := setAdd k.vparity (32 * r + n) })
  | .pilotReg c r => report (haltCore s c 18) 0x0209 c [c, r]
  | .squareCe n set => report s 0x0103 0x7F [n, set]
  | .squareData a =>
    let s := match tabFind s.coh.lines (a / 128) with
      | some l => onCoh s (fun h => { h with lines := tabSet h.lines (a / 128) { l with poison := true } })
      | none => if dataKey (a % 2 ^ 44) 1 && homeOf (a / 128) = chipId s then poisonRange s (a % 2 ^ 44 / 128 * 128) 128 else s
    report s 0x0104 0x7F [a, 0]
  | .squareTag a => report (squareTagUe s a) 0x0104 0x7F [a, 1]
  | .directory a l => directoryUe s a l
  | .ringData stop cls a n =>
    let s := if dataKey a n then poisonRange s a n else s
    report (bumpSat s R.INT_UE.RING_UE) 0x0109 0x7F [stop, cls]
  | .ringHeader stop cls a agent => report (bumpSat (errArrives s a agent) R.INT_UE.RING_UE) 0x0109 agent [stop, cls]
  | .queueState q => queueStateUe s q
  | .syncState n => syncStateUe s n
  | .taskState p i => taskStateUe s p i
  | .batchState n => batchStateUe s n
  | .channelState ch => unitStateUe (setFlag s (R.MC_CTL.EN ch) false) 4 ch 100
  | .wardenSram => if wardenUp s then watchdogRestart s else s
  | .otpKey k => onWdn s (fun w => { w with otp := { w.otp with badKeys := w.otp.badKeys ||| 2 ^ k } })
  | .otpFloor => onWdn s (fun w => { w with otp := { w.otp with badFloor := true } })
  | .other code agent args => report s code agent args

/-- Does the chip contain what a report names? -/
def errNamed : UnitErr → Bool
  | .tileCe c off => c < 96 && off < 0x180000
  | .tileUe c off => c < 96 && off < 0x180000
  | .lp5xCe a => a < lp5xEnd
  | .lp5xUe a => a < lp5xEnd
  | .imemCe c off => c < 96 && off < 0x20000
  | .imemUe c off => c < 96 && off < 0x20000
  | .vectorSlice c r n => c < 96 && r < 32 && n < 32
  | .pilotReg c _ => c < 96
  | .squareCe _ _ => true
  | .squareData _ => true
  | .squareTag _ => true
  | .directory a l => a < lp5xEnd && l.all (· < 16)
  | .ringData _ _ _ _ => true
  | .ringHeader _ _ _ _ => true
  | .queueState q => q < 1024
  | .syncState n => n < 16384
  | .taskState p _ => p < 12
  | .batchState _ => true
  | .channelState ch => ch < 64
  | .wardenSram => true
  | .otpKey k => k < 4
  | .otpFloor => true
  | .other code _ _ => eventCodes.contains code

/-! ### PRBS checkers (R559) -/

/-- A lane that a checker runs on has 64 correct bits in a row: it locks, and counts the bits compared and in error from there on. -/
def prbsLock (s : State) (link port lane bits errs : Nat) : State :=
  match prbsAt s link port with
  | some x =>
    if !x.chk ∨ !bitOf x.lanes lane then s
    else onPrbs s link port (fun x => { x with
      lock := x.lock ||| 2 ^ lane, bits := (x.bits + bits) % 2 ^ 64
      errs := tabSet x.errs lane (min (2 ^ 32 - 1) (tabGet x.errs lane 0 + errs)) })
  | none => s

/-- More than 128 of 1024 bits are wrong on a locked lane. -/
def prbsLoss (s : State) (link port lane : Nat) : State :=
  match prbsAt s link port with
  | some x =>
    if !bitOf x.lock lane then s
    else onPrbs s link port (fun x => { x with lock := x.lock - 2 ^ lane, losses := (x.losses + 1) % 2 ^ 32 })
  | none => s

/-! ### The test port (R564 to R567) -/

/-- Change the test port. -/
def onTap (s : State) (f : TapSt → TapSt) : State := onWdn s (fun w => { w with tap := f w.tap })

/-- What a TAP code selects: unlisted codes, SCAN_MODE and DEBUG outside their scope, and RECOVER outside the boot ROM with both images
failed act as BYPASS. -/
def tapEffective (s : State) (code : Nat) : Nat :=
  let scope := s.wdn.tap.scope
  if code ≤ 6 ∨ code = 0x10 then code
  else if code = 0x11 ∧ s.wdn.boot.rom ∧ s.wdn.boot.power then code
  else if code = 0x20 ∧ bitOf scope 2 then code
  else if code = 0x21 ∧ (bitOf scope 0 ∨ bitOf scope 1) then code
  else 0xFF

/-- The links stop while the pins follow the boundary register. -/
def interfacesStop (s : State) : State :=
  let s := linkOut (linkOut s 0 0) 2 0
  let s := (List.range 3).foldl (fun s p => linkOut s 1 p) s
  (List.range 8).foldl (fun s p => linkOut s 4 p) s

/-- The TAP loads another instruction. Replacing one that drives the pins performs a warm reset, replacing SCAN_MODE one that leaves
LP5X undefined, and replacing RECOVER has the boot ROM check what was appended. -/
def tapLoad (s : State) (code : Nat) : State :=
  let old := s.wdn.tap.ir
  let new := tapEffective s code
  if old = new then s
  else
    let drive := pinsDriven s
    let s := onTap s (fun t => { t with ir := new })
    let s := if drive then if s.wdn.boot.power then warmReset s (warmCause 1) none 0 else s
      else if old = 0x20 then warmReset (eraseRange s 0 lp5xEnd) (warmCause 1) none 0
      else if old = 0x11 then
        let img := s.wdn.tap.sram
        let s := onTap s (fun t => { t with sram := [] })
        if s.wdn.boot.rom && imageCheck s img = 0 then runImage s 0 true else s
      else s
    let s := if new = 2 then onTap s (fun t => { t with dr := 0x10096239 }) else s
    if pinsDriven s then interfacesStop s else s

/-- MBOX at Update-DR (R565): a word of pair 14 or 15 from the requester's side. -/
def tapMbox (s : State) (write pair15 : Bool) (word v : Nat) : State :=
  let s := tapLoad s 0x10
  if !wardenUp s ∨ 519 < word then s
  else
    let key := mailKey (if pair15 then 15 else 14) 0
    if !write then
      let r := mboxWord s key (4 * word)
      onTap s (fun t => { t with read := r, dr := r })
    else if mboxWritable (4 * word) then mboxStore s key (4 * word) (2 ^ 32 - 1) v else s

/-- RECOVER at Update-DR (R566): one word is appended to Warden SRAM. -/
def tapRecover (s : State) (v : Nat) : State :=
  let s := tapLoad s 0x11
  if s.wdn.tap.ir = 0x11 then onTap s (fun t => { t with sram := t.sram ++ bytesLE 4 v }) else s

/-! ### Hold-up test and health (R568 to R575) -/

/-- A HEALTH notice, at most one per hour. -/
def healthNotice (s : State) : State :=
  let due := match s.wdn.health.noticeAt with
    | none => true
    | some a => decide (a + 3600000000000 ≤ extTime s)
  if due then
    let s := notify s 6 0x8007 (healthBody s.wdn.health.pred)
    onWdn s (fun w => { w with health := { w.health with noticeAt := some (extTime s) } })
  else s

/-- Store an indicator of Table 18-10. -/
def setIndicator (s : State) (code v : Nat) : State :=
  onWdn s (fun w => { w with health := { w.health with now_ := w.health.now_.set (code - 1) v } })

/-- May the hold-up test run now (R568)? -/
def holdupMay (s : State) : Bool :=
  wardenUp s && fld s R.PWR_STATE.STATE < 3 && 4000 ≤ s.guard.vin && s.guard.closed && !flag s R.PWR_STATE.PWRFAIL

/-- A hold-up test completes (R569): input current in mA, the step at opening and the fall from 20 to 200 microseconds in mV, and the
standard error of the fitted capacitance in 0.1 microfarad. -/
def holdupDone (s : State) (i step fall se : Nat) : State :=
  let esr := 1000 * step / i
  let cLow := (1800 * i / fall - 3 * se) * 98 / 100
  let s := setFld (setFld s R.HOLDUP_C.C_LOW (min 65535 cLow)) R.HOLDUP_C.ESR (min 65535 esr)
  let s := setFld s R.EG_HOLDUP.val (min 65535 (145 * cLow / 100))
  let s := setIndicator (setIndicator (setFlag s R.HOLDUP_AGE.VALID true) 5 esr) 6 cLow
  let s := onWdn s (fun w => { w with health := { w.health with testAt := some (extTime s) } })
  let s := report s 0x0705 0x7F [cLow, esr]
  if cLow < 5517 then healthNotice s else s

/-- The daily record (R572): it goes to the device that does not hold the booted image; a later record of the same day counts. -/
def healthRecord (s : State) (day lp5x : Nat) : State :=
  if !wardenUp s then s
  else
    let s := setIndicator s 3 lp5x
    let h := s.wdn.health
    let r : HealthRec := ⟨day, h.now_, h.now_.getD 3 0, spareDev s, h.pred⟩
    onWdn s (fun w => { w with health := { h with recs := ((h.recs.filter (fun x => x.day ≠ day)) ++ [r]) } })

/-- The earliest of the projected values, or 0xFFFFFFFF. -/
def earliest (l : List (Option (Nat × Nat × Nat))) (f : Nat × Nat × Nat → Nat) : Nat :=
  l.foldl (fun m x => match x with
    | some p => min m (f p)
    | none => m) 0xFFFFFFFF

/-- The prediction from what each indicator's fit projects (R573): days from now with its band, none where it does not reach its limit
within 50 years. -/
def predictFrom (days : Nat) (proj : List (Option (Nat × Nat × Nat))) (now : Nat) : Predict :=
  let conf := if 90 ≤ days then 90 else if 14 ≤ days then 50 else 0
  if conf = 0 then { Predict.reset with at_ := now }
  else
    let d := earliest proj (fun p => p.1)
    let dom := match (proj.take 7).zipIdx.find? (fun x =>
        match x.1 with
        | some p => decide (p.1 = d) && d ≠ 0xFFFFFFFF
        | none => false) with
      | some x => x.2 + 1
      | none => 0
    ⟨d, earliest proj (fun p => p.2.1), earliest proj (fun p => p.2.2), conf, dom, now⟩

/-- The hourly measurements and fit: the drift of each Quarter in 0.01 %, the narrowest eye, and the projections. -/
def healthFit (s : State) (drift : List Int) (eye : Nat) (proj : List (Option (Nat × Nat × Nat))) : State :=
  if !wardenUp s then s
  else
    let s := drift.zipIdx.foldl (fun s x =>
      if x.2 < 12 ∧ !flag s (R.QCLK.GATED x.2) then setFld s (R.RO_DRIFT.val x.2) (wrapTo 16 x.1) else s) s
    let worst := drift.foldl (fun m x => max m x.toNat) 0
    let s := setIndicator (setIndicator s 1 worst) 2 eye
    let old := s.wdn.health.pred
    let p := predictFrom ((s.wdn.health.recs.take 365).length) proj (nowNs s)
    let s := onWdn s (fun w => { w with health := { w.health with pred := p } })
    let moved := (p.days ≠ old.days ∧ (old.days < 10 * (max p.days old.days - min p.days old.days) ∨ old.days = 0)) ∨ p.dom ≠ old.dom
    if moved then healthNotice s else s

/-! ### Resets of the PCIe port (R466, R468, R499) -/

/-- FLR and PERST_N: the port, and the rings of pairs 0 to 3. Requests already consumed still execute, and their responses are discarded. -/
def pcieReset (s : State) (parts : List PartCopy) : State :=
  let s := portFlr s parts
  onWdn s (fun w => { w with
    mails := w.mails.map (fun x => if pairOf x.1 < 4 then (x.1, { Mail.reset x.1 with ticket := x.2.ticket }) else x)
    jobs := w.jobs.map (fun j => if j.key < 4 then { j with key := noKey } else j) })

/-! ### Meanings -/

/-- EVENT_REPORT (R554, R552): a unit finds an error, which has the outcome of Table 18-1, and reports it. -/
def execEventReport (e : UnitErr) (s : State) : Host.Outcome State Fault Refusal :=
  if errNamed e then finish (unitError s e) else .fault .absentUnit

/-- WATCHDOG_RESTART (R496): WDN_HB has not advanced for 250 ms. -/
def execWatchdogRestart (s : State) : Host.Outcome State Fault Refusal :=
  if wardenUp s then finish (watchdogRestart s) else finish s

/-- PRBS_LOCK (R559): a checker locks, or has compared more bits while locked. -/
def execPrbsLock (link port lane bits errs : Nat) (s : State) : Host.Outcome State Fault Refusal :=
  if link < 5 ∧ port < prbsPorts link ∧ bitOf (prbsLanes link) lane then finish (prbsLock s link port lane bits errs) else .fault .absentUnit

/-- PRBS_LOCK_LOSS (R559): a checker loses lock. -/
def execPrbsLockLoss (link port lane : Nat) (s : State) : Host.Outcome State Fault Refusal :=
  if link < 5 ∧ port < prbsPorts link ∧ bitOf (prbsLanes link) lane then finish (prbsLoss s link port lane) else .fault .absentUnit

/-- FLR (R466): a function-level reset; a copy in flight has moved what `parts` tells. -/
def execFlr (parts : List PartCopy) (s : State) : Host.Outcome State Fault Refusal := finish (pcieReset s parts)

/-- PERST_N (R468): asserting it resets the PCIe port as an FLR does. -/
def execPerstN (parts : List PartCopy) (s : State) : Host.Outcome State Fault Refusal := finish (pcieReset s parts)

/-- HOLDUP_TEST (R568): `early` says that the test ended early or was abandoned, `steady` that the input varied by less than 0.5 V. -/
def execHoldupTest (i step fall se : Nat) (early steady : Bool) (s : State) : Host.Outcome State Fault Refusal :=
  if holdupMay s && steady && !early && i ≠ 0 && fall ≠ 0 then finish (holdupDone s i step fall se) else finish s

/-- HEALTH_RECORD (R572): the record of a day, with its LP5X corrected errors. -/
def execHealthRecord (day lp5x : Nat) (s : State) : Host.Outcome State Fault Refusal := finish (healthRecord s day lp5x)

/-- HEALTH_FIT (R573): the hourly fit. -/
def execHealthFit (drift : List Int) (eye : Nat) (proj : List (Option (Nat × Nat × Nat))) (s : State) : Host.Outcome State Fault Refusal :=
  finish (healthFit s drift eye proj)

/-- EXTEST (R564): the pins follow the boundary register, which takes the given pins. -/
def execExtest (pins : List Byte) (s : State) : Host.Outcome State Fault Refusal :=
  finish (emit (onTap (tapLoad s 0) (fun t => { t with boundary := pins })) .jtag [0] pins)

/-- SAMPLE/PRELOAD (R564): the pins are sampled and the boundary register preloaded; the pins are not driven. -/
def execSamplePreload (sampled preload : List Byte) (s : State) : Host.Outcome State Fault Refusal :=
  finish (emit (onTap (tapLoad s 1) (fun t => { t with boundary := preload })) .jtag [1] sampled)

/-- IDCODE (R564): the 32-bit IDCODE register is selected. -/
def execIdcode (s : State) : Host.Outcome State Fault Refusal := finish (emit (tapLoad s 2) .jtag [2, 0x10096239] [])

/-- CLAMP (R564): the pins hold what the boundary register holds. -/
def execClamp (s : State) : Host.Outcome State Fault Refusal :=
  let s := tapLoad s 3
  finish (emit s .jtag [3] s.wdn.tap.boundary)

/-- HIGHZ (R564): the pins are not driven by the chip. -/
def execHighz (s : State) : Host.Outcome State Fault Refusal := finish (emit (tapLoad s 4) .jtag [4] [])

/-- EXTEST_PULSE (R564): a pulse on the AC-coupled pairs, from the boundary register. -/
def execExtestPulse (pins : List Byte) (s : State) : Host.Outcome State Fault Refusal :=
  finish (emit (onTap (tapLoad s 5) (fun t => { t with boundary := pins })) .jtag [5] pins)

/-- EXTEST_TRAIN (R564): a train on the AC-coupled pairs, from the boundary register. -/
def execExtestTrain (pins : List Byte) (s : State) : Host.Outcome State Fault Refusal :=
  finish (emit (onTap (tapLoad s 6) (fun t => { t with boundary := pins })) .jtag [6] pins)

/-- MBOX (R565): an access to a word of pair 14 or 15. -/
def execJtagMbox (write pair15 : Bool) (word v : Nat) (s : State) : Host.Outcome State Fault Refusal :=
  finish (tapMbox s write pair15 word v)

/-- RECOVER (R566): a word of a recovery image. -/
def execRecover (v : Nat) (s : State) : Host.Outcome State Fault Refusal := finish (tapRecover s v)

/-- SCAN_MODE (R567): under unlock scope bit 2; otherwise BYPASS. -/
def execScanMode (s : State) : Host.Outcome State Fault Refusal := finish (tapLoad s 0x20)

/-- BYPASS (R564): the one-bit register, for this code and every unlisted one. -/
def execBypass (s : State) : Host.Outcome State Fault Refusal := finish (tapLoad s 0xFF)

/-- TAP_INSTRUCTION_REPLACED (R564, R566, R567): another instruction is loaded. -/
def execTapInstructionReplaced (code : Nat) (s : State) : Host.Outcome State Fault Refusal := finish (tapLoad s code)

end Sys2Proof.Machine
end

