-- ==== Sys2Proof/Machine/Boundary.lean ====
section
/-!
DEFINITION. The slot boundary (R36 to R38, R333): what takes effect at S_n, in order.
-/
namespace Sys2Proof.Machine

/-- The extended time of the boundary being raised: the nominal value of KSLOT_PHASE (R333). -/
def boundaryTime (s : State) (phase : Nat) : Nat := extTime s - (nowNs s + 2 ^ 32 - phase) % 2 ^ 32

/-- The class B commands accepted at least 50 microseconds before the boundary take effect, in acceptance order (R37, R38). -/
def commandsDue (s : State) (phase : Nat) : State :=
  let t := boundaryTime s phase
  let l := s.wdn.accepted.filter (fun b => b.at_ + 50000 ≤ t)
  let s := onWdn s (fun w => { w with accepted := w.accepted.filter (fun b => !(b.at_ + 50000 ≤ t)) })
  l.foldl (fun s b => runB s b phase) s

/-- Drops of the slot that ends are reported, one event for each queue or channel (R231). -/
def overflowReports (s : State) : State :=
  let l := s.queues.slotOvf
  l.foldl (fun s x => report s 0x0301 100 [x.1, x.2]) (onQueues s (fun u => { u with slotOvf := [] }))

/-- May a radio partition receive the slot that begins (R62)? -/
def slotOpen (s : State) (p : Nat) : Bool :=
  let ul := fld s R.KMAP_CUR.UL
  flag s R.JRX_STAT.LINK_UP && (List.range 12).any (fun q => quarterHome s q = some p) &&
    (List.range 2).any (fun w => bitOf (fld s (R.WV_PSTAT.VALID w)) (fld s (R.WV_CTL.SEL w))) &&
    bitOf (fld s (R.KMAP_VERIFIED.val (ul / 32))) (ul % 32)

/-- Is the model of a stage absent (R351, R348)? Stages 0 and 4 have none; a stage of the graph's own counts once its register is set
(log entry 42). -/
def modelAbsent (s : State) (stage : Nat) : Bool :=
  let w := reg s (R.RXG_STAGE.PRESENT stage).off
  (stage = 1 || stage = 2 || stage = 3 || (5 ≤ stage && w ≠ 0)) && (!bitOf w 0 || bitOf w 1)

/-- Is a partition a radio partition? -/
def radioPart (s : State) (p : Nat) : Bool := flag s (R.PART_CFG.EN p) && flag s (R.PART_CFG.RADIO p)

/-- A boundary begins the first slot of every radio partition for which all that R62 names came before it; one that is no radio partition
any more begins anew. -/
def slotsBegin (s : State) : State :=
  onSched s (fun d => { d with begun := (List.range 12).filter (fun p => radioPart s p && (d.begun.contains p || slotOpen s p)) })

/-- At S_n the stages of slot n whose model is absent fall back, in every radio partition that receives slots (R351, R266, R286). -/
def stagesBound (s : State) : State :=
  let n := fld s R.KSLOT_NUM.val % 65536
  let s := onSched s (fun d => { d with fell := d.fell.filter (fun x => x.1.2.2 ≠ (n + 32768) % 65536) })
  (List.range 12).foldl (fun s p =>
    if !radioPart s p ∨ !s.sched.begun.contains p then s
    else (List.range 16).foldl (fun s g => if modelAbsent s g then fallback s p g n true else s) s) s

/-- Everything that takes effect at the boundary whose nominal time is `phase`. -/
def boundaryWork (s : State) (phase : Nat) : State :=
  let epoch := fld s R.ADR_CHIP.MEPOCH
  let s := slotsBegin s
  let s := setFld s R.KSLOT_PHASE.val (phase + 500000)
  let s := overflowReports (sysrefPulse (bump s R.KSLOT_NUM.val) phase)
  let s := commandsDue (replaceCommit s) phase
  let s := removalBoundary (gateDue (overrunBoundary s))
  let s := radioBoundary (wakeBoundary s)
  let s := wadjBoundary (planeBoundary (planeBoundary (mapBoundary s) 0) 1)
  let s := kennelBoundary (domainBoundary s)
  let s := if fld s R.ADR_CHIP.MEPOCH ≠ epoch then domainNotice s else s
  enterBoundary (replaceBoundary (decide_ (stagesBound s)))

/-- SLOT_BOUNDARY (R333): `after` ticks later the time has reached KSLOT_PHASE. -/
def execSlotBoundary (after : Nat) (s : State) : Host.Outcome State Fault Refusal :=
  let s := advance s after
  let phase := fld s R.KSLOT_PHASE.val
  if s.time.running ∧ due s phase then finish (boundaryWork s phase) else finish s

end Sys2Proof.Machine
end

