-- ==== Sys2Proof/Machine/Dma.lean ====
section
/-!
DEFINITION. Tile DMA and IMLOAD (R183 to R187, R93, R179).
-/
namespace Sys2Proof.Machine

/-! ### The descriptor (Table 6-2) -/

/-- A field of a descriptor. -/
def df (d : List Byte) (byte n hi lo : Nat) : Nat := bitsOf (fieldLE d byte n) hi lo

def dmaKind (d : List Byte) : Nat := df d 8 8 51 49
def dmaRowBytes (d : List Byte) : Nat := df d 0x10 8 23 0
def dmaRows (d : List Byte) : Nat := df d 0x10 8 39 24 + 1
def dmaSrcStride (d : List Byte) : Int := signed 32 (df d 0x18 8 31 0)
def dmaDstStride (d : List Byte) : Int := signed 32 (df d 0x18 8 63 32)

/-- A global address with its chip replaced where the LOCAL bit is set. -/
def dmaGa (s : State) (x : Nat) : Nat := if bitOf x 48 then ownGa s (bitsOf x 43 0) else bitsOf x 47 0

def dmaSrc (s : State) (d : List Byte) : Nat := dmaGa s (fieldLE d 0 8)

/-- The destination: a global address, or an offset of the rescale table or IMEM, to which DST_LOCAL means nothing. -/
def dmaDst (s : State) (d : List Byte) : Nat := if dmaKind d = 0 then dmaGa s (fieldLE d 8 8) else df d 8 8 47 0

/-- The bounding range of rows: first byte and the byte after the last. -/
def dmaBound (d : List Byte) (base : Nat) (stride : Int) : Int × Int :=
  let last := stride * ((dmaRows d : Int) - 1)
  ((base : Int) + min 0 last, (base : Int) + max 0 last + dmaRowBytes d)

/-- Do two ranges overlap? -/
def rangesMeet (a b : Int × Int) : Bool := a.1 < b.2 && b.1 < a.2

/-- Is a copied descriptor bad (Table 6-3)? -/
def dmaBad (s : State) (d : List Byte) (imload : Bool) : Bool :=
  let kind := dmaKind d
  let dst := dmaBound d (dmaDst s d) (dmaDstStride d)
  2 < kind || (kind = 2) ≠ imload || dmaRowBytes d = 0 || dmaRowBytes d % 4 ≠ 0 ||
    dmaSrc s d % 4 ≠ 0 || dmaDst s d % 4 ≠ 0 ||
    (kind = 0 && rangesMeet (dmaBound d (dmaSrc s d) (dmaSrcStride d)) dst) ||
    (kind = 1 && (dst.1 < 0 || 0x4000 < dst.2)) ||
    (kind = 2 && (dst.1 < 0 || 0x20000 < dst.2 || dmaRowBytes d % 8 ≠ 0 || dmaDst s d % 8 ≠ 0 || dmaDstStride d % 8 ≠ 0))

/-- DMA or IMLOAD issues (R184): the status and the state after it. -/
def dmaIssue (s : State) (c ea tag : Nat) (imload : Bool) : Nat × State :=
  let s := descUnmapped s c ea
  if ea / 2 ^ 28 ≠ 0 ∨ ea % 64 ≠ 0 then (2, s)
  else
    match tileRead s c ea 64 with
    | none => (2, s)
    | some (d, poison) =>
      if poison ∨ dmaBad s d imload then (2, s)
      else if 8 ≤ (core s c).dmas.length then (1, s)
      else (0, onCore s c (fun k => { k with dmas := k.dmas ++ [⟨d, tag % 2 ^ 16, imload⟩] }))

/-! ### The transfer (R185 to R187) -/

/-- Write bytes of a core's IMEM. The bundles already in the fetch queue execute the old content (R92, R93). -/
def imemWrite (s : State) (c off : Nat) (d : List Byte) (poison : Bool) : State :=
  let old := (List.range d.length).map (fun i => (off + i, byteAt s (imemAddr c (off + i)), 4))
  writeMem (onCore s c (fun k => { k with stale := k.stale ++ old })) (imemAddr c off) d poison

/-- Write bytes of the rescale table (R161). -/
def rescWrite (s : State) (c off : Nat) (d : List Byte) (poison : Bool) : State :=
  let s := onCore s c (fun k => { k with
    rescale := forN (d.length / 4) (fun i t => tabSet t (off / 4 + i) (BitVec.ofNat 32 (fieldLE d (4 * i) 4))) k.rescale })
  let s := cleanRange s (rescAddr c off) d.length
  if poison then poisonRange s (rescAddr c off) d.length else s

/-- Write one destination unit of a row. -/
def dmaPut (s : State) (c kind dst : Nat) (d : List Byte) (poison : Bool) : Res Unit :=
  if kind = 0 then writeUnit s (.dma c) dst d poison
  else if kind = 1 then .ok () (rescWrite s c dst d poison)
  else .ok () (imemWrite s c dst d poison)

/-- An unmapped access of a transfer is reported, with its address. -/
def unmappedAt {α : Type} (w : Who) (ga : Nat) : Res α → Res α
  | .unmapped s => .unmapped (reportUnmapped s w ga 1)
  | r => r

/-- Move one row, by destination units of 128 bytes in ascending order. -/
def dmaRow (s : State) (c kind src dst n : Nat) : Res Unit :=
  (unitPieces dst n).foldl (fun r p => r.andThen (fun _ s =>
    (unmappedAt (.dma c) (src + p.1) (readRange s (.dma c) (src + p.1) p.2)).andThen (fun e s =>
      unmappedAt (.dma c) (dst + p.1) (dmaPut s c kind (dst + p.1) e.1 e.2)))) (.ok () s)

/-- Move every row in ascending order. -/
def dmaMove (s : State) (c : Nat) (d : List Byte) : Res Unit :=
  let at_ (base : Nat) (stride : Int) (i : Nat) : Nat := wrapTo 48 ((base : Int) + stride * i)
  (List.range (dmaRows d)).foldl (fun r i => r.andThen (fun _ s =>
    dmaRow s c (dmaKind d) (at_ (dmaSrc s d) (dmaSrcStride d) i) (at_ (dmaDst s d) (dmaDstStride d) i) (dmaRowBytes d)))
    (.ok () s)

/-- Remove the `i`th outstanding operation of a core. -/
def dropDma (s : State) (c i : Nat) : State := onCore s c (fun k => { k with dmas := k.dmas.eraseIdx i })

/-- A range of bytes widened to whole 128-byte rows. -/
def rowsOf (r : Int × Int) : Int × Int := (r.1 / 128 * 128, (r.2 + 127) / 128 * 128)

/-- The ranges that an outstanding operation tracks (R189): source, and destination in memory (`false`) or in IMEM (`true`). The rescale
table is not tracked (R190). -/
def DmaOp.ranges (s : State) (o : DmaOp) : List (Bool × (Int × Int)) :=
  let src := (false, rowsOf (dmaBound o.desc (dmaSrc s o.desc) (dmaSrcStride o.desc)))
  let dst := rowsOf (dmaBound o.desc (dmaDst s o.desc) (dmaDstStride o.desc))
  if dmaKind o.desc = 1 then [src] else [src, (dmaKind o.desc = 2, dst)]

/-- Must an access of the core to `n` bytes wait for an outstanding operation (R189)? -/
def dmaHolds (s : State) (c : Nat) (imem : Bool) (a n : Nat) : Bool :=
  (core s c).dmas.any (fun o => (o.ranges s).any (fun r => r.1 = imem && rangesMeet r.2 (rowsOf (a, (a : Int) + n))))

/-- Must the outstanding operation `i` wait for an earlier one of its core (R189)? -/
def dmaWaits (s : State) (c i : Nat) (o : DmaOp) : Bool :=
  ((core s c).dmas.take i).any (fun e =>
    (e.ranges s).any (fun x => (o.ranges s).any (fun y => x.1 = y.1 && rangesMeet x.2 y.2)))

/-- The outstanding operation `i` of a core runs to its end. An unmapped access ends it there, and the task's status becomes ABORTED
(Table 1-6). One that waits for a line of another chip, or for an earlier operation (R189), stays outstanding. -/
def dmaComplete (s : State) (c i : Nat) : State :=
  match (core s c).dmas[i]? with
  | none => s
  | some o =>
    if dmaWaits s c i o then s
    else
    match dmaMove s c o.desc with
    | .ok _ s => signalDone (dropDma s c i) (df o.desc 0x20 2 15 15 = 1) (df o.desc 0x20 2 13 0) (.dma c)
    | .unmapped s => onCore (dropDma s c i) c (fun k => { k with abortCause := k.abortCause.or (some 5) })
    | .wait s => s

/-! ### Meanings -/

/-- DMA_COMPLETE (R186): the outstanding operation `i` of core `c`, counting from the oldest, completes. -/
def execDmaComplete (c i : Nat) (s : State) : Host.Outcome State Fault Refusal :=
  if c < 96 then finish (dmaComplete s c i) else .fault .absentUnit

end Sys2Proof.Machine
end

