-- ==== Sys2Proof/Machine/PilotOp.lean ====
section
/-!
DEFINITION. Pilot operations and their 32-bit encoding (R66 to R76, R80, R82, R94, R96, R109 to R116, R120, R122, R123): Tables 3-2
to 3-5 and 4-3 to 4-6. Fields that an operation does not use, and reserved bits, are dropped (R8, R68).
-/
namespace Sys2Proof.Machine

/-- Class 0x1 functions (R71), in the order of their codes. -/
inductive AluOp where
  | add | sub | addu | subu | and | or | xor | sll | srl | sra | slt | sltu | min | max | minu | maxu | abs | neg | clz | mul | mulh
  | mulhu | packh
deriving DecidableEq, Repr

/-- Class 0x2 functions (R71), in the order of their codes. -/
inductive ImmOp where
  | addi | andi | ori | xori | slli | srli | srai | slti | sltiu | mini | maxi
deriving DecidableEq, Repr

/-- Class 0x4 functions (Table 3-4), in the order of their codes. -/
inductive DspOp where
  | mpy | mac | msu | dmac | ext | ext16 | mulq | aclr | ald | ahi
deriving DecidableEq, Repr

/-- Fence kinds (Table 6-4), in the order of their codes. -/
inductive FenceOp where
  | full | release | acquire | dma
deriving DecidableEq, Repr

/-- Class 0xC operations (R94), in the order of their codes. -/
inductive EngOp where
  | lrpass | dma | imload | qsend | qrecv | ssig | swait
deriving DecidableEq, Repr

/-- Class 0x9 kinds (R80), in the order of their codes. -/
inductive JumpOp where
  | j | jal | jr | jalr
deriving DecidableEq, Repr

/-- Integer vector functions (Table 4-4), in the order of their codes. -/
inductive VIntOp where
  | add | adds | sub | subs | addus | subus | mul | mulh | mulhu | mulq | mulqs | mac | macs | min | max | minu | maxu | and | or | xor
  | sll | srl | sra | srar | abs | abss | mov
deriving DecidableEq, Repr

/-- Float vector functions (Table 4-4), in the order of their codes. -/
inductive VFltOp where
  | add | sub | mul | fma | min | max | abs | neg | rcpe | rsqe | mov
deriving DecidableEq, Repr

/-- VPERM operations (R116), in the order of their codes. -/
inductive VPermOp where
  | bcast | slideup | slidedn | perm
deriving DecidableEq, Repr

/-- VMASK operations (R116), in the order of their codes. -/
inductive VMaskOp where
  | kand | kor | kxor | kandn | kpopc | kfirst | ktos | stok
deriving DecidableEq, Repr

/-- The function that a code selects in a list of functions in code order. -/
def ofCode {α : Type} (l : List α) (c : Nat) : Option α := l[c]?

def AluOp.all : List AluOp :=
  [.add, .sub, .addu, .subu, .and, .or, .xor, .sll, .srl, .sra, .slt, .sltu, .min, .max, .minu, .maxu, .abs, .neg, .clz, .mul, .mulh,
    .mulhu, .packh]
def ImmOp.all : List ImmOp := [.addi, .andi, .ori, .xori, .slli, .srli, .srai, .slti, .sltiu, .mini, .maxi]
def DspOp.all : List DspOp := [.mpy, .mac, .msu, .dmac, .ext, .ext16, .mulq, .aclr, .ald, .ahi]
def FenceOp.all : List FenceOp := [.full, .release, .acquire, .dma]
def EngOp.all : List EngOp := [.lrpass, .dma, .imload, .qsend, .qrecv, .ssig, .swait]
def JumpOp.all : List JumpOp := [.j, .jal, .jr, .jalr]
def VIntOp.all : List VIntOp :=
  [.add, .adds, .sub, .subs, .addus, .subus, .mul, .mulh, .mulhu, .mulq, .mulqs, .mac, .macs, .min, .max, .minu, .maxu, .and, .or, .xor,
    .sll, .srl, .sra, .srar, .abs, .abss, .mov]
def VFltOp.all : List VFltOp := [.add, .sub, .mul, .fma, .min, .max, .abs, .neg, .rcpe, .rsqe, .mov]
def VPermOp.all : List VPermOp := [.bcast, .slideup, .slidedn, .perm]
def VMaskOp.all : List VMaskOp := [.kand, .kor, .kxor, .kandn, .kpopc, .kfirst, .ktos, .stok]

/-- A vector operation (Tables 4-3 and 4-5). Registers, widths (EW codes) and type codes are numbers as encoded. -/
inductive VecOp where
  | int (f : VIntOp) (a : VArgs)
  | flt (f : VFltOp) (a : VArgs)
  | ld (vd base stride ew km : Nat) (mz : Bool)
  | st (vs base stride ew km : Nat)
  | gather (vd base vi ew km : Nat) (mz : Bool)
  | scatter (vs base vi ew km : Nat)
  | cvt (vd vs1 srcf dstf : Nat) (sat : Bool) (part : Nat)
  | cmp (kd vs1 v2 : Nat) (src : Bool) (ty cond : Nat)
  | red (rd vs1 km ty op : Nat)
  | perm (f : VPermOp) (vd vs1 r ew : Nat)
  | mask (f : VMaskOp) (kd ka kb r part : Nat)
  | movs (v r idx ew : Nat) (toV : Bool)
deriving DecidableEq, Repr

/-- An operation of a bundle. Immediates stand as encoded. The file of an address operation is 0 A, 1 B, 2 L, 3 M. -/
inductive PilotOp where
  | nop
  | heel (tag : Nat)
  | ifence
  | fence (k : FenceOp)
  | rti
  | trap (code : Nat)
  | waiti
  | rbrk
  | alu (f : AluOp) (sat : Bool) (rd rs1 rs2 : Nat)
  | alui (f : ImmOp) (sat : Bool) (rd rs1 imm : Nat)
  | lui (rd imm : Nat)
  | dsp (f : DspOp) (sat : Bool) (rd rs1 rs2 acc : Nat) (q h1 h2 : Bool)
  | load (rd an mode size : Nat) (sg imem : Bool) (imm : Nat)
  | store (rs an mode size : Nat) (imem : Bool) (imm : Nat)
  | amov (file n rs1 : Nat)
  | aaddi (n imm : Nat)
  | aaddm (n m : Nat)
  | mfa (rd file n : Nat)
  | branch (cond rs1 rs2 off : Nat)
  | jump (k : JumpOp) (rs1 target : Nat)
  | rep (src : Bool) (count rs1 len : Nat)
  | vec (v : VecOp)
  | eng (f : EngOp) (row rs1 rs2 rd : Nat)
  | mfs (rd index : Nat)
  | mts (rs index : Nat)
  | illegal
deriving DecidableEq, Repr

/-- IMM12 of a load or store as its mode uses it (R74). -/
def immOfMode (mode imm : Nat) : Nat := if mode = 2 ∨ mode = 4 then imm % 8 else if mode = 5 then imm % 32 else imm

/-- Class 0x0 (R69). -/
def decodeCtl (w : Nat) : PilotOp :=
  match bitsOf w 27 24 with
  | 0 => .nop
  | 1 => .heel (bitsOf w 11 0)
  | 2 => .ifence
  | 3 => match ofCode FenceOp.all (bitsOf w 3 0) with
    | some k => .fence k
    | none => .illegal
  | 4 => .rti
  | 5 => .trap (bitsOf w 11 0)
  | 6 => .waiti
  | 7 => .rbrk
  | _ => .illegal

/-- Class 0x1 (R71): the functions of one operand have no RS2. -/
def decodeAlu (w : Nat) : PilotOp :=
  match ofCode AluOp.all (bitsOf w 5 0) with
  | some f => .alu f (bitOf w 27) (bitsOf w 26 22) (bitsOf w 21 17) (if f = .abs ∨ f = .neg ∨ f = .clz then 0 else bitsOf w 16 12)
  | none => .illegal

/-- Class 0x4 (Table 3-4): each function with the fields it uses. -/
def decodeDsp (w : Nat) : PilotOp :=
  let sat := bitOf w 27
  let rd := bitsOf w 26 22
  let rs1 := bitsOf w 21 17
  let rs2 := bitsOf w 16 12
  let acc := bitsOf w 7 6
  let q := bitOf w 5
  match ofCode DspOp.all (bitsOf w 11 8) with
  | none => .illegal
  | some .dmac => .dsp .dmac sat 0 rs1 rs2 acc q false false
  | some .ext => .dsp .ext sat rd 0 rs2 acc false false false
  | some .ext16 => .dsp .ext16 sat rd 0 rs2 acc false false false
  | some .mulq => .dsp .mulq sat rd rs1 rs2 0 false false false
  | some .aclr => .dsp .aclr sat 0 0 0 acc false false false
  | some .ald => .dsp .ald sat 0 rs1 0 acc false false false
  | some .ahi => .dsp .ahi sat rd 0 0 acc false false false
  | some f => .dsp f sat 0 rs1 rs2 acc q (bitOf w 4) (bitOf w 3)

/-- Classes 0x5 and 0x6 (R74, R76): reserved sizes and modes, and an IMEM access other than SIZE 2, are illegal. -/
def decodeMem (w : Nat) (isLoad : Bool) : PilotOp :=
  let mode := bitsOf w 18 16
  let size := bitsOf w 15 14
  let imem := bitOf w 12
  let imm := immOfMode mode (bitsOf w 11 0)
  if size = 3 ∨ 6 ≤ mode ∨ (imem ∧ size ≠ 2) then .illegal
  else if isLoad then .load (bitsOf w 26 22) (bitsOf w 21 19) mode size (bitOf w 13) imem imm
  else .store (bitsOf w 26 22) (bitsOf w 21 19) mode size imem imm

/-- Class 0x7 (R75). -/
def decodeAddr (w : Nat) : PilotOp :=
  let n := bitsOf w 24 22
  match bitsOf w 27 25 with
  | 4 => .aaddi n (bitsOf w 12 0)
  | 5 => .aaddm n (bitsOf w 2 0)
  | 6 => .mfa (bitsOf w 21 17) (bitsOf w 16 15) n
  | 7 => .illegal
  | f => .amov f n (bitsOf w 21 17)

/-- The VX layout (Table 4-5). -/
def decodeVx (w : Nat) : PilotOp :=
  let a := bitsOf w 20 16
  let b := bitsOf w 15 11
  let c := bitsOf w 10 6
  let ew := bitsOf w 5 4
  let km := bitsOf w 3 1
  let group := 2 ^ ew
  match bitsOf w 24 21 with
  | 0 => if ew = 3 ∧ c ≠ 0 then .illegal else .vec (.ld a b c ew km (bitOf w 0))
  | 1 => if ew = 3 ∧ c ≠ 0 then .illegal else .vec (.st a b c ew km)
  | 2 => if c % group ≠ 0 then .illegal else .vec (.gather a b c ew km (bitOf w 0))
  | 3 => if c % group ≠ 0 then .illegal else .vec (.scatter a b c ew km)
  | 4 => if 11 ≤ bitsOf w 10 7 ∨ 11 ≤ bitsOf w 6 3 then .illegal else .vec (.cvt a b (bitsOf w 10 7) (bitsOf w 6 3) (bitOf w 2) (bitsOf w 1 0))
  | 5 =>
    let ty := bitsOf w 6 4
    let cond := bitsOf w 3 1
    if ty = 7 ∨ 6 ≤ cond ∨ (4 ≤ ty ∧ cond = 5) then .illegal
    else .vec (.cmp (bitsOf w 20 18) (bitsOf w 17 13) (bitsOf w 12 8) (bitOf w 7) ty cond)
  | 6 =>
    let ty := bitsOf w 7 5
    let op := bitsOf w 4 2
    if ty = 7 ∨ 5 ≤ op ∨ (4 ≤ ty ∧ 3 ≤ op) then .illegal else .vec (.red a b (bitsOf w 10 8) ty op)
  | 7 =>
    match ofCode VPermOp.all km with
    | some f => .vec (.perm f a (if f = .bcast then 0 else b) c ew)
    | none => .illegal
  | 8 =>
    match ofCode VMaskOp.all (bitsOf w 6 4) with
    | some f =>
      let two : Bool := f = .kand || f = .kor || f = .kxor || f = .kandn
      let toS : Bool := f = .kpopc || f = .kfirst || f = .ktos
      .vec (.mask f (if toS then 0 else bitsOf w 20 18) (if f = .stok then 0 else bitsOf w 17 15) (if two then bitsOf w 14 12 else 0)
        (if two then 0 else bitsOf w 11 7) (if f = .ktos ∨ f = .stok then km else 0))
    | none => .illegal
  | 9 => .vec (.movs a b c ew (bitOf w 3))
  | _ => .illegal

/-- Class 0xB (R109 to R111). -/
def decodeVec (w : Nat) : PilotOp :=
  let ty := bitsOf w 27 25
  let a : VArgs := ⟨ty, bitsOf w 24 20, bitsOf w 19 15, bitsOf w 14 10, bitOf w 9, bitsOf w 8 6, bitOf w 5⟩
  if ty = 7 then decodeVx w
  else if ty < 4 then
    match ofCode VIntOp.all (bitsOf w 4 0) with
    | some f => if (f = .mulq ∨ f = .mulqs) ∧ 2 ≤ ty then .illegal else .vec (.int f a)
    | none => .illegal
  else
    match ofCode VFltOp.all (bitsOf w 4 0) with
    | some f => .vec (.flt f a)
    | none => .illegal

/-- The operation that a 32-bit word encodes (Tables 3-2 and 3-3). -/
def decodeOp (w : Nat) : PilotOp :=
  match bitsOf w 31 28 with
  | 0x0 => decodeCtl w
  | 0x1 => decodeAlu w
  | 0x2 =>
    match ofCode ImmOp.all (bitsOf w 16 13) with
    | some f => .alui f (bitOf w 27) (bitsOf w 26 22) (bitsOf w 21 17) (bitsOf w 12 0)
    | none => .illegal
  | 0x3 => .lui (bitsOf w 26 22) (bitsOf w 21 0)
  | 0x4 => decodeDsp w
  | 0x5 => decodeMem w true
  | 0x6 => decodeMem w false
  | 0x7 => decodeAddr w
  | 0x8 => if 6 ≤ bitsOf w 27 25 then .illegal else .branch (bitsOf w 27 25) (bitsOf w 21 17) (bitsOf w 16 12) (bitsOf w 11 0)
  | 0x9 =>
    match bitsOf w 27 26 with
    | 0 => .jump .j 0 (bitsOf w 13 0)
    | 1 => .jump .jal 0 (bitsOf w 13 0)
    | 2 => .jump .jr (bitsOf w 21 17) 0
    | _ => .jump .jalr (bitsOf w 21 17) 0
  | 0xA =>
    let src := bitOf w 27
    .rep src (if src then 0 else bitsOf w 26 11) (if src then bitsOf w 21 17 else 0) (bitsOf w 9 0 + 1)
  | 0xB => decodeVec w
  | 0xC =>
    match ofCode EngOp.all (bitsOf w 27 24) with
    | some f => .eng f (if f = .lrpass then bitsOf w 23 22 else 0) (bitsOf w 21 17) (bitsOf w 16 12) (bitsOf w 11 7)
    | none => .illegal
  | 0xD => if bitOf w 27 then .mts (bitsOf w 26 22) (bitsOf w 11 0) else .mfs (bitsOf w 26 22) (bitsOf w 11 0)
  | _ => .illegal

/-- The two operations of a bundle (R66). -/
def decodeBundle (w : Nat) : PilotOp × PilotOp := (decodeOp (w % 2 ^ 32), decodeOp (w / 2 ^ 32 % 2 ^ 32))

/-- May an operation stand in slot 0 (Table 3-2)? -/
def PilotOp.slot0Ok : PilotOp → Bool
  | .load .. => false
  | .store .. => false
  | .vec _ => false
  | .eng .. => false
  | _ => true

/-- May an operation stand in slot 1 (Table 3-2)? -/
def PilotOp.slot1Ok : PilotOp → Bool
  | .nop => true
  | .alu .. => true
  | .alui .. => true
  | .lui .. => true
  | .load .. => true
  | .store .. => true
  | .amov .. => true
  | .aaddi .. => true
  | .aaddm .. => true
  | .mfa .. => true
  | .vec _ => true
  | .eng .. => true
  | .illegal => true
  | _ => false

end Sys2Proof.Machine
end

