-- ==== Sys2Proof/Machine/Flags.lean ====
section
/-!
DEFINITION. Results of the arithmetic and DSP operations of Pilot with the sticky bits they set (R70 to R72), and the condition of a
branch (R80).
-/
namespace Sys2Proof.Machine

/-- A result: the value, and whether it sets PSTAT.OVF_STICKY or PSTAT.SAT_STICKY (R70). -/
structure AluRes where
  val : Nat
  ovf : Bool
  sat : Bool
deriving DecidableEq, Repr

/-- A result that cannot overflow. -/
def plainRes (v : Nat) : AluRes := ⟨v, false, false⟩

/-- An exact result brought into `w` bits with the range lo to hi under SAT (R70): wrapped, or clamped. -/
def rangeRes (w : Nat) (lo hi : Int) (sat : Bool) (v : Int) : AluRes :=
  if lo ≤ v ∧ v ≤ hi then plainRes (wrapTo w v)
  else if sat then ⟨wrapTo w (if v < lo then lo else hi), false, true⟩
  else ⟨wrapTo w v, true, false⟩

/-- An exact signed result in `w` bits (R70). -/
def signedRes (w : Nat) (sat : Bool) (v : Int) : AluRes := rangeRes w (-(2 ^ (w - 1))) (2 ^ (w - 1) - 1) sat v

/-- An exact unsigned result in `w` bits (R70). -/
def unsignedRes (w : Nat) (sat : Bool) (v : Int) : AluRes := rangeRes w 0 (2 ^ w - 1) sat v

/-- Leading zeros of a 32-bit word, 0 to 32 (R71). -/
def clz32 (x : Nat) : Nat := if x = 0 then 32 else 31 - Nat.log2 x

/-- The class 0x1 functions (R71) on 32-bit codes. -/
def aluRes (f : AluOp) (sat : Bool) (a b : Nat) : AluRes :=
  let x := signed 32 a
  let y := signed 32 b
  match f with
  | .add => signedRes 32 sat (x + y)
  | .sub => signedRes 32 sat (x - y)
  | .addu => unsignedRes 32 sat ((a : Int) + b)
  | .subu => unsignedRes 32 sat ((a : Int) - b)
  | .and => plainRes (a &&& b)
  | .or => plainRes (a ||| b)
  | .xor => plainRes (a ^^^ b)
  | .sll => plainRes (a * 2 ^ (b % 32) % 2 ^ 32)
  | .srl => plainRes (a / 2 ^ (b % 32))
  | .sra => plainRes (wrapTo 32 (x / 2 ^ (b % 32)))
  | .slt => plainRes (num (x < y))
  | .sltu => plainRes (num (a < b))
  | .min => plainRes (if x < y then a else b)
  | .max => plainRes (if x < y then b else a)
  | .minu => plainRes (min a b)
  | .maxu => plainRes (max a b)
  | .abs => signedRes 32 sat (if x < 0 then -x else x)
  | .neg => signedRes 32 sat (-x)
  | .clz => plainRes (clz32 a)
  | .mul => signedRes 32 sat (x * y)
  | .mulh => plainRes (wrapTo 32 (x * y / 2 ^ 32))
  | .mulhu => plainRes (a * b / 2 ^ 32)
  | .packh => plainRes (a % 2 ^ 16 + b % 2 ^ 16 * 2 ^ 16)

/-- The class 0x1 function that a class 0x2 function is with IMM13 in place of RS2 (R71). -/
def ImmOp.alu : ImmOp → AluOp
  | .addi => .add
  | .andi => .and
  | .ori => .or
  | .xori => .xor
  | .slli => .sll
  | .srli => .srl
  | .srai => .sra
  | .slti => .slt
  | .sltiu => .sltu
  | .mini => .min
  | .maxi => .max

/-- IMM13 as a class 0x2 function uses it: ANDI, ORI and XORI zero-extend it, the shifts take its low 5 bits, the others
sign-extend it (R71). -/
def immVal (f : ImmOp) (imm : Nat) : Nat :=
  match f with
  | .andi => imm
  | .ori => imm
  | .xori => imm
  | .slli => imm % 32
  | .srli => imm % 32
  | .srai => imm % 32
  | _ => wrapTo 32 (signed 13 imm)

/-- A product of signed halves, shifted left by one in Q mode (R72). -/
def halfProduct (q h1 h2 : Bool) (a b : Nat) : Int :=
  let x := signed 16 (if h1 then a / 2 ^ 16 else a)
  let y := signed 16 (if h2 then b / 2 ^ 16 else b)
  if q then 2 * (x * y) else x * y

/-- What a class 0x4 function does (Table 3-4): the new accumulator, or the value for RD. -/
inductive DspRes where
  | acc (r : AluRes)
  | rd (r : AluRes)
deriving DecidableEq, Repr

/-- The class 0x4 functions on 32-bit codes and a 40-bit accumulator; `shift` is the SHIFT field (R70, R72, Table 3-4). -/
def dspRes (f : DspOp) (sat q h1 h2 : Bool) (a b acc shift : Nat) : DspRes :=
  let z := signed 40 acc
  let ext := divHalfEven z (2 ^ shift)
  match f with
  | .mpy => .acc (signedRes 40 sat (halfProduct q h1 h2 a b))
  | .mac => .acc (signedRes 40 sat (z + halfProduct q h1 h2 a b))
  | .msu => .acc (signedRes 40 sat (z - halfProduct q h1 h2 a b))
  | .dmac => .acc (signedRes 40 sat (z + halfProduct q false false a b + halfProduct q true true a b))
  | .ext => .rd (signedRes 32 sat ext)
  | .ext16 => let r := signedRes 16 sat ext; .rd { r with val := wrapTo 32 (signed 16 r.val) }
  | .mulq => .rd (signedRes 32 sat (divHalfEven (signed 32 a * signed 32 b) (2 ^ 31)))
  | .aclr => .acc (plainRes 0)
  | .ald => .acc (plainRes (wrapTo 40 (signed 32 a)))
  | .ahi => .rd (plainRes (wrapTo 32 (signed 8 (acc / 2 ^ 32))))

/-- Does a class 0x8 condition hold (R80)? -/
def condHolds (cond a b : Nat) : Bool :=
  match cond with
  | 0 => a = b
  | 1 => a ≠ b
  | 2 => signed 32 a < signed 32 b
  | 3 => signed 32 b ≤ signed 32 a
  | 4 => a < b
  | _ => b ≤ a

end Sys2Proof.Machine
end

