-- ==== Sys2Proof/Machine/Operands.lean ====
section
/-!
DEFINITION. Operand forms of Pilot: scalar registers, effective addresses and the global addresses they map to (R73, R74), circular
updates (R75), and element addresses of vector accesses (R122, R123).
-/
namespace Sys2Proof.Machine

/-- A scalar register as a number. -/
def Core.sval (k : Core) (i : Nat) : Nat := (k.sreg i).toNat

/-- An accumulator. -/
def Core.accVal (k : Core) (i : Nat) : Nat := (tabGet k.acc i 0).toNat

/-- A register of the A, B, L or M file (0 to 3), R64. -/
def Core.aval (k : Core) (file i : Nat) : Nat :=
  match file with
  | 0 => (tabGet k.a i 0).toNat
  | 1 => (tabGet k.b i 0).toNat
  | 2 => (tabGet k.l i 0).toNat
  | _ => (tabGet k.m i 0).toNat

/-- M_i as a signed offset. -/
def Core.mval (k : Core) (i : Nat) : Int := signed 32 (k.aval 3 i)

/-- A circular update of A_n by d bytes (R75). -/
def Core.circular (k : Core) (n : Nat) (d : Int) : Nat :=
  let a : Int := k.aval 0 n
  let b : Int := k.aval 1 n
  let l : Int := k.aval 2 n
  if l = 0 then wrapTo 32 (a + d) else wrapTo 32 (b + (a - b + d) % l)

/-- The address that a load or store uses, and A_n afterwards where the mode updates it (Table 3-5). -/
def Core.memAddr (k : Core) (an mode size imm : Nat) : Nat × Option Nat :=
  let a := k.aval 0 an
  let d : Int := signed 12 imm * 2 ^ size
  match mode with
  | 0 => (wrapTo 32 ((a : Int) + d), none)
  | 1 => (a, some (wrapTo 32 ((a : Int) + d)))
  | 2 => (a, some (wrapTo 32 ((a : Int) + k.mval (imm % 8))))
  | 3 => (a, some (k.circular an d))
  | 4 => (a, some (k.circular an (k.mval (imm % 8))))
  | _ => ((a + k.sval (imm % 32)) % 2 ^ 32, none)

/-- The global address of an effective address (R73), or none where it has none. -/
def eaGa (s : State) (c : Nat) (ea : Nat) : Option Nat :=
  let w := ea / 2 ^ 28
  if w = 0 then
    if ea / 2 ^ 21 ≠ 0 ∨ 0x180000 ≤ ea then none else some (ownGa s (tileAddr c ea))
  else
    let k := core s c
    let ga := k.sysFld (R.XW.GA_HI (w - 1)) * 2 ^ 28 + ea % 2 ^ 28
    some (if k.sysFlag (R.XW.LOCAL (w - 1)) then ownGa s (ga % 2 ^ 44) else ga)

/-- The address that an ADDR_UNMAPPED event carries for an effective address: its global address, or the place in the issuing core's
window that the address would have (R31, R73). -/
def eaReport (s : State) (c : Nat) (ea : Nat) : Nat := (eaGa s c ea).getD (ownGa s (tileAddr c (ea % 2 ^ 28)))

/-- Does a range of bytes lie in the core's own tile memory? -/
def ownRange (s : State) (c : Nat) (ga : Nat) : Bool :=
  ownGa s (tileAddr c 0) ≤ ga && ga < ownGa s (tileAddr c 0x180000)

/-- The effective address of element `i` of a VLD or VST with element width code `ew` (R104, R122). -/
def strideEa (k : Core) (base stride ew i : Nat) : Nat :=
  let w := 32 / 2 ^ ew
  if stride = 0 then (k.sval base + i * w / 8) % 2 ^ 32
  else wrapTo 32 ((k.sval base : Int) + (i : Int) * signed 32 (k.sval stride))

end Sys2Proof.Machine
end

