-- ==== Sys2Proof/Machine/Effect.lean ====
section
/-!
DEFINITION. What the operations of a bundle give: register writes with their visibility (Table 3-6), traps (Table 3-8) and freezes.
-/
namespace Sys2Proof.Machine

/-- A trap: its CODE and the address it records in FAULT_ADDR, where it has one (Table 3-8, Table 3-9). -/
structure Trap where
  code : Nat
  addr : Option Nat
deriving DecidableEq, Repr

/-- A register write that the next bundle sees: an S register, an accumulator, or a register of the A, B, L or M file (0 to 3). -/
inductive RegW where
  | s (i v : Nat)
  | acc (i v : Nat)
  | file (f n v : Nat)
deriving DecidableEq, Repr

/-- What an operation does beside memory and units: writes seen at once, delayed writes (R78), sticky bits (R70), and cycles beyond the
bundle's own. -/
structure Eff where
  puts : List RegW
  later : List DWrite
  ovf : Bool
  sat : Bool
  cost : Nat
deriving DecidableEq, Repr

/-- No effect. -/
def Eff.nil : Eff := ⟨[], [], false, false, 0⟩

/-- What the slot-1 operation of a bundle gives: it is done; it traps; the pipeline freezes and the bundle issues again; or Pilot blocks
on it. -/
inductive Issued where
  | done (e : Eff) (s : State)
  | trap (t : Trap) (s : State)
  | hold (s : State)
  | block (r : Run) (s : State)

/-- Make a register write. -/
def RegW.put (k : Core) : RegW → Core
  | .s i v => k.setSreg i (BitVec.ofNat 32 v)
  | .acc i v => { k with acc := tabSet k.acc i (BitVec.ofNat 40 v) }
  | .file 0 n v => { k with a := tabSet k.a n (BitVec.ofNat 32 v) }
  | .file 1 n v => { k with b := tabSet k.b n (BitVec.ofNat 32 v) }
  | .file 2 n v => { k with l := tabSet k.l n (BitVec.ofNat 32 v) }
  | .file _ n v => { k with m := tabSet k.m n (BitVec.ofNat 32 v) }

/-- The register of a write and the bundles until it is visible (R79): 0 names the next bundle. S_0 is no register (R65). -/
def RegW.dest : RegW → Option (Nat × Nat × Nat)
  | .s i _ => if i = 0 then none else some (0, i, 0)
  | .acc i _ => some (1, i, 0)
  | .file f n _ => some (2 + f, n, 0)

/-- The registers an operation writes, with when. -/
def Eff.dests (e : Eff) : List (Nat × Nat × Nat) :=
  e.puts.filterMap RegW.dest ++ e.later.filterMap (fun d => if d.dest = 0 then none else some (0, d.dest, d.left))

/-- A value for an S register that the next bundle sees. -/
def Eff.s (i v : Nat) : Eff := { Eff.nil with puts := [.s i v] }

/-- The cycles of an access that freezes the pipeline (R77, R130): no figure is given (log entry 11). -/
def freeze (s : State) : Nat × State := (Config.freezeCycles s.fresh, tickFresh s)

end Sys2Proof.Machine
end

