-- ==== Sys2Proof/Machine/Vector.lean ====
section
/-!
DEFINITION. The vector engine (R102 to R135).
-/
namespace Sys2Proof.Machine

/-! ### Registers, elements and masks (R102, R103, R117) -/

/-- A vector register as a number of 1024 bits. -/
def Core.vreg (k : Core) (r : Nat) : Nat := (tabGet k.v r 0).toNat

/-- A mask register as a number of 256 bits. -/
def Core.kreg (k : Core) (r : Nat) : Nat := (tabGet k.k r 0).toNat

/-- Element `i` of width `w` (R103). -/
def elemAt (x w i : Nat) : Nat := bitsOf x (i * w + w - 1) (i * w)

/-- A register with element `i` replaced. -/
def putElem (x w i v : Nat) : Nat := putBits x (i * w + w - 1) (i * w) v

/-- Write a vector register; the slices that are written get good parity (R134). -/
def Core.setV (k : Core) (r x : Nat) (slices : List Nat) : Core :=
  { k with
    v := tabSet k.v r (BitVec.ofNat 1024 x), vparity := k.vparity.filter (fun p => !(p / 32 = r && slices.contains (p % 32))) }

/-- Write a mask register. -/
def Core.setK (k : Core) (r x : Nat) : Core := { k with k := tabSet k.k r (BitVec.ofNat 256 x) }

/-- The effective length for `count` elements (R117, R132). -/
def Core.vlen (k : Core) (count : Nat) : Nat := min (k.sysFld R.VL.COUNT) count

/-- The processed elements, in rising order (R117). -/
def Core.vproc (k : Core) (count : Nat) : List Nat :=
  (List.range (k.vlen count)).filter (fun i => k.sysFld R.VSTART.INDEX ≤ i)

/-- Does the mask of an instruction leave an element active (R117)? -/
def Core.vactive (k : Core) (km i : Nat) : Bool := km = 0 || bitOf (k.kreg km) i

/-- The slice that element `i` of width `w` lies in. -/
def vslice (w i : Nat) : Nat := i * w / 32

/-- The first register slice with a parity error among those an instruction reads (R134). -/
def Core.badSlice (k : Core) (reads : List (Nat × Nat)) : Option (Nat × Nat) :=
  if k.vparity = [] then none else reads.find? (fun p => k.vparity.contains (32 * p.1 + p.2))

/-- Every slice of a register. -/
def wholeReg (r : Nat) : List (Nat × Nat) := (List.range 32).map (fun n => (r, n))

/-- The flags of an instruction join VFLAG (R108). -/
def Core.addFlags (k : Core) (fl : Flags) : Core :=
  let k := if fl.sat then k.setSys R.VFLAG.SAT 1 else k
  let k := if fl.invalid then k.setSys R.VFLAG.INVALID 1 else k
  let k := if fl.overflow then k.setSys R.VFLAG.OVERFLOW 1 else k
  if fl.underflow then k.setSys R.VFLAG.UNDERFLOW 1 else k

/-- A vector instruction completes: VSTART becomes 0 (R119). -/
def vDone (s : State) (c : Nat) (f : Core → Core) (fl : Flags) (e : Eff) : Issued :=
  .done e (onCore s c (fun k => ((f k).addFlags fl).setSys R.VSTART.INDEX 0))

/-- An instruction that reads a bad slice writes nothing and takes VECTOR_FAULT with VFAULT_CAUSE 3; the error is reported (R134). -/
def vChecked (s : State) (c : Nat) (reads : List (Nat × Nat)) (go : Issued) : Issued :=
  match (core s c).badSlice reads with
  | none => go
  | some (r, n) =>
    let s := onCore s c (fun k => k.setSys R.VFAULT_CAUSE.val 3)
    .trap ⟨8, none⟩ (report (bumpSat s R.INT_VRF_PARITY.val) 0x0206 c [c, r, n])

/-! ### Element functions (R111 to R115) -/

/-- A result that cannot saturate. -/
def noFlags (v : Nat) : Nat × Flags := (v, Flags.zero)

/-- Clamp to `w` signed bits; clamping sets SAT. -/
def satS (w : Nat) (v : Int) : Nat × Flags := let r := clampS w v; (r.1, { Flags.zero with sat := r.2 })

/-- Clamp to `w` unsigned bits. -/
def satU (w : Nat) (v : Int) : Nat × Flags :=
  if v < 0 then (0, { Flags.zero with sat := true })
  else if 2 ^ w ≤ v then (2 ^ w - 1, { Flags.zero with sat := true })
  else noFlags v.toNat

/-- The integer functions of Table 4-4 on elements of width `w`; `d` is the destination element (R112, R113). -/
def vIntElem (f : VIntOp) (w d a b : Nat) : Nat × Flags :=
  let x := signed w a
  let y := signed w b
  match f with
  | .add => noFlags (wrapTo w (x + y))
  | .adds => satS w (x + y)
  | .sub => noFlags (wrapTo w (x - y))
  | .subs => satS w (x - y)
  | .addus => satU w ((a : Int) + b)
  | .subus => satU w ((a : Int) - b)
  | .mul => noFlags (a * b % 2 ^ w)
  | .mulh => noFlags (wrapTo w (x * y / 2 ^ w))
  | .mulhu => noFlags (a * b / 2 ^ w)
  | .mulq => noFlags (wrapTo w (divHalfEven (x * y) (2 ^ (w - 1))))
  | .mulqs => satS w (divHalfEven (x * y) (2 ^ (w - 1)))
  | .mac => noFlags (wrapTo w (signed w d + signed w (a * b)))
  | .macs => satS w (signed w d + signed w (a * b))
  | .min => noFlags (if x < y then a else b)
  | .max => noFlags (if x < y then b else a)
  | .minu => noFlags (min a b)
  | .maxu => noFlags (max a b)
  | .and => noFlags (a &&& b)
  | .or => noFlags (a ||| b)
  | .xor => noFlags (a ^^^ b)
  | .sll => noFlags (a * 2 ^ (b % w) % 2 ^ w)
  | .srl => noFlags (a / 2 ^ (b % w))
  | .sra => noFlags (wrapTo w (x / 2 ^ (b % w)))
  | .srar => noFlags (wrapTo w (divHalfEven x (2 ^ (b % w))))
  | .abs => noFlags (wrapTo w (if x < 0 then -x else x))
  | .abss => satS w (if x < 0 then -x else x)
  | .mov => noFlags b

/-- A code with NaN made canonical (R107). -/
def canonNan (f : FFmt) (x : Nat) : Nat := if fdecode f x = .nan then f.nan else x

/-- The float functions of Table 4-4 on elements of one format; FMA here is the FP32 form (R107, R114, R115). -/
def vFltElem (op : VFltOp) (f : FFmt) (ty d a b : Nat) : Nat × Flags :=
  let x := fdecode f a
  let y := fdecode f b
  let z := fdecode f d
  let neg (v : FVal) : FVal := match v with
    | .nan => .nan
    | .inf s => .inf !s
    | .fin s m e => .fin (!s) m e
  match op with
  | .add => fresult f (faddExact x y) [x, y]
  | .sub => fresult f (faddExact x (neg y)) [x, y]
  | .mul => fresult f (fmulExact x y) [x, y]
  | .fma => fresult f (faddExact (fmulExact x y) z) [x, y, z]
  | .min => noFlags (canonNan f (fminmax f false a b))
  | .max => noFlags (canonNan f (fminmax f true a b))
  | .abs => noFlags (if x = .nan then f.nan else a % f.signBit)
  | .neg => noFlags (if x = .nan then f.nan else (a + f.signBit) % 2 ^ f.width)
  | .rcpe => frcpe f ty a
  | .rsqe => frsqe f ty a
  | .mov => noFlags (canonNan f b)

/-- The width of an element type (R109). -/
def tyWidth (ty : Nat) : Nat :=
  match ty with
  | 0 => 32 | 1 => 16 | 2 => 8 | 3 => 4 | 4 => 32 | _ => 16

/-- The format of a float element type (R109). -/
def tyFmt (ty : Nat) : FFmt := if ty = 4 then fp32 else if ty = 5 then bf16 else fp16

/-- Element `i` of the second operand: of VS2, or the low bits of the broadcast S register (R110). -/
def Core.vsrc2 (k : Core) (w v2 : Nat) (src : Bool) (i : Nat) : Nat :=
  if src then k.sval v2 % 2 ^ w else elemAt (k.vreg v2) w i

/-- Results over the processed elements (R118): the new register, the flags and the slices written. -/
def vOver (k : Core) (w km : Nat) (mz : Bool) (old : Nat) (f : Nat → Nat × Flags) : Nat × Flags × List Nat :=
  (k.vproc (1024 / w)).foldl (fun r i =>
    if k.vactive km i then
      let v := f i
      (putElem r.1 w i v.1, r.2.1.join v.2, setAdd r.2.2 (vslice w i))
    else if mz then (putElem r.1 w i 0, r.2.1, setAdd r.2.2 (vslice w i))
    else r) (old, Flags.zero, [])

/-- The slices of some registers that the active elements of an instruction read. -/
def vReads (k : Core) (w km : Nat) (regs : List Nat) : List (Nat × Nat) :=
  regs.flatMap (fun r => ((k.vproc (1024 / w)).filter (k.vactive km)).map (fun i => (r, vslice w i)))

/-- An instruction of the VR layout with element results `f` of width `w` that reads `regs`. -/
def vElementwise (s : State) (c : Nat) (a : VArgs) (w : Nat) (regs : List Nat) (f : Nat → Nat × Flags) : Issued :=
  let k := core s c
  let r := vOver k w a.km a.mz (k.vreg a.vd) f
  vChecked s c (vReads k w a.km regs) (vDone s c (fun k => k.setV a.vd r.1 r.2.2) r.2.1 Eff.nil)

/-- MAC and MACS with TY 1 to 3 on INT32 element `i`: the packed group of its lane (R113). The broadcast is one packed group (R110). -/
def groupMac (k : Core) (sat : Bool) (a : VArgs) (i : Nat) : Nat × Flags :=
  let w := tyWidth a.ty
  let g1 := elemAt (k.vreg a.vs1) 32 i
  let g2 := k.vsrc2 32 a.v2 a.src i
  let sum := ((List.range (32 / w)).map (fun j => signed w (elemAt g1 w j) * signed w (elemAt g2 w j))).foldl (· + ·) 0
  let v := signed 32 (elemAt (k.vreg a.vd) 32 i) + sum
  if sat then satS 32 v else noFlags (wrapTo 32 v)

/-- FMA with TY 5 and 6 on FP32 element `i`: two exact products and one rounding (R114). -/
def pairFma (k : Core) (a : VArgs) (i : Nat) : Nat × Flags :=
  let f := tyFmt a.ty
  let x (j : Nat) := fdecode f (elemAt (k.vreg a.vs1) 16 j)
  let y (j : Nat) := fdecode f (k.vsrc2 16 a.v2 a.src j)
  let d := fdecode fp32 (elemAt (k.vreg a.vd) 32 i)
  fresult fp32 (fsumExact [d, fmulExact (x (2 * i)) (y (2 * i)), fmulExact (x (2 * i + 1)) (y (2 * i + 1))])
    [d, x (2 * i), y (2 * i), x (2 * i + 1), y (2 * i + 1)]

/-- Does an integer function use its first source, and its second? -/
def VIntOp.uses (f : VIntOp) : Bool × Bool :=
  match f with
  | .mov => (false, true)
  | .abs => (true, false)
  | .abss => (true, false)
  | _ => (true, true)

/-- Does a float function use its first source, and its second? -/
def VFltOp.uses (f : VFltOp) : Bool × Bool :=
  match f with
  | .mov => (false, true)
  | .abs => (true, false)
  | .neg => (true, false)
  | .rcpe => (true, false)
  | .rsqe => (true, false)
  | _ => (true, true)

/-- The vector registers an instruction of the VR layout reads. -/
def vArgReads (a : VArgs) (uses : Bool × Bool) (dst : Bool) : List Nat :=
  (if uses.1 then [a.vs1] else []) ++ (if uses.2 && !a.src then [a.v2] else []) ++ (if dst then [a.vd] else [])

/-- An integer instruction of the VR layout (R111 to R113). -/
def vecInt (s : State) (c : Nat) (f : VIntOp) (a : VArgs) : Issued :=
  let k := core s c
  let w := tyWidth a.ty
  let isMac : Bool := f = .mac || f = .macs
  let regs := vArgReads a f.uses isMac
  if isMac && a.ty ≠ 0 then vElementwise s c a 32 regs (groupMac k (f = .macs) a)
  else
    vElementwise s c a w regs (fun i =>
      vIntElem f w (elemAt (k.vreg a.vd) w i) (elemAt (k.vreg a.vs1) w i) (k.vsrc2 w a.v2 a.src i))

/-- A float instruction of the VR layout (R107, R111, R114, R115). -/
def vecFlt (s : State) (c : Nat) (f : VFltOp) (a : VArgs) : Issued :=
  let k := core s c
  let w := tyWidth a.ty
  let regs := vArgReads a f.uses (f = .fma)
  if f = .fma ∧ a.ty ≠ 4 then vElementwise s c a 32 regs (pairFma k a)
  else
    vElementwise s c a w regs (fun i =>
      vFltElem f (tyFmt a.ty) a.ty (elemAt (k.vreg a.vd) w i) (elemAt (k.vreg a.vs1) w i) (k.vsrc2 w a.v2 a.src i))

/-! ### Conversions, comparisons, reductions, permutations and masks (R116, R120, R121) -/

/-- Is a VCVT reserved (R120)? PART at or above the ratio, or a ratio of 8. -/
def vcvtBad (srcf dstf part : Nat) : Bool :=
  match fmtCode srcf, fmtCode dstf with
  | some x, some y =>
    let hi := max x.width y.width
    let lo := min x.width y.width
    hi / lo = 8 || hi / lo ≤ part
  | _, _ => true

/-- VCVT (R120, R121): unmasked, over N converted elements. -/
def vecCvt (s : State) (c vd vs1 srcf dstf : Nat) (sat : Bool) (part : Nat) : Issued :=
  let k := core s c
  match fmtCode srcf, fmtCode dstf with
  | some x, some y =>
    let n := 1024 / max x.width y.width
    let srcAt (i : Nat) : Nat := if x.width < y.width then part * n + i else i
    let dstAt (i : Nat) : Nat := if y.width < x.width then part * n + i else i
    let fromFlt : Bool := match x with
      | .flt _ => true
      | .fix _ _ => false
    let r := (k.vproc n).foldl (fun r i =>
      let v := nconvert y sat fromFlt (ndecode x (elemAt (k.vreg vs1) x.width (srcAt i)))
      (putElem r.1 y.width (dstAt i) v.1, r.2.1.join v.2, setAdd r.2.2 (vslice y.width (dstAt i))))
      (k.vreg vd, Flags.zero, ([] : List Nat))
    vChecked s c (wholeReg vs1) (vDone s c (fun k => k.setV vd r.1 r.2.2) r.2.1 Eff.nil)
  | _, _ => .trap ⟨1, none⟩ s

/-- A comparison of VCMP (R116). -/
def vCompare (ty cond a b : Nat) : Bool :=
  let w := tyWidth ty
  if ty < 4 then
    match cond with
    | 0 => a = b
    | 1 => a ≠ b
    | 2 => signed w a < signed w b
    | 3 => signed w a ≤ signed w b
    | 4 => a < b
    | _ => a ≤ b
  else
    let x := fdecode (tyFmt ty) a
    let y := fdecode (tyFmt ty) b
    let unord := x = .nan ∨ y = .nan
    let eq := ¬unord ∧ !fless x y ∧ !fless y x
    match cond with
    | 0 => eq
    | 1 => ¬eq
    | 2 => ¬unord ∧ fless x y
    | 3 => ¬unord ∧ !fless y x
    | _ => unord

/-- VCMP (R116): bit i of KD for each processed element. -/
def vecCmp (s : State) (c kd vs1 v2 : Nat) (src : Bool) (ty cond : Nat) : Issued :=
  let k := core s c
  let w := tyWidth ty
  let x := (k.vproc (1024 / w)).foldl (fun x i =>
    putBits x i i (num (vCompare ty cond (elemAt (k.vreg vs1) w i) (k.vsrc2 w v2 src i)))) (k.kreg kd)
  vChecked s c (vReads k w 0 ([vs1] ++ (if src then [] else [v2]))) (vDone s c (fun k => k.setK kd x) Flags.zero Eff.nil)

/-- The smallest power of two that is not below `n`. -/
def powerUp (n : Nat) : Nat := if n ≤ 1 then 1 else 2 ^ (Nat.log2 (n - 1) + 1)

/-- The fixed tree of VRED (R116): `fuel` levels halve the list. -/
def redTree (f : Nat → Nat → Nat × Flags) : Nat → List Nat → Flags → Nat × Flags
  | 0, l, fl => (l.headD 0, fl)
  | fuel + 1, l, fl =>
    let h := l.length / 2
    if h = 0 then (l.headD 0, fl)
    else
      let r := (List.zip (l.take h) (l.drop h)).map (fun p => f p.1 p.2)
      redTree f fuel (r.map Prod.fst) (r.foldl (fun g x => g.join x.2) fl)

/-- The step of a reduction on 32-bit codes: OP 0 SUM, 1 MIN, 2 MAX, 3 MINU, 4 MAXU. -/
def redStep (ty op a b : Nat) : Nat × Flags :=
  if ty < 4 then
    match op with
    | 0 => noFlags ((a + b) % 2 ^ 32)
    | 1 => noFlags (if signed 32 a < signed 32 b then a else b)
    | 2 => noFlags (if signed 32 a < signed 32 b then b else a)
    | 3 => noFlags (min a b)
    | _ => noFlags (max a b)
  else vFltElem (if op = 0 then .add else if op = 1 then .min else .max) fp32 4 0 a b

/-- An element as a reduction takes it: sign-extended, zero-extended for MINU and MAXU, or as FP32. -/
def redElem (ty op x : Nat) : Nat :=
  let w := tyWidth ty
  if ty < 4 then (if 3 ≤ op then x else wrapTo 32 (signed w x))
  else (nconvert (.flt fp32) false true (fdecode (tyFmt ty) x)).1

/-- The identity of a reduction (R116). -/
def redIdentity (ty op : Nat) : Nat :=
  let w := tyWidth ty
  if ty < 4 then
    match op with
    | 0 => 0
    | 1 => 2 ^ (w - 1) - 1
    | 2 => wrapTo 32 (-(2 ^ (w - 1)))
    | 3 => 2 ^ w - 1
    | _ => 0
  else if op = 0 then fp32.signBit else fp32.nan

/-- VRED (R116): the active elements of VS1 into an S register. -/
def vecRed (s : State) (c rd vs1 km ty op : Nat) : Issued :=
  let k := core s c
  let w := tyWidth ty
  let l := (k.vproc (1024 / w)).map (fun i =>
    if k.vactive km i then redElem ty op (elemAt (k.vreg vs1) w i) else redIdentity ty op)
  let l := l ++ List.replicate (powerUp l.length - l.length) (redIdentity ty op)
  let r := redTree (redStep ty op) 9 l Flags.zero
  let (n, s) := freeze s
  vChecked s c (vReads k w km [vs1]) (vDone s c id r.2 { Eff.s rd r.1 with cost := n })

/-- VPERM (R116): unmasked; VS1 is read before VD is written (R133). -/
def vecPerm (s : State) (c : Nat) (f : VPermOp) (vd vs1 r ew : Nat) : Issued :=
  let k := core s c
  let w := 32 / 2 ^ ew
  let count := 1024 / w
  let n := k.sval r
  let x := k.vreg vs1
  let val (i : Nat) : Option Nat := match f with
    | .bcast => some (n % 2 ^ w)
    | .slideup => if n ≤ i then some (elemAt x w (i - n)) else none
    | .slidedn => some (if i + n < count then elemAt x w (i + n) else 0)
    | .perm => some (elemAt x w (elemAt (k.vreg r) w i % count))
  let y := (k.vproc count).foldl (fun y i =>
    match val i with
    | some v => (putElem y.1 w i v, setAdd y.2 (vslice w i))
    | none => y) (k.vreg vd, ([] : List Nat))
  let reads := (if f = .bcast then [] else wholeReg vs1) ++ (if f = .perm then vReads k w 0 [r] else [])
  vChecked s c reads (vDone s c (fun k => k.setV vd y.1 y.2) Flags.zero Eff.nil)

/-- The lowest set bit of a number of 256 bits. -/
def lowestBit (x : Nat) : Option Nat := (List.range 256).find? (fun i => bitOf x i)

/-- VMASK (R116): on all 256 bits (R132). -/
def vecMask (s : State) (c : Nat) (f : VMaskOp) (kd ka kb r part : Nat) : Issued :=
  let k := core s c
  let a := k.kreg ka
  let b := k.kreg kb
  let toK (x : Nat) : Issued := vDone s c (fun k => k.setK kd x) Flags.zero Eff.nil
  let toS (v : Nat) : Issued := let (n, s) := freeze s; vDone s c id Flags.zero { Eff.s r v with cost := n }
  match f with
  | .kand => toK (a &&& b)
  | .kor => toK (a ||| b)
  | .kxor => toK (a ^^^ b)
  | .kandn => toK (a &&& (2 ^ 256 - 1 - b))
  | .kpopc => toS ((List.range (k.vlen 256)).filter (fun i => bitOf a i)).length
  | .kfirst => toS (match lowestBit a with
    | some i => i
    | none => 2 ^ 32 - 1)
  | .ktos => toS (bitsOf a (32 * part + 31) (32 * part))
  | .stok => toK (putBits (k.kreg kd) (32 * part + 31) (32 * part) (k.sval r))

/-- VMOVS (R116): one element to or from an S register, whatever VL, VSTART and masks hold. -/
def vecMovs (s : State) (c v r idx ew : Nat) (toV : Bool) : Issued :=
  let k := core s c
  let w := 32 / 2 ^ ew
  let j := k.sval idx % (1024 / w)
  if toV then
    vDone s c (fun k => k.setV v (putElem (k.vreg v) w j (k.sval r)) [vslice w j]) Flags.zero Eff.nil
  else
    let (n, s) := freeze s
    vChecked s c [(v, vslice w j)]
      (vDone s c id Flags.zero { Eff.s r (wrapTo 32 (signed w (elemAt (k.vreg v) w j))) with cost := n })

/-! ### Memory (R122 to R128) -/

/-- What one element access gives: the data read and whether it was poisoned, a fault with its VFAULT_CAUSE, or a wait. -/
inductive ElemRes where
  | ok (v : Nat) (poison : Bool) (s : State)
  | fault (cause : Nat) (s : State)
  | wait (s : State)

/-- Access one element at an effective address, `hi` naming the nibble of a 4-bit one (R104, R123, R124): read it, or write `data`. -/
def vElemAccess (s : State) (c w ea : Nat) (hi : Bool) (data : Option Nat) : ElemRes :=
  let n := max 1 (w / 8)
  if ea % n ≠ 0 then .fault 2 s
  else
    match eaGa s c ea with
    | none => .fault 1 s
    | some ga =>
      if dmaHolds s c false ga n then .wait s
      else
        let read : Res (List Byte × Bool) := if data.isNone ∨ w = 4 then busRead s (.vec c) ga n else .ok ([], false) s
        match read with
        | .unmapped s => .fault 1 s
        | .wait s => .wait s
        | .ok (d, p) s =>
          let x := numLE d
          match data with
          | none => .ok (if w = 4 then elemAt x 4 (num hi) else x) p s
          | some v =>
            match busWrite s (.vec c) ga (bytesLE n (if w = 4 then putElem x 4 (num hi) v else v)) false with
            | .unmapped s => .fault 1 s
            | .wait s => .wait s
            | .ok _ s => .ok 0 false s

/-- A vector access in progress: the state, the destination register, the slices written, poisoned elements' addresses, unmapped
elements (count and lowest address), the lowest fault (element, address, cause), and how it stopped. -/
structure VAccess where
  st : State
  val : Nat
  slices : List Nat
  poison : List Nat
  unmapped : Nat
  lowest : Option Nat
  fault : Option (Nat × Nat × Nat)
  stopped : Bool
  waits : Bool

/-- What a vector access does at element `i` (R118, R124 to R126, R128). -/
def vAccessElem (k : Core) (c w km : Nat) (mz quiet : Bool) (place : Nat → Nat × Bool) (data : Option (Nat → Nat)) (a : VAccess) (i : Nat) :
    VAccess :=
  if a.stopped || a.waits then a
  else if !k.vactive km i then
    if mz && data.isNone then { a with val := putElem a.val w i 0, slices := setAdd a.slices (vslice w i) } else a
  else
    let p := place i
    match vElemAccess a.st c w p.1 p.2 (data.map (fun f => f i)) with
    | .wait s => { a with st := s, waits := true }
    | .fault cause s =>
      let a := { a with
        st := s, fault := a.fault.or (some (i, p.1, cause)), unmapped := a.unmapped + num (cause = 1),
        lowest := a.lowest.or (if cause = 1 then some p.1 else none), stopped := !quiet }
      if quiet && data.isNone then { a with val := putElem a.val w i 0, slices := setAdd a.slices (vslice w i) } else a
    | .ok v p' s =>
      let a := { a with st := s, poison := if p' then a.poison ++ [p.1] else a.poison }
      if data.isNone then { a with val := putElem a.val w i (if p' then 0 else v), slices := setAdd a.slices (vslice w i) } else a

/-- The first element whose access alone has to wait, with the state in which its line has been asked for; in precise mode no element
above the first fault is accessed. -/
def vFirstWait (s : State) (k : Core) (c w km : Nat) (quiet : Bool) (place : Nat → Nat × Bool) (data : Option (Nat → Nat)) :
    List Nat → Option State
  | [] => none
  | i :: t =>
    if !k.vactive km i then vFirstWait s k c w km quiet place data t
    else
      match vElemAccess s c w (place i).1 (place i).2 (data.map (fun f => f i)) with
      | .wait s => some s
      | .fault _ _ => if quiet then vFirstWait s k c w km quiet place data t else none
      | .ok _ _ _ => vFirstWait s k c w km quiet place data t

/-- Record a fault (R125, R126). -/
def Core.setFault (k : Core) (f : Nat × Nat × Nat) : Core :=
  ((k.setSys R.VFAULT_IDX.val f.1).setSys R.VFAULT_EA.val f.2.1).setSys R.VFAULT_CAUSE.val f.2.2

/-- What a vector access leaves once it has ended (R125 to R128). -/
def vAccessEnd (c : Nat) (v : Nat) (quiet isLoad : Bool) (a : VAccess) : Issued :=
  let s := a.st
  let s := a.poison.foldl (fun s ea => report s 0x0203 c [c, ea]) s
  let s := if a.poison = [] then s else raiseIrq (onCore s c (fun k => k.setSys R.VFLAG.POISON 1)) c 18
  let s := match a.lowest with
    | some ea => reportUnmapped s (.vec c) (eaReport s c ea) a.unmapped
    | none => s
  let s := if isLoad then onCore s c (fun k => k.setV v a.val a.slices) else s
  let (n, s) := if quiet then (0, s) else freeze s
  match a.fault with
  | none => vDone s c id Flags.zero { Eff.nil with cost := n }
  | some f =>
    if !quiet then .trap ⟨8, none⟩ (onCore s c (fun k => (k.setFault f).setSys R.VSTART.INDEX f.1))
    else
      vDone s c (fun k =>
        let was := k.sysFlag R.VFLAG.GATHER_FAULT
        let k := k.setSys R.VFLAG.GATHER_FAULT 1
        if was then k else k.setFault f) Flags.zero Eff.nil

/-- A vector access to memory: VLD, VST, VGATHER or VSCATTER with its element places; `reads` are the slices it reads. -/
def vecAccess (s : State) (c v w km : Nat) (mz : Bool) (isStore : Bool) (reads : List (Nat × Nat)) (place : Nat → Nat × Bool) : Issued :=
  let k := core s c
  let quiet := k.sysFlag R.VCTL.QUIET
  let data : Option (Nat → Nat) := if isStore then some (elemAt (k.vreg v) w) else none
  let l := k.vproc (1024 / w)
  vChecked s c reads
    (match vFirstWait s k c w km quiet place data l with
    | some s => .hold s
    | none =>
      let a := l.foldl (vAccessElem k c w km mz quiet place data) ⟨s, k.vreg v, [], [], 0, none, none, false, false⟩
      if a.waits then .hold a.st else vAccessEnd c v quiet (!isStore) a)

/-- VLD and VST (R122). -/
def vecStride (s : State) (c v base stride ew km : Nat) (mz isStore : Bool) : Issued :=
  let k := core s c
  let w := 32 / 2 ^ ew
  vecAccess s c v w km mz isStore (if isStore then vReads k w km [v] else []) (fun i => (strideEa k base stride ew i, i % 2 = 1))

/-- Index `i` of the group that starts at register `vi` (R123). -/
def vIndex (k : Core) (vi i : Nat) : Nat := elemAt (k.vreg (vi + i / 32)) 32 (i % 32)

/-- VGATHER and VSCATTER (R123). -/
def vecIndexed (s : State) (c v base vi ew km : Nat) (mz isStore : Bool) : Issued :=
  let k := core s c
  let w := 32 / 2 ^ ew
  let idx := ((k.vproc (1024 / w)).filter (k.vactive km)).map (fun i => (vi + i / 32, i % 32))
  let place (i : Nat) : Nat × Bool :=
    let x := vIndex k vi i
    if w = 4 then ((k.sval base + x / 2) % 2 ^ 32, x % 2 = 1) else ((k.sval base + x * (w / 8)) % 2 ^ 32, false)
  vecAccess s c v w km mz isStore (idx ++ (if isStore then vReads k w km [v] else [])) place

/-- Run a vector operation. -/
def vecRun (s : State) (c : Nat) (v : VecOp) : Issued :=
  match v with
  | .int f a => vecInt s c f a
  | .flt f a => vecFlt s c f a
  | .ld vd base stride ew km mz => vecStride s c vd base stride ew km mz false
  | .st vs base stride ew km => vecStride s c vs base stride ew km false true
  | .gather vd base vi ew km mz => vecIndexed s c vd base vi ew km mz false
  | .scatter vs base vi ew km => vecIndexed s c vs base vi ew km false true
  | .cvt vd vs1 srcf dstf sat part => vecCvt s c vd vs1 srcf dstf sat part
  | .cmp kd vs1 v2 src ty cond => vecCmp s c kd vs1 v2 src ty cond
  | .red rd vs1 km ty op => vecRed s c rd vs1 km ty op
  | .perm f vd vs1 r ew => vecPerm s c f vd vs1 r ew
  | .mask f kd ka kb r part => vecMask s c f kd ka kb r part
  | .movs v r idx ew toV => vecMovs s c v r idx ew toV

/-- The S register that a vector operation writes. -/
def VecOp.sdest : VecOp → Option Nat
  | .red rd _ _ _ _ => some rd
  | .mask .kpopc _ _ _ r _ => some r
  | .mask .kfirst _ _ _ r _ => some r
  | .mask .ktos _ _ _ r _ => some r
  | .movs _ r _ _ false => some r
  | _ => none

end Sys2Proof.Machine
end

