-- ==== Sys2Proof/Machine/Pilot.lean ====
section
/-!
DEFINITION. How Pilot executes a bundle: slot results, traps and interrupts, flow of control, and what each operation does (R64 to R101,
R189, R194).
-/
namespace Sys2Proof.Machine

/-! ### Fetch (R66, R92, R95) -/

/-- A byte of a fetched bundle: as it stood before a store that is still too young, or as IMEM holds it (R92). -/
def imemByte (s : State) (c off : Nat) : Byte :=
  match (core s c).stale.find? (fun x => x.1 = off) with
  | some x => x.2.1
  | none => byteAt s (imemAddr c off)

/-- The 64 bits that a core fetches at an address (R66). -/
def fetchWord (s : State) (c pc : Nat) : Nat := numLE ((List.range 8).map (fun i => imemByte s c (pc + i)))

/-- The bundle at the core's PC. Beyond IMEM nothing is fetched, which reads as zeros. -/
def bundleAt (s : State) (c : Nat) : PilotOp × PilotOp :=
  let pc := (core s c).pc
  decodeBundle (if 0x20000 ≤ pc then 0 else fetchWord s c pc)

/-- A bundle has been fetched: every store into IMEM is one bundle older (R92). -/
def ageStores (k : Core) : Core :=
  { k with
    stale := (k.stale.filter (fun x => 1 < x.2.2)).map (fun x => (x.1, x.2.1, x.2.2 - 1)) }

/-! ### Interrupts (R84 to R86, R89) -/

/-- The pending interrupts that IMASK passes; PREEMPT and LEASH are always passed (R84). -/
def pendingIrq (s : State) (c : Nat) : List Nat :=
  let w := ipendWord s c
  let m := (core s c).sysWord c R.IMASK.val.off
  [16, 17, 18, 19, 20, 21, 22].filter (fun i => bitOf w i && (bitOf m i || i ≤ 17))

/-- The bit of a repeat register. -/
def Core.lc (k : Core) (i : Nat) : Nat := k.sysFld (R.LC.val i)
def Core.ls (k : Core) (i : Nat) : Nat := k.sysFld (R.LS.val i)
def Core.le (k : Core) (i : Nat) : Nat := k.sysFld (R.LE.val i)
def Core.depth (k : Core) : Nat := k.sysFld R.PSTAT.LDEPTH

/-- Is the boundary before the bundle at PC an interruptible point (R84, R90)? -/
def Core.interruptible (k : Core) : Bool :=
  match k.run with
  | .running => k.dslots = 0 && k.delayed.isEmpty && (k.loopTop || k.atHeel)
  | .waiti => k.dslots = 0
  | .recv .. => true
  | .wait .. => true
  | _ => false

/-- Do PSTAT.IE and PSTAT.EXL let an interrupt in (R84)? -/
def Core.open (k : Core) : Bool := k.sysFlag R.PSTAT.IE && !k.sysFlag R.PSTAT.EXL

/-- The interrupt that the core accepts now, the lowest CODE first (R84, R89). -/
def dueIrq (s : State) (c : Nat) : Option Nat :=
  if (core s c).interruptible && (core s c).open then (pendingIrq s c).head? else none

/-- Land delayed writes, in program order (R78, R79). -/
def Core.landAll (k : Core) (l : List DWrite) : Core := l.foldl (fun k d => k.setSreg d.dest d.val) k

/-- PSTAT as entry leaves it: IE 0, EXL 1, LDEPTH 0 (Table 3-7). -/
def Core.enterStat (k : Core) : Core := ((k.setSys R.PSTAT.IE 0).setSys R.PSTAT.EXL 1).setSys R.PSTAT.LDEPTH 0

/-- CK_CORE cycles pass on a core. -/
def Core.cycles (k : Core) (n : Nat) : Core := { k.setSys R.CYCLE.val (k.sysFld R.CYCLE.val + n) with runLen := k.runLen + n }

/-- Go to the vector of a cause: the fetch queue is discarded, and the first handler bundle issues 4 cycles after the last bundle (Table
3-7). -/
def Core.toVector (k : Core) (code : Nat) : Core :=
  let k := (k.enterStat.setSys R.CAUSE.CODE code).cycles 3
  { k with
    pc := (k.sysWord 0 R.VBASE.val.off / 2 ^ 10 * 2 ^ 10 + 32 * code) % 2 ^ 32, stale := [], dslots := 0, land := .none, delayed := [],
    atHeel := false, loopTop := true, run := .running }

/-- Interrupt entry (R86, Table 3-7): a blocked QRECV or SWAIT is abandoned without effect (R99), writes still outstanding there land,
and a QUEUE entry latches QDISP (R227). The accepted interrupt is no longer pending. -/
def interruptEntry (s : State) (c code : Nat) : State :=
  let s := abandonWait s c
  let s := if code = 20 then
      match nextDispatch s c with
      | some q => onCore s c (fun k => k.setSys R.QDISP.val q)
      | none => s
    else s
  onCore s c (fun k =>
    let k := k.landAll k.delayed
    let k := k.setSys R.EPC.val k.pc
    let k := ((k.setSys R.EPSTAT.PSTAT (k.sysWord 0 R.PSTAT.IE.off % 64)).setSys R.EPSTAT.BDS 0).setSys R.EPSTAT.DWB_COUNT 0
    let k := k.setSys ⟨R.IPEND.val.off, code, code⟩ 0
    { k.toVector code with runLen := 0 })

/-! ### Traps (R87, R89, R91, R100) -/

/-- Move the outstanding writes into the delayed-write buffer (R87). -/
def Core.saveDelayed (k : Core) : Core :=
  let k := (List.range 5).foldl (fun k i => k.setSys (R.DWB_CTL.VALID i) 0) k
  let l := k.delayed.take 5
  let k := k.setSys R.EPSTAT.DWB_COUNT l.length
  (List.zip (List.range 5) l).foldl (fun k p =>
    let k := k.setSys (R.DWB_DATA.val p.1) p.2.val.toNat
    ((k.setSys (R.DWB_CTL.DEST p.1) p.2.dest).setSys (R.DWB_CTL.LEFT p.1) (max 1 (min 3 p.2.left))).setSys (R.DWB_CTL.VALID p.1) 1) k

/-- The branch delay slots still to run and the pending branch target (R87): those of an untaken branch are not counted. -/
def Core.saveBranch (k : Core) : Core :=
  match k.land with
  | .go t => if k.dslots = 0 then k.setSys R.EPSTAT.BDS 0 else (k.setSys R.EPSTAT.BDS k.dslots).setSys R.EBT.val t
  | _ => k.setSys R.EPSTAT.BDS 0

/-- Take a trap with EPC as given (R87, R91). While EXL is 1 it is a double fault. -/
def takeTrap (s : State) (c : Nat) (t : Trap) (epc : Nat) : State :=
  let k := core s c
  let k := match t.addr with
    | some a => k.setSys R.FAULT_ADDR.val a
    | none => k
  let k := k.setSys R.EPC.val epc
  if k.sysFlag R.PSTAT.EXL then
    doubleFault (setCore s c { (k.landAll k.delayed).setSys R.CAUSE.CODE t.code with delayed := [] }) c t.code epc
  else
    let k := k.setSys R.EPSTAT.PSTAT (k.sysWord 0 R.PSTAT.IE.off % 64)
    setCore s c (k.saveBranch.saveDelayed.toVector t.code)

/-- The trap with the lower CODE (R89). -/
def lowerTrap (a b : Option Trap) : Option Trap :=
  match a, b with
  | some x, some y => some (if y.code < x.code then y else x)
  | some x, none => some x
  | none, y => y

/-- A trap that holds a condition. -/
def trapIf (b : Bool) (code : Nat) : Option Trap := if b then some ⟨code, none⟩ else none

/-! ### Traps that an operation raises in D -/

/-- Where a taken branch or jump goes, and what a jump links. -/
def flowTarget (k : Core) (op : PilotOp) : Option Nat :=
  match op with
  | .branch cond rs1 rs2 off =>
    if condHolds cond (k.sval rs1) (k.sval rs2) then some (wrapTo 32 ((k.pc : Int) + 8 * signed 12 off)) else none
  | .jump .j _ t => some (8 * t)
  | .jump .jal _ t => some (8 * t)
  | .jump _ rs1 _ => some (k.sval rs1)
  | .rbrk => some ((k.le (k.depth - 1) + 8) % 2 ^ 32)
  | _ => none

/-- Is an address outside the innermost active body (R83)? -/
def Core.outsideBody (k : Core) (a : Nat) : Bool :=
  k.depth ≠ 0 && !(k.ls (k.depth - 1) ≤ a && a ≤ k.le (k.depth - 1))

/-- Is the operation at an IMEM address a branch or jump? -/
def isFlowAt (s : State) (c a : Nat) : Bool :=
  let w := numLE ((List.range 4).map (fun i => byteAt s (imemAddr c (a + i))))
  w / 2 ^ 28 % 16 = 8 || w / 2 ^ 28 % 16 = 9

/-- The traps of a REP (R81 to R83). -/
def repTrap (s : State) (c : Nat) (k : Core) (len : Nat) : Option Trap :=
  let ls := k.pc + 8
  let le := k.pc + 8 * len
  let d := k.depth
  let bad := (d ≠ 0 && k.le (d - 1) ≤ le) || (ls + 8 ≤ le && isFlowAt s c (le - 8)) || (ls + 16 ≤ le && isFlowAt s c (le - 16))
  lowerTrap (trapIf bad 3) (trapIf (3 ≤ d) 9)

/-- May an operation not stand in a branch delay slot (R81)? -/
def PilotOp.notInSlot : PilotOp → Bool
  | .branch .. => true
  | .jump .. => true
  | .rbrk => true
  | .rti => true
  | .rep .. => true
  | .ifence => true
  | .heel _ => true
  | _ => false

/-- The trap of a slot-0 operation, with the slot's own rules (R67, R68, R80 to R83, R89, R90, R96). -/
def trap0 (s : State) (c : Nat) (k : Core) (op : PilotOp) : Option Trap :=
  let own : Option Trap := match op with
    | .illegal => trapIf true 1
    | .mfs _ i => trapIf (!rowsName sysRows i) 1
    | .mts _ i => trapIf (!rowsName sysRows i) 1
    | .heel _ => trapIf (!k.delayed.isEmpty) 3
    | .rbrk => trapIf (k.depth = 0 || k.outsideBody k.pc) 3
    | .branch .. => trapIf ((flowTarget k op).any k.outsideBody) 3
    | .jump .. =>
      match flowTarget k op with
      | some t => lowerTrap (trapIf (k.outsideBody t) 3) (if t % 8 = 0 then none else some ⟨4, some t⟩)
      | none => none
    | .rep _ _ _ len => repTrap s c k len
    | .trap _ => trapIf true 10
    | _ => none
  lowerTrap (lowerTrap (trapIf (!op.slot0Ok) 2) (trapIf (op.notInSlot && k.dslots ≠ 0) 3)) own

/-- Does a queue or sync operation wait (R228, R240)? -/
def engBlocks (k : Core) (f : EngOp) (rs2 : Nat) : Bool :=
  let b := k.sval rs2
  (f = .qrecv && b / 2 ^ 16 ≠ 0) || (f = .swait && b / 2 ^ 16 ≠ 0 && !bitOf b 8)

/-- The trap that a slot-1 operation raises before it issues (R67, R68, R81, R120). -/
def trap1 (k : Core) (op : PilotOp) : Option Trap :=
  let own : Option Trap := match op with
    | .illegal => trapIf true 1
    | .mfs _ i => trapIf (!rowsName sysRows i) 1
    | .mts _ i => trapIf (!rowsName sysRows i) 1
    | .vec (.cvt _ _ a b _ part) => trapIf (vcvtBad a b part) 1
    | .eng f _ _ rs2 _ => trapIf (engBlocks k f rs2 && (k.dslots ≠ 0 || k.delayed.any (fun d => d.load))) 3
    | _ => none
  lowerTrap (trapIf (!op.slot1Ok) 2) own

/-! ### Effects without memory -/

/-- An S register receives a result of R70 after `d` delay slots. -/
def resEff (rd d : Nat) (r : AluRes) : Eff :=
  { Eff.nil with
    puts := if d = 0 then [.s rd r.val] else [], later := if d = 0 then [] else [⟨rd, BitVec.ofNat 32 r.val, d, false⟩],
    ovf := r.ovf, sat := r.sat }

/-- The delay slots of a class 0x1 result (Table 3-6). -/
def AluOp.delay : AluOp → Nat
  | .mul => 1
  | .mulh => 1
  | .mulhu => 1
  | _ => 0

/-- The delay slots of a class 0x4 result for RD (Table 3-6). -/
def DspOp.delay : DspOp → Nat
  | .mulq => 1
  | _ => 2

/-- The effect of an operation that reads and writes registers alone; `s` is read by MFS (R70 to R72, R75, R80, R96). -/
def regEff (s : State) (c : Nat) (k : Core) (op : PilotOp) : Eff :=
  match op with
  | .alu f sat rd rs1 rs2 => resEff rd f.delay (aluRes f sat (k.sval rs1) (k.sval rs2))
  | .alui f sat rd rs1 imm => resEff rd 0 (aluRes f.alu sat (k.sval rs1) (immVal f imm))
  | .lui rd imm => Eff.s rd (imm * 2 ^ 10)
  | .dsp f sat rd rs1 rs2 acc q h1 h2 =>
    match dspRes f sat q h1 h2 (k.sval rs1) (k.sval rs2) (k.accVal acc) rs2 with
    | .acc r => { Eff.nil with puts := [.acc acc r.val], ovf := r.ovf, sat := r.sat }
    | .rd r => resEff rd f.delay r
  | .amov file n rs1 => { Eff.nil with puts := [.file file n (k.sval rs1)] }
  | .aaddi n imm => { Eff.nil with puts := [.file 0 n (k.circular n (signed 13 imm))] }
  | .aaddm n m => { Eff.nil with puts := [.file 0 n (k.circular n (k.mval m))] }
  | .mfa rd file n => Eff.s rd (k.aval file n)
  | .jump .jal _ _ => Eff.s 31 ((k.pc + 24) % 2 ^ 32)
  | .jump .jalr _ _ => Eff.s 31 ((k.pc + 24) % 2 ^ 32)
  | .mfs rd i => Eff.s rd (if i = R.CORE_ID.val.off then c else sysRead s c i)
  | _ => Eff.nil

/-! ### Loads, stores and engine issue (R73, R74, R76, R77, R94, R189) -/

/-- A load or a store (R74, R76): the freeze is that of R77, and a load of poisoned data takes MEM_ERROR (R89, R179). -/
def memRun (s : State) (c : Nat) (k : Core) (isLoad : Bool) (r an mode size : Nat) (sg imem : Bool) (imm : Nat) : Issued :=
  let (ea, next) := k.memAddr an mode size imm
  let n := 2 ^ size
  let puts : List RegW := match next with
    | some x => [.file 0 an x]
    | none => []
  let unmapped (s : State) (a : Nat) : Issued := .trap ⟨5, some ea⟩ (reportUnmapped s (.pilot c) a 1)
  let loaded (d : List Byte × Bool) (cost : Nat) (s : State) : Issued :=
    if d.2 then .trap ⟨6, some ea⟩ (report s 0x0203 c [c, ea])
    else
      let x := numLE d.1
      let v := if sg then wrapTo 32 (signed (8 * n) x) else x
      .done { Eff.nil with puts := puts, later := [⟨r, BitVec.ofNat 32 v, 3, true⟩], cost := cost } s
  let data := bytesLE n (k.sval r)
  if ea % n ≠ 0 then .trap ⟨4, some ea⟩ s
  else if imem then
    if 0x20000 ≤ ea then unmapped s ea
    else if dmaHolds s c true ea n then .hold s
    else
      let (f, s) := freeze s
      if isLoad then loaded (bytesAt s (imemAddr c ea) n, poisoned s (imemAddr c ea) n) f s
      else .done { Eff.nil with puts := puts, cost := f } (imemWrite s c ea data false)
  else
    match eaGa s c ea with
    | none => unmapped s (eaReport s c ea)
    | some ga =>
      if dmaHolds s c false ga n then .hold s
      else if isLoad then
        match busRead s (.pilot c) ga n with
        | .unmapped s => unmapped s ga
        | .wait s => .hold s
        | .ok d s =>
          if ownRange s c ga then loaded d 0 s
          else
            let (f, s) := freeze s
            loaded d f s
      else
        match busWrite s (.pilot c) ga data false with
        | .unmapped s => unmapped s ga
        | .wait s => .hold s
        | .ok _ s => let (f, s) := freeze s; .done { Eff.nil with puts := puts, cost := f } s

/-- Must an engine operation that reads or writes its own tile memory wait for a DMA (R189)? -/
def holdsOwn (s : State) (c ea n : Nat) : Bool :=
  ea / 2 ^ 28 = 0 && dmaHolds s c false (ownGa s (tileAddr c (ea % 2 ^ 28))) n

/-- Is an EA usable for a 64-byte message (R224, R228): aligned, and an own tile address in the EA[31:28] = 0 form? -/
def msgEaOk (ea : Nat) : Bool := ea / 2 ^ 28 = 0 && ea % 64 = 0 && ownTile ea 64

/-- A message EA that is an unmapped offset of the own window is also reported (R31). -/
def msgEaReport (s : State) (c ea : Nat) : State :=
  if ea / 2 ^ 28 = 0 && !ownTile ea 64 then reportUnmapped s (.pilot c) (eaReport s c ea) 1 else s

/-- QSEND (R224, R230): the status and the state. -/
def qsend (s : State) (c ea b : Nat) : Nat × State :=
  let chip := if bitOf b 14 then chipId s else bitsOf b 13 10
  let mc := bitOf b 15
  let dest := if mc then bitsOf b 5 0 else bitsOf b 9 0
  if !msgEaOk ea then (5, msgEaReport s c ea)
  else if !isMember s chip then (5, reportUnmapped s (.pilot c) (chip * 2 ^ 44 + 0x90010000000 + 0x4000 * dest) 1)
  else
    match busRead s (.pilot c) (ownGa s (tileAddr c ea)) 64 with
    | .ok d s => (0, sendMsg s chip dest c mc d.1)
    | .unmapped s => (5, reportUnmapped s (.pilot c) (ownGa s (tileAddr c ea)) 1)
    | .wait s => (5, s)

/-- The deadline of a wait with a TIMEOUT field: none for 0xFFFF (R228). -/
def waitDeadline (s : State) (t : Nat) : Option Nat := if t = 0xFFFF then none else some ((nowNs s + 1000 * t) % 2 ^ 32)

/-- What a queue or sync operation gives: a status for RD, or the state Pilot waits in. -/
inductive EngRes where
  | status (v : Nat) (s : State)
  | wait (r : Run) (s : State)

/-- QRECV (R226, R228, R230, R249). -/
def qrecv (s : State) (c ea b rd : Nat) : EngRes :=
  let q := bitsOf b 9 0
  let t := bitsOf b 31 16
  let mode := fld s (R.QCFG.MODE q)
  if !msgEaOk ea then .status 5 (msgEaReport s c ea)
  else if (core s c).sysFlag R.CLAIM.BORROWED ∨ fld s (R.QCFG.CONSUMER q) ≠ c ∨ !(mode = 2 || (mode = 1 && t = 0)) then .status 4 s
  else if fld s (R.QSTAT.COUNT q) ≠ 0 then let r := qTake s c q ea; .status r.1 r.2
  else if t = 0 then .status 1 s
  else .wait (.recv q ea rd (waitDeadline s t)) s

/-- The object and home chip that RS1 names (R239). -/
def syncName (s : State) (a : Nat) : Nat × Nat := (bitsOf a 13 0, if bitOf a 18 then chipId s else bitsOf a 17 14)

/-- A sync operation on a chip that is no member meets an unmapped address (R31, R43). -/
def syncUnmapped (s : State) (c obj chip : Nat) : State := reportUnmapped s (.pilot c) (chip * 2 ^ 44 + syncAddr obj) 1

/-- SSIG (R239). -/
def ssig (s : State) (c a k : Nat) : Nat × State :=
  let (obj, chip) := syncName s a
  if chip ≠ chipId s then
    if !isMember s chip then (5, syncUnmapped s c obj chip) else (0, if k = 0 then s else signalChip s chip obj k c)
  else if !(syncObj s obj).en then (5, s)
  else (0, signalLocal s obj k chip c)

/-- The lowest free async slot of a core: neither ARMED nor DONE (R241). -/
def freeAsync (k : Core) : Option Nat :=
  (List.range 4).find? (fun i => !bitOf (k.sysWord 0 R.SASTAT.DONE.off) i && !bitOf (k.sysWord 0 R.SASTAT.DONE.off) (4 + i))

/-- Arm an async wait in a slot (R241): the status of RD with the slot number in its bits [9:8]. -/
def swaitAsync (s : State) (c obj chip n t : Nat) : Nat × State :=
  match (if (core s c).sysFlag R.CLAIM.BORROWED then none else freeAsync (core s c)) with
  | none => (8, s)
  | some i =>
    let arm (s : State) : State := onCore s c (fun k =>
      { k.setSys ⟨R.SASTAT.DONE.off, 4 + i, 4 + i⟩ 1 with asyncs := k.asyncs ++ [⟨i, obj, chip, n, waitDeadline s t⟩] })
    if chip ≠ chipId s then (256 * i, askWait (arm s) chip obj (8 * c + 1 + i) n c)
    else
      match waitLocal s obj (.async c i n) with
      | (some 0, s) => (256 * i, asyncEnd s c i false false)
      | (some st, s) => (st, s)
      | (none, s) => (256 * i, arm s)

/-- SWAIT (R240 to R242, R230). -/
def swait (s : State) (c a b rd : Nat) : EngRes :=
  let (obj, chip) := syncName s a
  let n := max 1 (bitsOf b 7 0)
  let t := bitsOf b 31 16
  let here : Bool := chip = chipId s
  if !here && !isMember s chip then .status 5 (syncUnmapped s c obj chip)
  else if here && !(syncObj s obj).en then .status 5 s
  else if t = 0 then
    if here then let r := pollLocal s obj n; .status r.1 r.2
    else .wait (.poll obj chip) (askWait s chip obj (8 * c + 5) n c)
  else if bitOf b 8 then let r := swaitAsync s c obj chip n t; .status r.1 r.2
  else
    let w : Run := .wait obj chip n rd (waitDeadline s t)
    if !here then .wait w (askWait s chip obj (8 * c) n c)
    else
      match waitLocal s obj (.pilot c n) with
      | (some st, s) => .status st s
      | (none, s) => .wait w s

/-- An engine-issue operation (R94): RD receives the status with no delay slot. One that has ended its wait completes with that wait's
status. -/
def engRun (s : State) (c : Nat) (k : Core) (f : EngOp) (row rs1 rs2 rd : Nat) : Issued :=
  let a := k.sval rs1
  let b := k.sval rs2
  let ends (r : Nat × State) : Issued := let (n, s) := freeze r.2; .done { Eff.s rd r.1 with cost := n } s
  let waits (r : EngRes) : Issued := match r with
    | .status v s => ends (v, s)
    | .wait r s => .block r s
  let woken : Option Nat := match k.run with
    | .woken x => some x
    | _ => none
  match f with
  | .lrpass => if holdsOwn s c a 128 then .hold s else ends (lrIssue s c row a b)
  | .dma => if holdsOwn s c a 64 then .hold s else ends (dmaIssue s c a b false)
  | .imload => if holdsOwn s c a 64 then .hold s else ends (dmaIssue s c a b true)
  | .qsend => if holdsOwn s c a 64 then .hold s else ends (qsend s c a b)
  | .qrecv =>
    match woken with
    | some x => ends (x, s)
    | none => if holdsOwn s c a 64 then .hold s else waits (qrecv s c a b rd)
  | .ssig => ends (ssig s c a b)
  | .swait =>
    match woken with
    | some x => ends (x, s)
    | none => waits (swait s c a b rd)

/-- Run a slot-1 operation that has passed the checks in D. -/
def run1 (s : State) (c : Nat) (k : Core) (op : PilotOp) : Issued :=
  match op with
  | .load rd an mode size sg imem imm => memRun s c k true rd an mode size sg imem imm
  | .store rs an mode size imem imm => memRun s c k false rs an mode size false imem imm
  | .eng f row rs1 rs2 rd => engRun s c k f row rs1 rs2 rd
  | .vec v => vecRun s c v
  | op => .done (regEff s c k op) s

/-- The register writes of a slot-1 operation, as far as R79 asks: their registers and when they become visible. -/
def dests1 (s : State) (c : Nat) (k : Core) (op : PilotOp) : List (Nat × Nat × Nat) :=
  let sreg (i d : Nat) : List (Nat × Nat × Nat) := if i = 0 then [] else [(0, i, d)]
  let post (an mode : Nat) : List (Nat × Nat × Nat) := if 1 ≤ mode ∧ mode ≤ 4 then [(2, an, 0)] else []
  match op with
  | .load rd an mode _ _ _ _ => sreg rd 3 ++ post an mode
  | .store _ an mode _ _ _ => post an mode
  | .eng _ _ _ _ rd => sreg rd 0
  | .vec v =>
    match v.sdest with
    | some rd => sreg rd 0
    | none => []
  | op => (regEff s c k op).dests

/-- Do the two slots write one register for the same bundle (R79)? -/
def slotsClash (s : State) (c : Nat) (k : Core) (op0 op1 : PilotOp) : Bool :=
  (regEff s c k op0).dests.any (fun d => (dests1 s c k op1).contains d)

/-! ### System register writes (R96) -/

/-- MTS (R96): a write under the access codes of the register's fields; IMASK keeps its bits 16 and 17 at 1 (Table 3-9), and
TASK.END and CLAIM.YIELD read as zero (Table 8-3). `old` is the before the bundle; bits that the other slot sets in a W1C field stay set. -/
def mtsWord (old now i v : Nat) : Nat :=
  let w := accWord sysRows i now (2 ^ 32 - 1) v false
  let w := w ||| (now &&& (2 ^ 32 - 1 - old) &&& v &&& sysRows.foldl (fun m r =>
    if (rowIndex r i).isSome ∧ r.acc = .w1c then putBits m r.hi r.lo (2 ^ 32 - 1) else m) 0)
  if i = R.IMASK.val.off then w ||| 0x30000
  else if i = R.TASK.END.off then putBits w R.TASK.END.hi R.TASK.END.lo 0
  else if i = R.CLAIM.YIELD.off then putBits w R.CLAIM.YIELD.hi R.CLAIM.YIELD.lo 0
  else w

/-! ### Completion of a bundle -/

/-- Store the effects of both slots: delayed writes of earlier bundles land first, then this bundle's writes; new delayed writes queue
behind (R78, R79). -/
def Core.commit (k : Core) (e0 e1 : Eff) : Core :=
  let due := k.delayed.filter (fun d => d.left ≤ 1)
  let rest := (k.delayed.filter (fun d => 1 < d.left)).map (fun d => { d with left := d.left - 1 })
  let k := k.landAll due
  let k := (e0.puts ++ e1.puts).foldl RegW.put k
  { k with delayed := rest ++ e0.later ++ e1.later }

/-- The sticky bits of both slots (R70). -/
def Core.stick (k : Core) (e0 e1 : Eff) : Core :=
  let k := if e0.sat || e1.sat then k.setSys R.PSTAT.SAT_STICKY 1 else k
  if e0.ovf || e1.ovf then k.setSys R.PSTAT.OVF_STICKY 1 else k

/-- RTI lands (R88): what the handler still has outstanding lands, PSTAT is restored, the DWB entries are outstanding again, and the
delay slots of an interrupted branch run on to EBT. -/
def Core.rtiLand (k : Core) : Core :=
  let wait := (k.delayed.map (fun d => d.left)).foldl max 0
  let k := (k.landAll k.delayed).cycles wait
  let ep := k.sysWord 0 R.EPSTAT.PSTAT.off
  let l := (List.range (min 5 (bitsOf ep 10 8))).filterMap (fun i =>
    if k.sysFlag (R.DWB_CTL.VALID i) then
      some (⟨k.sysFld (R.DWB_CTL.DEST i), BitVec.ofNat 32 (k.sysFld (R.DWB_DATA.val i)), k.sysFld (R.DWB_CTL.LEFT i), false⟩ : DWrite)
    else none)
  let k := k.setSysWord R.PSTAT.IE.off (putBits (k.sysWord 0 R.PSTAT.IE.off) 5 0 ep)
  let bds := bitsOf ep 7 6
  { k with
    delayed := l, dslots := bds, land := if bds = 0 then .none else .go (k.sysFld R.EBT.val), pc := k.sysFld R.EPC.val }

/-- Is an address past the first bundle of some active body (R84)? -/
def Core.midBody (k : Core) (a : Nat) : Bool := (List.range k.depth).any (fun i => k.ls i < a && a ≤ k.le i)

/-- The repeat level whose last bundle has run loops back or is released (R82). -/
def Core.loopEnd (k : Core) : Core :=
  let d := k.depth - 1
  if k.depth ≠ 0 ∧ k.pc = k.le d then
    if 1 < k.lc d then { k.setSys (R.LC.val d) (k.lc d - 1) with pc := k.ls d }
    else
      { (k.setSys (R.LC.val d) 0).setSys R.PSTAT.LDEPTH d with pc := (k.pc + 8) % 2 ^ 32 }
  else { k with pc := (k.pc + 8) % 2 ^ 32 }

/-- Start a repeat, or skip its body (R82). -/
def Core.startRep (k : Core) (count len : Nat) : Core :=
  let le := (k.pc + 8 * len) % 2 ^ 32
  if count = 0 then { k with pc := (le + 8) % 2 ^ 32 }
  else
    let d := k.depth
    { ((((k.setSys (R.LC.val d) count).setSys (R.LS.val d) ((k.pc + 8) % 2 ^ 32)).setSys (R.LE.val d) le).setSys R.PSTAT.LDEPTH (d + 1)) with
      pc := (k.pc + 8) % 2 ^ 32 }

/-- The next bundle in execution order (R78, R80, R82, R88): `old` holds the operands of the bundle that has run. -/
def Core.flow (k old : Core) (op : PilotOp) : Core :=
  let at_ := k.pc
  let seen (k : Core) : Core := { k with loopTop := !(List.range k.depth).any (fun i => k.ls i ≤ at_ && at_ < k.le i) }
  match op with
  | .rep src count rs1 len => seen (k.startRep (if src then old.sval rs1 else count) len)
  | .rti => seen { k.loopEnd with dslots := 2, land := .ret }
  | .rbrk =>
    let t := flowTarget old op
    seen { (k.setSys R.PSTAT.LDEPTH (k.depth - 1)).loopEnd with dslots := 2, land := t.elim .none .go }
  | .branch .. => seen { k.loopEnd with dslots := 2, land := (flowTarget old op).elim .none .go }
  | .jump .. => seen { k.loopEnd with dslots := 2, land := (flowTarget old op).elim .none .go }
  | _ =>
    if k.dslots = 1 then
      match k.land with
      | .go t => seen { k with dslots := 0, land := .none, pc := t }
      | .ret => let k := { k with dslots := 0, land := .none }.rtiLand; { k with loopTop := !k.midBody k.pc }
      | .none => seen { k.loopEnd with dslots := 0 }
    else seen { k.loopEnd with dslots := k.dslots - 1 }

/-- The cycles of a bundle beyond its own (R82, R90, R93, Table 3-6). -/
def opCost (old : Core) (op : PilotOp) : Nat :=
  match op with
  | .ifence => 5
  | .mts .. => 2
  | .rep src count rs1 _ => if (if src then old.sval rs1 else count) = 0 then 1 else 0
  | _ => 0

/-- Is the partition that a core counts in in tile-task mode (R85, R253)? -/
def inTileTask (s : State) (c : Nat) : Bool :=
  match activePart s c with
  | some p => fld s (R.PART_CFG.MODE p) = 1
  | none => false

/-- A run of 2048 cycles without an interruptible point, reached while PREEMPT is pending, is reported (R85). -/
def leashRule (s : State) (c was : Nat) : State :=
  let k := core s c
  let s := if was < 2048 ∧ 2048 ≤ k.runLen ∧ bitOf (ipendWord s c) 16 ∧ inTileTask s c then
      report s 0x0205 c [c, k.sysFld R.HEEL_TAG.val]
    else s
  if k.interruptible && k.open then onCore s c (fun k => { k with runLen := 0 }) else s

/-- A bundle completes: both slots' effects, MTS, the next bundle, the cycles. -/
def complete (s : State) (c : Nat) (old : Core) (op0 : PilotOp) (e0 e1 : Eff) : State :=
  let k := core s c
  let was := k.runLen
  let k := k.commit e0 e1
  let k := match op0 with
    | .mts rs i => k.setSysWord i (mtsWord (old.sysWord c i) (k.sysWord c i) i (old.sval rs))
    | .heel tag => k.setSys R.HEEL_TAG.val tag
    | .ifence => { k with stale := [] }
    | _ => k
  let heel := match op0 with
    | .heel _ => true
    | _ => false
  let k := { (k.stick e0 e1).flow old op0 with atHeel := heel, run := if op0 = PilotOp.waiti then Run.waiti else Run.running }
  let s := leashRule (setCore s c (k.cycles (1 + e0.cost + e1.cost + opCost old op0))) c was
  match op0 with
  | .mts rs i =>
    let v := old.sval rs
    if i = R.TASK.END.off ∧ bitOf v R.TASK.END.lo then
      taskEndWrite (onCore s c (fun k => { k.landAll k.delayed with delayed := [] })) c
    else if i = R.CLAIM.YIELD.off ∧ bitOf v R.CLAIM.YIELD.lo then
      let s := onCore s c (fun k => { k.landAll k.delayed with delayed := [] })
      claimYield s c (core s c).pc
    else s
  | _ => s

/-- A bundle traps at its own address. -/
def trapHere (s : State) (c : Nat) (t : Trap) : State := takeTrap s c t (core s c).pc

/-- The bundle (op0, op1) issues on core `c` (R79, R87, R89, R133). -/
def issueBundle (s : State) (c : Nat) (op0 op1 : PilotOp) : State :=
  let old := core s c
  let s0 := setCore s c (ageStores old)
  let clash := trapIf (slotsClash s c old op0 op1) 2
  let t0 := lowerTrap clash (trap0 s c old op0)
  let t1 := trap1 old op1
  let isMem : Bool := match op1 with
    | .load .. => true
    | .store .. => true
    | _ => false
  match t0, t1 with
  | none, none =>
    match run1 s0 c old op1 with
    | .done e1 s => complete s c old op0 (regEff s0 c old op0) e1
    | .trap t s => trapHere s c t
    | .hold s => onCore s c (fun k => { k with stale := old.stale })
    | .block r s => onCore s c (fun k => { k with run := r, stale := old.stale })
  | some t, none =>
    if t.code = 10 then
      match run1 s0 c old op1 with
      | .done e1 s => let s := complete s c old .nop Eff.nil e1; trapHere s c t
      | .trap t s => trapHere s c t
      | .hold s => onCore s c (fun k => { k with stale := old.stale })
      | .block r s => onCore s c (fun k => { k with run := r, stale := old.stale })
    else if isMem ∧ 6 < t.code then
      match run1 s0 c old op1 with
      | .trap t' s => trapHere s c (if t'.code < t.code then t' else t)
      | .hold s => onCore s c (fun k => { k with stale := old.stale })
      | _ => trapHere s0 c t
    else trapHere s0 c t
  | t0, some t => match lowerTrap t0 (some t) with
    | some t => trapHere s0 c t
    | none => s0

/-- May the core issue its next bundle? It runs, or has ended a WAITI or a wait, and no interrupt is accepted first. -/
def canIssue (s : State) (c : Nat) : Bool :=
  s.time.running && coreOn s c && (dueIrq s c).isNone &&
    (match (core s c).run with
    | .running => true
    | .woken _ => true
    | .waiti => !(pendingIrq s c).isEmpty
    | _ => false)

/-- Does FENCE DMA still wait for a transfer of the core (R194)? -/
def fenceHolds (s : State) (c : Nat) (op : PilotOp) : Bool := op = .fence .dma && !(core s c).dmas.isEmpty

/-- Does the slot-0 operation freeze Pilot (R96, R194): a FENCE, or an MFS of a vector register of Table 4-1? -/
def freezes (op : PilotOp) : Bool :=
  match op with
  | .fence _ => true
  | .mfs _ i => 0x40 ≤ i && i ≤ 0x46
  | _ => false

/-- The core runs the bundle at its PC (R66, R89, R95). A radio task's first bundle ends its claim's 12 µs (R273). -/
def runBundle (s : State) (c : Nat) : State :=
  let s := firstRadio s c
  let pc := (core s c).pc
  let woke := match (core s c).run with
    | .waiti => true
    | _ => false
  let s := if woke then
      let (n, s) := freeze s
      onCore s c (fun k => { k.cycles n with run := .running })
    else s
  if 0x20000 ≤ pc then trapHere (reportUnmapped s (.pilot c) pc 1) c ⟨5, some pc⟩
  else if poisoned s (imemAddr c pc) 8 then trapHere (report s 0x0204 c [c, pc]) c ⟨7, none⟩
  else
    let b := bundleAt s c
    if fenceHolds s c b.1 then s
    else
      let s := if freezes b.1 then let (n, s) := freeze s; onCore s c (fun k => k.cycles n) else s
      issueBundle s c b.1 b.2

/-- A row of the operation table: the core runs its bundle where it can issue and the bundle holds this operation in the slot named;
otherwise the row does nothing. -/
def issueOp (i : Issue) (op : PilotOp) (s : State) : Host.Outcome State Fault Refusal :=
  if 96 ≤ i.core then .fault .absentUnit
  else if canIssue s i.core ∧ (if i.slot1 then (bundleAt s i.core).2 else (bundleAt s i.core).1) = op then finish (runBundle s i.core)
  else finish s

end Sys2Proof.Machine
end

