-- ==== Sys2Proof/Machine/PilotRows.lean ====
section
/-!
DEFINITION. The rows of Pilot: each operation of classes 0x0 to 0xA, 0xC and 0xD runs the bundle it stands in (R66 to R101), interrupt
entry (R86), and the debugger of the test port (R99, R567).
-/
namespace Sys2Proof.Machine

/-- NOP (R69): the bundle runs with nothing done in this slot. The row also stands for a slot whose operation is reserved, which traps
(R68), and for a PC beyond IMEM. -/
def execNop (i : Issue) (s : State) : Host.Outcome State Fault Refusal :=
  if 96 ≤ i.core then .fault .absentUnit
  else
    issueOp i (if (if i.slot1 then (bundleAt s i.core).2 else (bundleAt s i.core).1) = .illegal then .illegal else .nop) s

/-- HEEL (R90). -/
def execHeel (i : Issue) (tag : Nat) (s : State) : Host.Outcome State Fault Refusal :=
  issueOp i (.heel tag) s

/-- IFENCE (R93). -/
def execIfence (i : Issue) (s : State) : Host.Outcome State Fault Refusal :=
  issueOp i .ifence s

/-- FENCE FULL (R194, Table 6-4). -/
def execFenceFull (i : Issue) (s : State) : Host.Outcome State Fault Refusal :=
  issueOp i (.fence .full) s

/-- FENCE RELEASE (R194, Table 6-4). -/
def execFenceRelease (i : Issue) (s : State) : Host.Outcome State Fault Refusal :=
  issueOp i (.fence .release) s

/-- FENCE ACQUIRE (R194, Table 6-4). -/
def execFenceAcquire (i : Issue) (s : State) : Host.Outcome State Fault Refusal :=
  issueOp i (.fence .acquire) s

/-- FENCE DMA (R194, Table 6-4). -/
def execFenceDma (i : Issue) (s : State) : Host.Outcome State Fault Refusal :=
  issueOp i (.fence .dma) s

/-- RTI (R88). -/
def execRti (i : Issue) (s : State) : Host.Outcome State Fault Refusal :=
  issueOp i .rti s

/-- TRAP (R89). -/
def execTrap (i : Issue) (code : Nat) (s : State) : Host.Outcome State Fault Refusal :=
  issueOp i (.trap code) s

/-- WAITI (R69, R84). -/
def execWaiti (i : Issue) (s : State) : Host.Outcome State Fault Refusal :=
  issueOp i .waiti s

/-- RBRK (R83). -/
def execRbrk (i : Issue) (s : State) : Host.Outcome State Fault Refusal :=
  issueOp i .rbrk s

/-- ADD (R70, R71). -/
def execAdd (i : Issue) (sat : Bool) (rd rs1 rs2 : Nat) (s : State) : Host.Outcome State Fault Refusal :=
  issueOp i (.alu .add sat rd rs1 rs2) s

/-- SUB (R70, R71). -/
def execSub (i : Issue) (sat : Bool) (rd rs1 rs2 : Nat) (s : State) : Host.Outcome State Fault Refusal :=
  issueOp i (.alu .sub sat rd rs1 rs2) s

/-- ADDU (R70, R71). -/
def execAddu (i : Issue) (sat : Bool) (rd rs1 rs2 : Nat) (s : State) : Host.Outcome State Fault Refusal :=
  issueOp i (.alu .addu sat rd rs1 rs2) s

/-- SUBU (R70, R71). -/
def execSubu (i : Issue) (sat : Bool) (rd rs1 rs2 : Nat) (s : State) : Host.Outcome State Fault Refusal :=
  issueOp i (.alu .subu sat rd rs1 rs2) s

/-- AND (R70, R71). -/
def execAnd (i : Issue) (sat : Bool) (rd rs1 rs2 : Nat) (s : State) : Host.Outcome State Fault Refusal :=
  issueOp i (.alu .and sat rd rs1 rs2) s

/-- OR (R70, R71). -/
def execOr (i : Issue) (sat : Bool) (rd rs1 rs2 : Nat) (s : State) : Host.Outcome State Fault Refusal :=
  issueOp i (.alu .or sat rd rs1 rs2) s

/-- XOR (R70, R71). -/
def execXor (i : Issue) (sat : Bool) (rd rs1 rs2 : Nat) (s : State) : Host.Outcome State Fault Refusal :=
  issueOp i (.alu .xor sat rd rs1 rs2) s

/-- SLL (R70, R71). -/
def execSll (i : Issue) (sat : Bool) (rd rs1 rs2 : Nat) (s : State) : Host.Outcome State Fault Refusal :=
  issueOp i (.alu .sll sat rd rs1 rs2) s

/-- SRL (R70, R71). -/
def execSrl (i : Issue) (sat : Bool) (rd rs1 rs2 : Nat) (s : State) : Host.Outcome State Fault Refusal :=
  issueOp i (.alu .srl sat rd rs1 rs2) s

/-- SRA (R70, R71). -/
def execSra (i : Issue) (sat : Bool) (rd rs1 rs2 : Nat) (s : State) : Host.Outcome State Fault Refusal :=
  issueOp i (.alu .sra sat rd rs1 rs2) s

/-- SLT (R70, R71). -/
def execSlt (i : Issue) (sat : Bool) (rd rs1 rs2 : Nat) (s : State) : Host.Outcome State Fault Refusal :=
  issueOp i (.alu .slt sat rd rs1 rs2) s

/-- SLTU (R70, R71). -/
def execSltu (i : Issue) (sat : Bool) (rd rs1 rs2 : Nat) (s : State) : Host.Outcome State Fault Refusal :=
  issueOp i (.alu .sltu sat rd rs1 rs2) s

/-- MIN (R70, R71). -/
def execMin (i : Issue) (sat : Bool) (rd rs1 rs2 : Nat) (s : State) : Host.Outcome State Fault Refusal :=
  issueOp i (.alu .min sat rd rs1 rs2) s

/-- MAX (R70, R71). -/
def execMax (i : Issue) (sat : Bool) (rd rs1 rs2 : Nat) (s : State) : Host.Outcome State Fault Refusal :=
  issueOp i (.alu .max sat rd rs1 rs2) s

/-- MINU (R70, R71). -/
def execMinu (i : Issue) (sat : Bool) (rd rs1 rs2 : Nat) (s : State) : Host.Outcome State Fault Refusal :=
  issueOp i (.alu .minu sat rd rs1 rs2) s

/-- MAXU (R70, R71). -/
def execMaxu (i : Issue) (sat : Bool) (rd rs1 rs2 : Nat) (s : State) : Host.Outcome State Fault Refusal :=
  issueOp i (.alu .maxu sat rd rs1 rs2) s

/-- ABS (R70, R71). -/
def execAbs (i : Issue) (sat : Bool) (rd rs1 : Nat) (s : State) : Host.Outcome State Fault Refusal :=
  issueOp i (.alu .abs sat rd rs1 0) s

/-- NEG (R70, R71). -/
def execNeg (i : Issue) (sat : Bool) (rd rs1 : Nat) (s : State) : Host.Outcome State Fault Refusal :=
  issueOp i (.alu .neg sat rd rs1 0) s

/-- CLZ (R70, R71). -/
def execClz (i : Issue) (sat : Bool) (rd rs1 : Nat) (s : State) : Host.Outcome State Fault Refusal :=
  issueOp i (.alu .clz sat rd rs1 0) s

/-- MUL (R70, R71). -/
def execMul (i : Issue) (sat : Bool) (rd rs1 rs2 : Nat) (s : State) : Host.Outcome State Fault Refusal :=
  issueOp i (.alu .mul sat rd rs1 rs2) s

/-- MULH (R70, R71). -/
def execMulh (i : Issue) (sat : Bool) (rd rs1 rs2 : Nat) (s : State) : Host.Outcome State Fault Refusal :=
  issueOp i (.alu .mulh sat rd rs1 rs2) s

/-- MULHU (R70, R71). -/
def execMulhu (i : Issue) (sat : Bool) (rd rs1 rs2 : Nat) (s : State) : Host.Outcome State Fault Refusal :=
  issueOp i (.alu .mulhu sat rd rs1 rs2) s

/-- PACKH (R70, R71). -/
def execPackh (i : Issue) (sat : Bool) (rd rs1 rs2 : Nat) (s : State) : Host.Outcome State Fault Refusal :=
  issueOp i (.alu .packh sat rd rs1 rs2) s

/-- ADDI (R70, R71): `imm` is IMM13 as encoded. -/
def execAddi (i : Issue) (sat : Bool) (rd rs1 imm : Nat) (s : State) : Host.Outcome State Fault Refusal :=
  issueOp i (.alui .addi sat rd rs1 imm) s

/-- ANDI (R70, R71): `imm` is IMM13 as encoded. -/
def execAndi (i : Issue) (sat : Bool) (rd rs1 imm : Nat) (s : State) : Host.Outcome State Fault Refusal :=
  issueOp i (.alui .andi sat rd rs1 imm) s

/-- ORI (R70, R71): `imm` is IMM13 as encoded. -/
def execOri (i : Issue) (sat : Bool) (rd rs1 imm : Nat) (s : State) : Host.Outcome State Fault Refusal :=
  issueOp i (.alui .ori sat rd rs1 imm) s

/-- XORI (R70, R71): `imm` is IMM13 as encoded. -/
def execXori (i : Issue) (sat : Bool) (rd rs1 imm : Nat) (s : State) : Host.Outcome State Fault Refusal :=
  issueOp i (.alui .xori sat rd rs1 imm) s

/-- SLLI (R70, R71): `imm` is IMM13 as encoded. -/
def execSlli (i : Issue) (sat : Bool) (rd rs1 imm : Nat) (s : State) : Host.Outcome State Fault Refusal :=
  issueOp i (.alui .slli sat rd rs1 imm) s

/-- SRLI (R70, R71): `imm` is IMM13 as encoded. -/
def execSrli (i : Issue) (sat : Bool) (rd rs1 imm : Nat) (s : State) : Host.Outcome State Fault Refusal :=
  issueOp i (.alui .srli sat rd rs1 imm) s

/-- SRAI (R70, R71): `imm` is IMM13 as encoded. -/
def execSrai (i : Issue) (sat : Bool) (rd rs1 imm : Nat) (s : State) : Host.Outcome State Fault Refusal :=
  issueOp i (.alui .srai sat rd rs1 imm) s

/-- SLTI (R70, R71): `imm` is IMM13 as encoded. -/
def execSlti (i : Issue) (sat : Bool) (rd rs1 imm : Nat) (s : State) : Host.Outcome State Fault Refusal :=
  issueOp i (.alui .slti sat rd rs1 imm) s

/-- SLTIU (R70, R71): `imm` is IMM13 as encoded. -/
def execSltiu (i : Issue) (sat : Bool) (rd rs1 imm : Nat) (s : State) : Host.Outcome State Fault Refusal :=
  issueOp i (.alui .sltiu sat rd rs1 imm) s

/-- MINI (R70, R71): `imm` is IMM13 as encoded. -/
def execMini (i : Issue) (sat : Bool) (rd rs1 imm : Nat) (s : State) : Host.Outcome State Fault Refusal :=
  issueOp i (.alui .mini sat rd rs1 imm) s

/-- MAXI (R70, R71): `imm` is IMM13 as encoded. -/
def execMaxi (i : Issue) (sat : Bool) (rd rs1 imm : Nat) (s : State) : Host.Outcome State Fault Refusal :=
  issueOp i (.alui .maxi sat rd rs1 imm) s

/-- LUI (R71). -/
def execLui (i : Issue) (rd imm : Nat) (s : State) : Host.Outcome State Fault Refusal :=
  issueOp i (.lui rd imm) s

/-- MPY (R72, Table 3-4). -/
def execMpy (i : Issue) (sat : Bool) (rs1 rs2 acc : Nat) (q h1 h2 : Bool) (s : State) : Host.Outcome State Fault Refusal :=
  issueOp i (.dsp .mpy sat 0 rs1 rs2 acc q h1 h2) s

/-- MAC (R72, Table 3-4). -/
def execMac (i : Issue) (sat : Bool) (rs1 rs2 acc : Nat) (q h1 h2 : Bool) (s : State) : Host.Outcome State Fault Refusal :=
  issueOp i (.dsp .mac sat 0 rs1 rs2 acc q h1 h2) s

/-- MSU (R72, Table 3-4). -/
def execMsu (i : Issue) (sat : Bool) (rs1 rs2 acc : Nat) (q h1 h2 : Bool) (s : State) : Host.Outcome State Fault Refusal :=
  issueOp i (.dsp .msu sat 0 rs1 rs2 acc q h1 h2) s

/-- DMAC (R72, Table 3-4). -/
def execDmac (i : Issue) (sat : Bool) (rs1 rs2 acc : Nat) (q : Bool) (s : State) : Host.Outcome State Fault Refusal :=
  issueOp i (.dsp .dmac sat 0 rs1 rs2 acc q false false) s

/-- EXT (R72, Table 3-4). -/
def execExt (i : Issue) (sat : Bool) (rd shift acc : Nat) (s : State) : Host.Outcome State Fault Refusal :=
  issueOp i (.dsp .ext sat rd 0 shift acc false false false) s

/-- EXT16 (R72, Table 3-4). -/
def execExt16 (i : Issue) (sat : Bool) (rd shift acc : Nat) (s : State) : Host.Outcome State Fault Refusal :=
  issueOp i (.dsp .ext16 sat rd 0 shift acc false false false) s

/-- MULQ (R72, Table 3-4). -/
def execMulq (i : Issue) (sat : Bool) (rd rs1 rs2 : Nat) (s : State) : Host.Outcome State Fault Refusal :=
  issueOp i (.dsp .mulq sat rd rs1 rs2 0 false false false) s

/-- ACLR (R72, Table 3-4). -/
def execAclr (i : Issue) (sat : Bool) (acc : Nat) (s : State) : Host.Outcome State Fault Refusal :=
  issueOp i (.dsp .aclr sat 0 0 0 acc false false false) s

/-- ALD (R72, Table 3-4). -/
def execAld (i : Issue) (sat : Bool) (rs1 acc : Nat) (s : State) : Host.Outcome State Fault Refusal :=
  issueOp i (.dsp .ald sat 0 rs1 0 acc false false false) s

/-- AHI (R72, Table 3-4). -/
def execAhi (i : Issue) (sat : Bool) (rd acc : Nat) (s : State) : Host.Outcome State Fault Refusal :=
  issueOp i (.dsp .ahi sat rd 0 0 acc false false false) s

/-- LOAD (R73 to R78, R100). -/
def execLoad (i : Issue) (rd an mode size : Nat) (sg imem : Bool) (imm : Nat) (s : State) : Host.Outcome State Fault Refusal :=
  issueOp i (.load rd an mode size sg imem imm) s

/-- STORE (R73 to R77, R92). -/
def execStore (i : Issue) (rs an mode size : Nat) (imem : Bool) (imm : Nat) (s : State) : Host.Outcome State Fault Refusal :=
  issueOp i (.store rs an mode size imem imm) s

/-- MOVA (R75). -/
def execMova (i : Issue) (n rs1 : Nat) (s : State) : Host.Outcome State Fault Refusal :=
  issueOp i (.amov 0 n rs1) s

/-- MOVB (R75). -/
def execMovb (i : Issue) (n rs1 : Nat) (s : State) : Host.Outcome State Fault Refusal :=
  issueOp i (.amov 1 n rs1) s

/-- MOVL (R75). -/
def execMovl (i : Issue) (n rs1 : Nat) (s : State) : Host.Outcome State Fault Refusal :=
  issueOp i (.amov 2 n rs1) s

/-- MOVM (R75). -/
def execMovm (i : Issue) (n rs1 : Nat) (s : State) : Host.Outcome State Fault Refusal :=
  issueOp i (.amov 3 n rs1) s

/-- AADDI (R75). -/
def execAaddi (i : Issue) (n imm : Nat) (s : State) : Host.Outcome State Fault Refusal :=
  issueOp i (.aaddi n imm) s

/-- AADDM (R75). -/
def execAaddm (i : Issue) (n m : Nat) (s : State) : Host.Outcome State Fault Refusal :=
  issueOp i (.aaddm n m) s

/-- MFA (R75). -/
def execMfa (i : Issue) (rd file n : Nat) (s : State) : Host.Outcome State Fault Refusal :=
  issueOp i (.mfa rd file n) s

/-- BRANCH (R80, R81, R83). -/
def execBranch (i : Issue) (cond rs1 rs2 off : Nat) (s : State) : Host.Outcome State Fault Refusal :=
  issueOp i (.branch cond rs1 rs2 off) s

/-- J (R80). -/
def execJ (i : Issue) (target : Nat) (s : State) : Host.Outcome State Fault Refusal :=
  issueOp i (.jump .j 0 target) s

/-- JAL (R80). -/
def execJal (i : Issue) (target : Nat) (s : State) : Host.Outcome State Fault Refusal :=
  issueOp i (.jump .jal 0 target) s

/-- JR (R80). -/
def execJr (i : Issue) (rs1 : Nat) (s : State) : Host.Outcome State Fault Refusal :=
  issueOp i (.jump .jr rs1 0) s

/-- JALR (R80). -/
def execJalr (i : Issue) (rs1 : Nat) (s : State) : Host.Outcome State Fault Refusal :=
  issueOp i (.jump .jalr rs1 0) s

/-- REP (R82, R83). -/
def execRep (i : Issue) (src : Bool) (count rs1 len : Nat) (s : State) : Host.Outcome State Fault Refusal :=
  issueOp i (.rep src count rs1 len) s

/-- MFS (R96). -/
def execMfs (i : Issue) (rd index : Nat) (s : State) : Host.Outcome State Fault Refusal :=
  issueOp i (.mfs rd index) s

/-- MTS (R96). -/
def execMts (i : Issue) (rs index : Nat) (s : State) : Host.Outcome State Fault Refusal :=
  issueOp i (.mts rs index) s

/-- LRPASS (R94, R144). -/
def execLrpass (i : Issue) (row rs1 rs2 rd : Nat) (s : State) : Host.Outcome State Fault Refusal :=
  issueOp i (.eng .lrpass row rs1 rs2 rd) s

/-- DMA (R94, R184). -/
def execDma (i : Issue) (rs1 rs2 rd : Nat) (s : State) : Host.Outcome State Fault Refusal :=
  issueOp i (.eng .dma 0 rs1 rs2 rd) s

/-- IMLOAD (R94, R184). -/
def execImload (i : Issue) (rs1 rs2 rd : Nat) (s : State) : Host.Outcome State Fault Refusal :=
  issueOp i (.eng .imload 0 rs1 rs2 rd) s

/-- QSEND (R94, R224). -/
def execQsend (i : Issue) (rs1 rs2 rd : Nat) (s : State) : Host.Outcome State Fault Refusal :=
  issueOp i (.eng .qsend 0 rs1 rs2 rd) s

/-- QRECV (R94, R228). -/
def execQrecv (i : Issue) (rs1 rs2 rd : Nat) (s : State) : Host.Outcome State Fault Refusal :=
  issueOp i (.eng .qrecv 0 rs1 rs2 rd) s

/-- SSIG (R94, R239). -/
def execSsig (i : Issue) (rs1 rs2 rd : Nat) (s : State) : Host.Outcome State Fault Refusal :=
  issueOp i (.eng .ssig 0 rs1 rs2 rd) s

/-- SWAIT (R94, R240 to R242). -/
def execSwait (i : Issue) (rs1 rs2 rd : Nat) (s : State) : Host.Outcome State Fault Refusal :=
  issueOp i (.eng .swait 0 rs1 rs2 rd) s

/-- INTERRUPT_ENTRY (R84 to R86): the core accepts the interrupt of lowest CODE, where it stands at an interruptible point that PSTAT
and IMASK leave open. -/
def execInterruptEntry (c : Nat) (s : State) : Host.Outcome State Fault Refusal :=
  if 96 ≤ c then .fault .absentUnit
  else
    match dueIrq s c with
    | some code => if s.time.running && coreOn s c then finish (interruptEntry s c code) else finish s
    | none => finish s

/-- What the debugger does to a core under scope bit 0 (R99, R567): a halt stops Pilot at the bundle boundary, even within a delay slot. -/
def debugCore (s : State) (c : Nat) (f : Run → Option Run) : State :=
  if s.wdn.tap.ir = 0x21 ∧ bitOf s.wdn.tap.scope 0 then
    match f (core s c).run with
    | some r => onCore s c (fun k => { k with run := r })
    | none => s
  else s

/-- DEBUG (R564, R567, R99): the debug register is selected, and a core is halted, let run on, or takes BREAKPOINT. -/
def execTapDebug (op : DebugOp) (s : State) : Host.Outcome State Fault Refusal :=
  let s := tapLoad s 0x21
  match op with
  | .select => finish s
  | .halt c =>
    if 96 ≤ c then .fault .absentUnit
    else finish (debugCore s c (fun r => if r = .running then some .debug else none))
  | .resume c =>
    if 96 ≤ c then .fault .absentUnit
    else finish (debugCore s c (fun r => if r = .debug then some .running else none))
  | .breakpoint c =>
    if 96 ≤ c then .fault .absentUnit
    else if s.wdn.tap.ir = 0x21 ∧ bitOf s.wdn.tap.scope 0 ∧ ((core s c).run = .running ∨ (core s c).run = .debug) then
      finish (trapHere s c ⟨11, none⟩)
    else finish s

end Sys2Proof.Machine
end

