-- ==== Sys2Proof/Machine/VectorRows.lean ====
section
/-!
DEFINITION. The rows of the vector engine: each operation of class 0xB runs the bundle it stands in (R109 to R135).
-/
namespace Sys2Proof.Machine

/-- VADD (R111 to R113). -/
def execVadd (i : Issue) (a : VArgs) (s : State) : Host.Outcome State Fault Refusal :=
  issueOp i (.vec (.int .add a)) s

/-- VADDS (R111 to R113). -/
def execVadds (i : Issue) (a : VArgs) (s : State) : Host.Outcome State Fault Refusal :=
  issueOp i (.vec (.int .adds a)) s

/-- VSUB (R111 to R113). -/
def execVsub (i : Issue) (a : VArgs) (s : State) : Host.Outcome State Fault Refusal :=
  issueOp i (.vec (.int .sub a)) s

/-- VSUBS (R111 to R113). -/
def execVsubs (i : Issue) (a : VArgs) (s : State) : Host.Outcome State Fault Refusal :=
  issueOp i (.vec (.int .subs a)) s

/-- VADDUS (R111 to R113). -/
def execVaddus (i : Issue) (a : VArgs) (s : State) : Host.Outcome State Fault Refusal :=
  issueOp i (.vec (.int .addus a)) s

/-- VSUBUS (R111 to R113). -/
def execVsubus (i : Issue) (a : VArgs) (s : State) : Host.Outcome State Fault Refusal :=
  issueOp i (.vec (.int .subus a)) s

/-- VMUL (R111 to R113). -/
def execVmul (i : Issue) (a : VArgs) (s : State) : Host.Outcome State Fault Refusal :=
  issueOp i (.vec (.int .mul a)) s

/-- VMULH (R111 to R113). -/
def execVmulh (i : Issue) (a : VArgs) (s : State) : Host.Outcome State Fault Refusal :=
  issueOp i (.vec (.int .mulh a)) s

/-- VMULHU (R111 to R113). -/
def execVmulhu (i : Issue) (a : VArgs) (s : State) : Host.Outcome State Fault Refusal :=
  issueOp i (.vec (.int .mulhu a)) s

/-- VMULQ (R111 to R113). -/
def execVmulq (i : Issue) (a : VArgs) (s : State) : Host.Outcome State Fault Refusal :=
  issueOp i (.vec (.int .mulq a)) s

/-- VMULQS (R111 to R113). -/
def execVmulqs (i : Issue) (a : VArgs) (s : State) : Host.Outcome State Fault Refusal :=
  issueOp i (.vec (.int .mulqs a)) s

/-- VMAC (R111 to R113). -/
def execVmac (i : Issue) (a : VArgs) (s : State) : Host.Outcome State Fault Refusal :=
  issueOp i (.vec (.int .mac a)) s

/-- VMACS (R111 to R113). -/
def execVmacs (i : Issue) (a : VArgs) (s : State) : Host.Outcome State Fault Refusal :=
  issueOp i (.vec (.int .macs a)) s

/-- VMIN (R111 to R113). -/
def execVmin (i : Issue) (a : VArgs) (s : State) : Host.Outcome State Fault Refusal :=
  issueOp i (.vec (.int .min a)) s

/-- VMAX (R111 to R113). -/
def execVmax (i : Issue) (a : VArgs) (s : State) : Host.Outcome State Fault Refusal :=
  issueOp i (.vec (.int .max a)) s

/-- VMINU (R111 to R113). -/
def execVminu (i : Issue) (a : VArgs) (s : State) : Host.Outcome State Fault Refusal :=
  issueOp i (.vec (.int .minu a)) s

/-- VMAXU (R111 to R113). -/
def execVmaxu (i : Issue) (a : VArgs) (s : State) : Host.Outcome State Fault Refusal :=
  issueOp i (.vec (.int .maxu a)) s

/-- VAND (R111 to R113). -/
def execVand (i : Issue) (a : VArgs) (s : State) : Host.Outcome State Fault Refusal :=
  issueOp i (.vec (.int .and a)) s

/-- VOR (R111 to R113). -/
def execVor (i : Issue) (a : VArgs) (s : State) : Host.Outcome State Fault Refusal :=
  issueOp i (.vec (.int .or a)) s

/-- VXOR (R111 to R113). -/
def execVxor (i : Issue) (a : VArgs) (s : State) : Host.Outcome State Fault Refusal :=
  issueOp i (.vec (.int .xor a)) s

/-- VSLL (R111 to R113). -/
def execVsll (i : Issue) (a : VArgs) (s : State) : Host.Outcome State Fault Refusal :=
  issueOp i (.vec (.int .sll a)) s

/-- VSRL (R111 to R113). -/
def execVsrl (i : Issue) (a : VArgs) (s : State) : Host.Outcome State Fault Refusal :=
  issueOp i (.vec (.int .srl a)) s

/-- VSRA (R111 to R113). -/
def execVsra (i : Issue) (a : VArgs) (s : State) : Host.Outcome State Fault Refusal :=
  issueOp i (.vec (.int .sra a)) s

/-- VSRAR (R111 to R113). -/
def execVsrar (i : Issue) (a : VArgs) (s : State) : Host.Outcome State Fault Refusal :=
  issueOp i (.vec (.int .srar a)) s

/-- VABS (R111 to R113). -/
def execVabs (i : Issue) (a : VArgs) (s : State) : Host.Outcome State Fault Refusal :=
  issueOp i (.vec (.int .abs a)) s

/-- VABSS (R111 to R113). -/
def execVabss (i : Issue) (a : VArgs) (s : State) : Host.Outcome State Fault Refusal :=
  issueOp i (.vec (.int .abss a)) s

/-- VMOV (R111 to R113). -/
def execVmov (i : Issue) (a : VArgs) (s : State) : Host.Outcome State Fault Refusal :=
  issueOp i (.vec (.int .mov a)) s

/-- FADD (R107, R111, R114, R115). -/
def execFadd (i : Issue) (a : VArgs) (s : State) : Host.Outcome State Fault Refusal :=
  issueOp i (.vec (.flt .add a)) s

/-- FSUB (R107, R111, R114, R115). -/
def execFsub (i : Issue) (a : VArgs) (s : State) : Host.Outcome State Fault Refusal :=
  issueOp i (.vec (.flt .sub a)) s

/-- FMUL (R107, R111, R114, R115). -/
def execFmul (i : Issue) (a : VArgs) (s : State) : Host.Outcome State Fault Refusal :=
  issueOp i (.vec (.flt .mul a)) s

/-- FMA (R107, R111, R114, R115). -/
def execFma (i : Issue) (a : VArgs) (s : State) : Host.Outcome State Fault Refusal :=
  issueOp i (.vec (.flt .fma a)) s

/-- FMIN (R107, R111, R114, R115). -/
def execFmin (i : Issue) (a : VArgs) (s : State) : Host.Outcome State Fault Refusal :=
  issueOp i (.vec (.flt .min a)) s

/-- FMAX (R107, R111, R114, R115). -/
def execFmax (i : Issue) (a : VArgs) (s : State) : Host.Outcome State Fault Refusal :=
  issueOp i (.vec (.flt .max a)) s

/-- FABS (R107, R111, R114, R115). -/
def execFabs (i : Issue) (a : VArgs) (s : State) : Host.Outcome State Fault Refusal :=
  issueOp i (.vec (.flt .abs a)) s

/-- FNEG (R107, R111, R114, R115). -/
def execFneg (i : Issue) (a : VArgs) (s : State) : Host.Outcome State Fault Refusal :=
  issueOp i (.vec (.flt .neg a)) s

/-- FRCPE (R107, R111, R114, R115). -/
def execFrcpe (i : Issue) (a : VArgs) (s : State) : Host.Outcome State Fault Refusal :=
  issueOp i (.vec (.flt .rcpe a)) s

/-- FRSQE (R107, R111, R114, R115). -/
def execFrsqe (i : Issue) (a : VArgs) (s : State) : Host.Outcome State Fault Refusal :=
  issueOp i (.vec (.flt .rsqe a)) s

/-- FMOV (R107, R111, R114, R115). -/
def execFmov (i : Issue) (a : VArgs) (s : State) : Host.Outcome State Fault Refusal :=
  issueOp i (.vec (.flt .mov a)) s

/-- VLD (R122, R124 to R128). -/
def execVld (i : Issue) (vd base stride ew km : Nat) (mz : Bool) (s : State) : Host.Outcome State Fault Refusal :=
  issueOp i (.vec (.ld vd base stride ew km mz)) s

/-- VST (R122, R124 to R127). -/
def execVst (i : Issue) (vs base stride ew km : Nat) (s : State) : Host.Outcome State Fault Refusal :=
  issueOp i (.vec (.st vs base stride ew km)) s

/-- VGATHER (R123 to R128). -/
def execVgather (i : Issue) (vd base vi ew km : Nat) (mz : Bool) (s : State) : Host.Outcome State Fault Refusal :=
  issueOp i (.vec (.gather vd base vi ew km mz)) s

/-- VSCATTER (R123 to R127). -/
def execVscatter (i : Issue) (vs base vi ew km : Nat) (s : State) : Host.Outcome State Fault Refusal :=
  issueOp i (.vec (.scatter vs base vi ew km)) s

/-- VCVT (R120, R121). -/
def execVcvt (i : Issue) (vd vs1 srcf dstf : Nat) (sat : Bool) (part : Nat) (s : State) : Host.Outcome State Fault Refusal :=
  issueOp i (.vec (.cvt vd vs1 srcf dstf sat part)) s

/-- VCMP (R116). -/
def execVcmp (i : Issue) (kd vs1 v2 : Nat) (src : Bool) (ty cond : Nat) (s : State) : Host.Outcome State Fault Refusal :=
  issueOp i (.vec (.cmp kd vs1 v2 src ty cond)) s

/-- VRED (R116). -/
def execVred (i : Issue) (rd vs1 km ty op : Nat) (s : State) : Host.Outcome State Fault Refusal :=
  issueOp i (.vec (.red rd vs1 km ty op)) s

/-- BCAST (R116). -/
def execBcast (i : Issue) (vd r ew : Nat) (s : State) : Host.Outcome State Fault Refusal :=
  issueOp i (.vec (.perm .bcast vd 0 r ew)) s

/-- SLIDEUP (R116). -/
def execSlideup (i : Issue) (vd vs1 r ew : Nat) (s : State) : Host.Outcome State Fault Refusal :=
  issueOp i (.vec (.perm .slideup vd vs1 r ew)) s

/-- SLIDEDN (R116). -/
def execSlidedn (i : Issue) (vd vs1 r ew : Nat) (s : State) : Host.Outcome State Fault Refusal :=
  issueOp i (.vec (.perm .slidedn vd vs1 r ew)) s

/-- PERM (R116). -/
def execPerm (i : Issue) (vd vs1 r ew : Nat) (s : State) : Host.Outcome State Fault Refusal :=
  issueOp i (.vec (.perm .perm vd vs1 r ew)) s

/-- KAND (R116). -/
def execKand (i : Issue) (kd ka kb : Nat) (s : State) : Host.Outcome State Fault Refusal :=
  issueOp i (.vec (.mask .kand kd ka kb 0 0)) s

/-- KOR (R116). -/
def execKor (i : Issue) (kd ka kb : Nat) (s : State) : Host.Outcome State Fault Refusal :=
  issueOp i (.vec (.mask .kor kd ka kb 0 0)) s

/-- KXOR (R116). -/
def execKxor (i : Issue) (kd ka kb : Nat) (s : State) : Host.Outcome State Fault Refusal :=
  issueOp i (.vec (.mask .kxor kd ka kb 0 0)) s

/-- KANDN (R116). -/
def execKandn (i : Issue) (kd ka kb : Nat) (s : State) : Host.Outcome State Fault Refusal :=
  issueOp i (.vec (.mask .kandn kd ka kb 0 0)) s

/-- KPOPC (R116). -/
def execKpopc (i : Issue) (ka r : Nat) (s : State) : Host.Outcome State Fault Refusal :=
  issueOp i (.vec (.mask .kpopc 0 ka 0 r 0)) s

/-- KFIRST (R116). -/
def execKfirst (i : Issue) (ka r : Nat) (s : State) : Host.Outcome State Fault Refusal :=
  issueOp i (.vec (.mask .kfirst 0 ka 0 r 0)) s

/-- KTOS (R116). -/
def execKtos (i : Issue) (ka r part : Nat) (s : State) : Host.Outcome State Fault Refusal :=
  issueOp i (.vec (.mask .ktos 0 ka 0 r part)) s

/-- STOK (R116). -/
def execStok (i : Issue) (kd r part : Nat) (s : State) : Host.Outcome State Fault Refusal :=
  issueOp i (.vec (.mask .stok kd 0 0 r part)) s

/-- VMOVS (R116). -/
def execVmovs (i : Issue) (v r idx ew : Nat) (toV : Bool) (s : State) : Host.Outcome State Fault Refusal :=
  issueOp i (.vec (.movs v r idx ew toV)) s

end Sys2Proof.Machine
end

