-- ==== Sys2Proof/Machine/Dispatch.lean ====
section
/-!
DEFINITION. One arm per command: each calls its meaning.
-/
namespace Sys2Proof.Machine

/-- What a command does to the chip (everything but the queue of waiting commands). -/
def exec (i : Instr) (s : State) : Host.Outcome State Fault Refusal :=
  match i with
  | .nop iss => Sys2Proof.Machine.execNop iss s
  | .heel iss tag => Sys2Proof.Machine.execHeel iss tag s
  | .ifence iss => Sys2Proof.Machine.execIfence iss s
  | .fenceFull iss => Sys2Proof.Machine.execFenceFull iss s
  | .fenceRelease iss => Sys2Proof.Machine.execFenceRelease iss s
  | .fenceAcquire iss => Sys2Proof.Machine.execFenceAcquire iss s
  | .fenceDma iss => Sys2Proof.Machine.execFenceDma iss s
  | .rti iss => Sys2Proof.Machine.execRti iss s
  | .trap iss code => Sys2Proof.Machine.execTrap iss code s
  | .waiti iss => Sys2Proof.Machine.execWaiti iss s
  | .rbrk iss => Sys2Proof.Machine.execRbrk iss s
  | .add iss sat rd rs1 rs2 => Sys2Proof.Machine.execAdd iss sat rd rs1 rs2 s
  | .sub iss sat rd rs1 rs2 => Sys2Proof.Machine.execSub iss sat rd rs1 rs2 s
  | .addu iss sat rd rs1 rs2 => Sys2Proof.Machine.execAddu iss sat rd rs1 rs2 s
  | .subu iss sat rd rs1 rs2 => Sys2Proof.Machine.execSubu iss sat rd rs1 rs2 s
  | .and iss sat rd rs1 rs2 => Sys2Proof.Machine.execAnd iss sat rd rs1 rs2 s
  | .or iss sat rd rs1 rs2 => Sys2Proof.Machine.execOr iss sat rd rs1 rs2 s
  | .xor iss sat rd rs1 rs2 => Sys2Proof.Machine.execXor iss sat rd rs1 rs2 s
  | .sll iss sat rd rs1 rs2 => Sys2Proof.Machine.execSll iss sat rd rs1 rs2 s
  | .srl iss sat rd rs1 rs2 => Sys2Proof.Machine.execSrl iss sat rd rs1 rs2 s
  | .sra iss sat rd rs1 rs2 => Sys2Proof.Machine.execSra iss sat rd rs1 rs2 s
  | .slt iss sat rd rs1 rs2 => Sys2Proof.Machine.execSlt iss sat rd rs1 rs2 s
  | .sltu iss sat rd rs1 rs2 => Sys2Proof.Machine.execSltu iss sat rd rs1 rs2 s
  | .min iss sat rd rs1 rs2 => Sys2Proof.Machine.execMin iss sat rd rs1 rs2 s
  | .max iss sat rd rs1 rs2 => Sys2Proof.Machine.execMax iss sat rd rs1 rs2 s
  | .minu iss sat rd rs1 rs2 => Sys2Proof.Machine.execMinu iss sat rd rs1 rs2 s
  | .maxu iss sat rd rs1 rs2 => Sys2Proof.Machine.execMaxu iss sat rd rs1 rs2 s
  | .abs iss sat rd rs1 => Sys2Proof.Machine.execAbs iss sat rd rs1 s
  | .neg iss sat rd rs1 => Sys2Proof.Machine.execNeg iss sat rd rs1 s
  | .clz iss sat rd rs1 => Sys2Proof.Machine.execClz iss sat rd rs1 s
  | .mul iss sat rd rs1 rs2 => Sys2Proof.Machine.execMul iss sat rd rs1 rs2 s
  | .mulh iss sat rd rs1 rs2 => Sys2Proof.Machine.execMulh iss sat rd rs1 rs2 s
  | .mulhu iss sat rd rs1 rs2 => Sys2Proof.Machine.execMulhu iss sat rd rs1 rs2 s
  | .packh iss sat rd rs1 rs2 => Sys2Proof.Machine.execPackh iss sat rd rs1 rs2 s
  | .addi iss sat rd rs1 imm => Sys2Proof.Machine.execAddi iss sat rd rs1 imm s
  | .andi iss sat rd rs1 imm => Sys2Proof.Machine.execAndi iss sat rd rs1 imm s
  | .ori iss sat rd rs1 imm => Sys2Proof.Machine.execOri iss sat rd rs1 imm s
  | .xori iss sat rd rs1 imm => Sys2Proof.Machine.execXori iss sat rd rs1 imm s
  | .slli iss sat rd rs1 imm => Sys2Proof.Machine.execSlli iss sat rd rs1 imm s
  | .srli iss sat rd rs1 imm => Sys2Proof.Machine.execSrli iss sat rd rs1 imm s
  | .srai iss sat rd rs1 imm => Sys2Proof.Machine.execSrai iss sat rd rs1 imm s
  | .slti iss sat rd rs1 imm => Sys2Proof.Machine.execSlti iss sat rd rs1 imm s
  | .sltiu iss sat rd rs1 imm => Sys2Proof.Machine.execSltiu iss sat rd rs1 imm s
  | .mini iss sat rd rs1 imm => Sys2Proof.Machine.execMini iss sat rd rs1 imm s
  | .maxi iss sat rd rs1 imm => Sys2Proof.Machine.execMaxi iss sat rd rs1 imm s
  | .lui iss rd imm => Sys2Proof.Machine.execLui iss rd imm s
  | .mpy iss sat rs1 rs2 acc q h1 h2 => Sys2Proof.Machine.execMpy iss sat rs1 rs2 acc q h1 h2 s
  | .mac iss sat rs1 rs2 acc q h1 h2 => Sys2Proof.Machine.execMac iss sat rs1 rs2 acc q h1 h2 s
  | .msu iss sat rs1 rs2 acc q h1 h2 => Sys2Proof.Machine.execMsu iss sat rs1 rs2 acc q h1 h2 s
  | .dmac iss sat rs1 rs2 acc q => Sys2Proof.Machine.execDmac iss sat rs1 rs2 acc q s
  | .ext iss sat rd shift acc => Sys2Proof.Machine.execExt iss sat rd shift acc s
  | .ext16 iss sat rd shift acc => Sys2Proof.Machine.execExt16 iss sat rd shift acc s
  | .mulq iss sat rd rs1 rs2 => Sys2Proof.Machine.execMulq iss sat rd rs1 rs2 s
  | .aclr iss sat acc => Sys2Proof.Machine.execAclr iss sat acc s
  | .ald iss sat rs1 acc => Sys2Proof.Machine.execAld iss sat rs1 acc s
  | .ahi iss sat rd acc => Sys2Proof.Machine.execAhi iss sat rd acc s
  | .load iss rd an mode size sg imem imm => Sys2Proof.Machine.execLoad iss rd an mode size sg imem imm s
  | .store iss rs an mode size imem imm => Sys2Proof.Machine.execStore iss rs an mode size imem imm s
  | .mova iss n rs1 => Sys2Proof.Machine.execMova iss n rs1 s
  | .movb iss n rs1 => Sys2Proof.Machine.execMovb iss n rs1 s
  | .movl iss n rs1 => Sys2Proof.Machine.execMovl iss n rs1 s
  | .movm iss n rs1 => Sys2Proof.Machine.execMovm iss n rs1 s
  | .aaddi iss n imm => Sys2Proof.Machine.execAaddi iss n imm s
  | .aaddm iss n m => Sys2Proof.Machine.execAaddm iss n m s
  | .mfa iss rd file n => Sys2Proof.Machine.execMfa iss rd file n s
  | .branch iss cond rs1 rs2 off => Sys2Proof.Machine.execBranch iss cond rs1 rs2 off s
  | .j iss target => Sys2Proof.Machine.execJ iss target s
  | .jal iss target => Sys2Proof.Machine.execJal iss target s
  | .jr iss rs1 => Sys2Proof.Machine.execJr iss rs1 s
  | .jalr iss rs1 => Sys2Proof.Machine.execJalr iss rs1 s
  | .rep iss src count rs1 len => Sys2Proof.Machine.execRep iss src count rs1 len s
  | .mfs iss rd index => Sys2Proof.Machine.execMfs iss rd index s
  | .mts iss rs index => Sys2Proof.Machine.execMts iss rs index s
  | .interruptEntry c => Sys2Proof.Machine.execInterruptEntry c s
  | .vadd iss a => Sys2Proof.Machine.execVadd iss a s
  | .vadds iss a => Sys2Proof.Machine.execVadds iss a s
  | .vsub iss a => Sys2Proof.Machine.execVsub iss a s
  | .vsubs iss a => Sys2Proof.Machine.execVsubs iss a s
  | .vaddus iss a => Sys2Proof.Machine.execVaddus iss a s
  | .vsubus iss a => Sys2Proof.Machine.execVsubus iss a s
  | .vmul iss a => Sys2Proof.Machine.execVmul iss a s
  | .vmulh iss a => Sys2Proof.Machine.execVmulh iss a s
  | .vmulhu iss a => Sys2Proof.Machine.execVmulhu iss a s
  | .vmulq iss a => Sys2Proof.Machine.execVmulq iss a s
  | .vmulqs iss a => Sys2Proof.Machine.execVmulqs iss a s
  | .vmac iss a => Sys2Proof.Machine.execVmac iss a s
  | .vmacs iss a => Sys2Proof.Machine.execVmacs iss a s
  | .vmin iss a => Sys2Proof.Machine.execVmin iss a s
  | .vmax iss a => Sys2Proof.Machine.execVmax iss a s
  | .vminu iss a => Sys2Proof.Machine.execVminu iss a s
  | .vmaxu iss a => Sys2Proof.Machine.execVmaxu iss a s
  | .vand iss a => Sys2Proof.Machine.execVand iss a s
  | .vor iss a => Sys2Proof.Machine.execVor iss a s
  | .vxor iss a => Sys2Proof.Machine.execVxor iss a s
  | .vsll iss a => Sys2Proof.Machine.execVsll iss a s
  | .vsrl iss a => Sys2Proof.Machine.execVsrl iss a s
  | .vsra iss a => Sys2Proof.Machine.execVsra iss a s
  | .vsrar iss a => Sys2Proof.Machine.execVsrar iss a s
  | .vabs iss a => Sys2Proof.Machine.execVabs iss a s
  | .vabss iss a => Sys2Proof.Machine.execVabss iss a s
  | .vmov iss a => Sys2Proof.Machine.execVmov iss a s
  | .fadd iss a => Sys2Proof.Machine.execFadd iss a s
  | .fsub iss a => Sys2Proof.Machine.execFsub iss a s
  | .fmul iss a => Sys2Proof.Machine.execFmul iss a s
  | .fma iss a => Sys2Proof.Machine.execFma iss a s
  | .fmin iss a => Sys2Proof.Machine.execFmin iss a s
  | .fmax iss a => Sys2Proof.Machine.execFmax iss a s
  | .fabs iss a => Sys2Proof.Machine.execFabs iss a s
  | .fneg iss a => Sys2Proof.Machine.execFneg iss a s
  | .frcpe iss a => Sys2Proof.Machine.execFrcpe iss a s
  | .frsqe iss a => Sys2Proof.Machine.execFrsqe iss a s
  | .fmov iss a => Sys2Proof.Machine.execFmov iss a s
  | .vld iss vd base stride ew km mz => Sys2Proof.Machine.execVld iss vd base stride ew km mz s
  | .vst iss vs base stride ew km => Sys2Proof.Machine.execVst iss vs base stride ew km s
  | .vgather iss vd base vi ew km mz => Sys2Proof.Machine.execVgather iss vd base vi ew km mz s
  | .vscatter iss vs base vi ew km => Sys2Proof.Machine.execVscatter iss vs base vi ew km s
  | .vcvt iss vd vs1 srcf dstf sat part => Sys2Proof.Machine.execVcvt iss vd vs1 srcf dstf sat part s
  | .vcmp iss kd vs1 v2 src ty cond => Sys2Proof.Machine.execVcmp iss kd vs1 v2 src ty cond s
  | .vred iss rd vs1 km ty op => Sys2Proof.Machine.execVred iss rd vs1 km ty op s
  | .bcast iss vd r ew => Sys2Proof.Machine.execBcast iss vd r ew s
  | .slideup iss vd vs1 r ew => Sys2Proof.Machine.execSlideup iss vd vs1 r ew s
  | .slidedn iss vd vs1 r ew => Sys2Proof.Machine.execSlidedn iss vd vs1 r ew s
  | .perm iss vd vs1 r ew => Sys2Proof.Machine.execPerm iss vd vs1 r ew s
  | .kand iss kd ka kb => Sys2Proof.Machine.execKand iss kd ka kb s
  | .kor iss kd ka kb => Sys2Proof.Machine.execKor iss kd ka kb s
  | .kxor iss kd ka kb => Sys2Proof.Machine.execKxor iss kd ka kb s
  | .kandn iss kd ka kb => Sys2Proof.Machine.execKandn iss kd ka kb s
  | .kpopc iss ka r => Sys2Proof.Machine.execKpopc iss ka r s
  | .kfirst iss ka r => Sys2Proof.Machine.execKfirst iss ka r s
  | .ktos iss ka r part => Sys2Proof.Machine.execKtos iss ka r part s
  | .stok iss kd r part => Sys2Proof.Machine.execStok iss kd r part s
  | .vmovs iss v r idx ew toV => Sys2Proof.Machine.execVmovs iss v r idx ew toV s
  | .lrpass iss row rs1 rs2 rd => Sys2Proof.Machine.execLrpass iss row rs1 rs2 rd s
  | .dma iss rs1 rs2 rd => Sys2Proof.Machine.execDma iss rs1 rs2 rd s
  | .imload iss rs1 rs2 rd => Sys2Proof.Machine.execImload iss rs1 rs2 rd s
  | .qsend iss rs1 rs2 rd => Sys2Proof.Machine.execQsend iss rs1 rs2 rd s
  | .qrecv iss rs1 rs2 rd => Sys2Proof.Machine.execQrecv iss rs1 rs2 rd s
  | .ssig iss rs1 rs2 rd => Sys2Proof.Machine.execSsig iss rs1 rs2 rd s
  | .swait iss rs1 rs2 rd => Sys2Proof.Machine.execSwait iss rs1 rs2 rd s
  | .weightFill c => Sys2Proof.Machine.execWeightFill c s
  | .avenueIssue c => Sys2Proof.Machine.execAvenueIssue c s
  | .passStart c => Sys2Proof.Machine.execPassStart c s
  | .passComplete c => Sys2Proof.Machine.execPassComplete c s
  | .rowStop c => Sys2Proof.Machine.execRowStop c s
  | .passAbort c cause row lane => Sys2Proof.Machine.execPassAbort c cause row lane s
  | .dmaComplete c iss => Sys2Proof.Machine.execDmaComplete c iss s
  | .rdS line chip agent other => Sys2Proof.Machine.execRdS line chip agent other s
  | .rdX line chip agent other => Sys2Proof.Machine.execRdX line chip agent other s
  | .upg line chip agent other => Sys2Proof.Machine.execUpg line chip agent other s
  | .wrl line chip agent data other => Sys2Proof.Machine.execWrl line chip agent data other s
  | .wb line chip data poison => Sys2Proof.Machine.execWb line chip data poison s
  | .evictE line chip => Sys2Proof.Machine.execEvictE line chip s
  | .ucRd chip agent ga n => Sys2Proof.Machine.execUcRd chip agent ga n s
  | .ucWr chip agent ga d => Sys2Proof.Machine.execUcWr chip agent ga d s
  | .snpInv line home => Sys2Proof.Machine.execSnpInv line home s
  | .snpFwdS line home dest => Sys2Proof.Machine.execSnpFwdS line home dest s
  | .snpFwdX line home dest => Sys2Proof.Machine.execSnpFwdX line home dest s
  | .dataS line data poison => Sys2Proof.Machine.execDataS line data poison s
  | .dataE line data poison => Sys2Proof.Machine.execDataE line data poison s
  | .dataM line data poison => Sys2Proof.Machine.execDataM line data poison s
  | .invAck line chip data poison => Sys2Proof.Machine.execInvAck line chip data poison s
  | .fwdAck line chip data poison => Sys2Proof.Machine.execFwdAck line chip data poison s
  | .wbAck line => Sys2Proof.Machine.execWbAck line s
  | .wbPending line chip => Sys2Proof.Machine.execWbPending line chip s
  | .retry line agent => Sys2Proof.Machine.execRetry line agent s
  | .err ga agent => Sys2Proof.Machine.execErr ga agent s
  | .ucData ga agent d => Sys2Proof.Machine.execUcData ga agent d s
  | .ucAck ga agent => Sys2Proof.Machine.execUcAck ga agent s
  | .patrolRead err => Sys2Proof.Machine.execPatrolRead err s
  | .kennelEntry num_ page ue => Sys2Proof.Machine.execKennelEntry num_ page ue s
  | .send w q off d => Sys2Proof.Machine.execSend w q off d s
  | .queueAccept adr => Sys2Proof.Machine.execQueueAccept adr s
  | .consume w q k word => Sys2Proof.Machine.execConsume w q k word s
  | .mcDeliver ch => Sys2Proof.Machine.execMcDeliver ch s
  | .qrecvTimeout after c => Sys2Proof.Machine.execQrecvTimeout after c s
  | .signal w obj k => Sys2Proof.Machine.execSignal w obj k s
  | .syncReset obj v => Sys2Proof.Machine.execSyncReset obj v s
  | .swaitTimeout after c slot => Sys2Proof.Machine.execSwaitTimeout after c slot s
  | .qmsg chip agent dest kind d => Sys2Proof.Machine.execQmsg chip agent dest kind d s
  | .syncSig chip agent obj k => Sys2Proof.Machine.execSyncSig chip agent obj k s
  | .syncWait chip token obj n => Sys2Proof.Machine.execSyncWait chip token obj n s
  | .syncGrant chip obj token status n type => Sys2Proof.Machine.execSyncGrant chip obj token status n type s
  | .syncWithdraw chip token obj => Sys2Proof.Machine.execSyncWithdraw chip token obj s
  | .taskSubmit w p off d => Sys2Proof.Machine.execTaskSubmit w p off d s
  | .taskDispatch p => Sys2Proof.Machine.execTaskDispatch p s
  | .taskEnd c => Sys2Proof.Machine.execTaskEnd c s
  | .decisionInstant after => Sys2Proof.Machine.execDecisionInstant after s
  | .leashExpiry after c => Sys2Proof.Machine.execLeashExpiry after c s
  | .claimYield c => Sys2Proof.Machine.execClaimYield c s
  | .claimImageLoaded c => Sys2Proof.Machine.execClaimImageLoaded c s
  | .lookup w p off d => Sys2Proof.Machine.execLookup w p off d s
  | .bind p bslot doneSync statusGa doneEn => Sys2Proof.Machine.execBind p bslot doneSync statusGa doneEn s
  | .unbind p bslot doneSync statusGa doneEn => Sys2Proof.Machine.execUnbind p bslot doneSync statusGa doneEn s
  | .lkupReq chip token table row gen pos fmt => Sys2Proof.Machine.execLkupReq chip token table row gen pos fmt s
  | .lkupData batch pos status total data => Sys2Proof.Machine.execLkupData batch pos status total data s
  | .lookupDone batch => Sys2Proof.Machine.execLookupDone batch s
  | .skewWindow => Sys2Proof.Machine.execSkewWindow s
  | .skewCounterRead w k => Sys2Proof.Machine.execSkewCounterRead w k s
  | .skewEvaluation peers loads copies => Sys2Proof.Machine.execSkewEvaluation peers loads copies s
  | .shardMove table number isRow a b step => Sys2Proof.Machine.execShardMove table number isRow a b step s
  | .prevReclaim lows => Sys2Proof.Machine.execPrevReclaim lows s
  | .replicaScrub owners => Sys2Proof.Machine.execReplicaScrub owners s
  | .laneLock lane => Sys2Proof.Machine.execLaneLock lane s
  | .laneLockLoss lane => Sys2Proof.Machine.execLaneLockLoss lane s
  | .linkUp => Sys2Proof.Machine.execLinkUp s
  | .multiblock lane ok parts => Sys2Proof.Machine.execMultiblock lane ok parts s
  | .symbolLand slot j samples => Sys2Proof.Machine.execSymbolLand slot j samples s
  | .symbolLaunch slot j => Sys2Proof.Machine.execSymbolLaunch slot j s
  | .arm => Sys2Proof.Machine.execArm s
  | .slotBoundary after => Sys2Proof.Machine.execSlotBoundary after s
  | .kslotPhase v => Sys2Proof.Machine.execKslotPhase v s
  | .kmapRegister w v => Sys2Proof.Machine.execKmapRegister w v s
  | .kmapSelect w v => Sys2Proof.Machine.execKmapSelect w v s
  | .wfalse w v => Sys2Proof.Machine.execWfalse w v s
  | .whisperWindow channel sf first time samples power => Sys2Proof.Machine.execWhisperWindow channel sf first time samples power s
  | .whisperWake => Sys2Proof.Machine.execWhisperWake s
  | .wadjAdjust => Sys2Proof.Machine.execWadjAdjust s
  | .codewordDescriptor w inst off d => Sys2Proof.Machine.execCodewordDescriptor w inst off d s
  | .codewordDecode inst => Sys2Proof.Machine.execCodewordDecode inst s
  | .codewordEnd inst => Sys2Proof.Machine.execCodewordEnd inst s
  | .decodeDeadline after inst rows => Sys2Proof.Machine.execDecodeDeadline after inst rows s
  | .weaveScrub inst reads => Sys2Proof.Machine.execWeaveScrub inst reads s
  | .timeWrap => Sys2Proof.Machine.execTimeWrap s
  | .timeEpochLate => Sys2Proof.Machine.execTimeEpochLate s
  | .timeEpoch v => Sys2Proof.Machine.execTimeEpoch v s
  | .timeNs w => Sys2Proof.Machine.execTimeNs w s
  | .timeInc v => Sys2Proof.Machine.execTimeInc v s
  | .timeSlew v => Sys2Proof.Machine.execTimeSlew v s
  | .timeStep v => Sys2Proof.Machine.execTimeStep v s
  | .refTune v => Sys2Proof.Machine.execRefTune v s
  | .heldApply => Sys2Proof.Machine.execHeldApply s
  | .ppsOut after => Sys2Proof.Machine.execPpsOut after s
  | .ppsIn falling onStep => Sys2Proof.Machine.execPpsIn falling onStep s
  | .ppsLost after => Sys2Proof.Machine.execPpsLost after s
  | .timeCheckSend after => Sys2Proof.Machine.execTimeCheckSend after s
  | .tchk chip check corr => Sys2Proof.Machine.execTchk chip check corr s
  | .tchkResp check t2 t3 corr stepped => Sys2Proof.Machine.execTchkResp check t2 t3 corr stepped s
  | .checkLost after => Sys2Proof.Machine.execCheckLost after s
  | .trainingTimeout p => Sys2Proof.Machine.execTrainingTimeout p s
  | .idle p ack => Sys2Proof.Machine.execIdle p ack s
  | .sequencedFlit p flit => Sys2Proof.Machine.execSequencedFlit p flit s
  | .nak p last => Sys2Proof.Machine.execNak p last s
  | .credit p counts => Sys2Proof.Machine.execCredit p counts s
  | .hello p die chip peerPort => Sys2Proof.Machine.execHello p die chip peerPort s
  | .retrain p => Sys2Proof.Machine.execRetrain p s
  | .replayTimeout p => Sys2Proof.Machine.execReplayTimeout p s
  | .retrainTimeout after p => Sys2Proof.Machine.execRetrainTimeout after p s
  | .downRetry p => Sys2Proof.Machine.execDownRetry p s
  | .packetForward iss full => Sys2Proof.Machine.execPacketForward iss full s
  | .e2eAck chip vc seq => Sys2Proof.Machine.execE2eAck chip vc seq s
  | .mbox chip msg => Sys2Proof.Machine.execMbox chip msg s
  | .mboxRsp chip msg => Sys2Proof.Machine.execMboxRsp chip msg s
  | .reachability chip mask => Sys2Proof.Machine.execReachability chip mask s
  | .join chip die proto feats dig => Sys2Proof.Machine.execJoin chip die proto feats dig s
  | .admitMember chip => Sys2Proof.Machine.execAdmitMember chip s
  | .commitMember members minor feats mepoch gen => Sys2Proof.Machine.execCommitMember members minor feats mepoch gen s
  | .leave chip => Sys2Proof.Machine.execLeave chip s
  | .lossBroadcast chip => Sys2Proof.Machine.execLossBroadcast chip s
  | .heartbeatSend after => Sys2Proof.Machine.execHeartbeatSend after s
  | .heartbeat chip proto mepoch dig => Sys2Proof.Machine.execHeartbeat chip proto mepoch dig s
  | .peerLost after chip => Sys2Proof.Machine.execPeerLost after chip s
  | .flr parts => Sys2Proof.Machine.execFlr parts s
  | .perstN parts => Sys2Proof.Machine.execPerstN parts s
  | .msixUnmask v => Sys2Proof.Machine.execMsixUnmask v s
  | .hostCopyDescriptor w c off d => Sys2Proof.Machine.execHostCopyDescriptor w c off d s
  | .hostCopyDone c came ep err => Sys2Proof.Machine.execHostCopyDone c came ep err s
  | .hostCopyTimeout after c part => Sys2Proof.Machine.execHostCopyTimeout after c part s
  | .inboundSyncWrite n k => Sys2Proof.Machine.execInboundSyncWrite n k s
  | .ringTail w p r v => Sys2Proof.Machine.execRingTail w p r v s
  | .ethTransmit p r own => Sys2Proof.Machine.execEthTransmit p r own s
  | .ethReceive p frame fcsOk parityOk => Sys2Proof.Machine.execEthReceive p frame fcsOk parityOk s
  | .ethNotify after p r => Sys2Proof.Machine.execEthNotify after p r s
  | .xipRead w dev off n timeout => Sys2Proof.Machine.execXipRead w dev off n timeout s
  | .xspiCmd dev op addr d => Sys2Proof.Machine.execXspiCmd dev op addr d s
  | .xspiCmdDone dev => Sys2Proof.Machine.execXspiCmdDone dev s
  | .reqTail pair chip v => Sys2Proof.Machine.execReqTail pair chip v s
  | .requestConsume pair chip host => Sys2Proof.Machine.execRequestConsume pair chip host s
  | .mgmtDatagram pair from_ d => Sys2Proof.Machine.execMgmtDatagram pair from_ d s
  | .identify r => Sys2Proof.Machine.execIdentify r s
  | .snapshot r => Sys2Proof.Machine.execSnapshot r s
  | .logRead r => Sys2Proof.Machine.execLogRead r s
  | .noticeCfg r => Sys2Proof.Machine.execNoticeCfg r s
  | .regWrite r => Sys2Proof.Machine.execRegWrite r s
  | .regRead r => Sys2Proof.Machine.execRegRead r s
  | .partSet r => Sys2Proof.Machine.execPartSet r s
  | .partReset r => Sys2Proof.Machine.execPartReset r s
  | .chipReset r => Sys2Proof.Machine.execChipReset r s
  | .powerBudget r => Sys2Proof.Machine.execPowerBudget r s
  | .powerState r => Sys2Proof.Machine.execPowerState r s
  | .telemetry r => Sys2Proof.Machine.execTelemetry r s
  | .tableCreate r => Sys2Proof.Machine.execTableCreate r s
  | .tableFill r => Sys2Proof.Machine.execTableFill r s
  | .tableReplace r => Sys2Proof.Machine.execTableReplace r s
  | .tableSwap r => Sys2Proof.Machine.execTableSwap r s
  | .tableDelete r => Sys2Proof.Machine.execTableDelete r s
  | .poolPolicy r => Sys2Proof.Machine.execPoolPolicy r s
  | .kennelRead r => Sys2Proof.Machine.execKennelRead r s
  | .kennelRelease r => Sys2Proof.Machine.execKennelRelease r s
  | .radioStart r => Sys2Proof.Machine.execRadioStart r s
  | .radioStop r => Sys2Proof.Machine.execRadioStop r s
  | .weaveLoad r => Sys2Proof.Machine.execWeaveLoad r s
  | .weaveSelect r => Sys2Proof.Machine.execWeaveSelect r s
  | .domainConfig r => Sys2Proof.Machine.execDomainConfig r s
  | .domainStatus r => Sys2Proof.Machine.execDomainStatus r s
  | .peerCoord r => Sys2Proof.Machine.execPeerCoord r s
  | .flashUpdate r => Sys2Proof.Machine.execFlashUpdate r s
  | .bootPrefer r => Sys2Proof.Machine.execBootPrefer r s
  | .debugUnlock r => Sys2Proof.Machine.execDebugUnlock r s
  | .seal r => Sys2Proof.Machine.execSeal r s
  | .health r => Sys2Proof.Machine.execHealth r s
  | .testPrbs r => Sys2Proof.Machine.execTestPrbs r s
  | .testBist r => Sys2Proof.Machine.execTestBist r s
  | .testBathtub r => Sys2Proof.Machine.execTestBathtub r s
  | .mgmtSet r => Sys2Proof.Machine.execMgmtSet r s
  | .ptpSet r => Sys2Proof.Machine.execPtpSet r s
  | .timeAdjust r => Sys2Proof.Machine.execTimeAdjust r s
  | .jobDone id o => Sys2Proof.Machine.execJobDone id o s
  | .watchdogRestart => Sys2Proof.Machine.execWatchdogRestart s
  | .eventReport e => Sys2Proof.Machine.execEventReport e s
  | .eventLog => Sys2Proof.Machine.execEventLog s
  | .telemetrySample x => Sys2Proof.Machine.execTelemetrySample x s
  | .powerPlan => Sys2Proof.Machine.execPowerPlan s
  | .quarterGate q => Sys2Proof.Machine.execQuarterGate q s
  | .leaseExpiry after => Sys2Proof.Machine.execLeaseExpiry after s
  | .powerOverrun chip mod => Sys2Proof.Machine.execPowerOverrun chip mod s
  | .thermalTrip temp => Sys2Proof.Machine.execThermalTrip temp s
  | .droopStretch q => Sys2Proof.Machine.execDroopStretch q s
  | .droopRecover q good => Sys2Proof.Machine.execDroopRecover q good s
  | .pwrfail t vin => Sys2Proof.Machine.execPwrfail t vin s
  | .overcurrent t ma us => Sys2Proof.Machine.execOvercurrent t ma us s
  | .overvoltage t vin => Sys2Proof.Machine.execOvervoltage t vin s
  | .switchReclose t => Sys2Proof.Machine.execSwitchReclose t s
  | .wakeN ns err => Sys2Proof.Machine.execWakeN ns err s
  | .brownoutRestart t err => Sys2Proof.Machine.execBrownoutRestart t err s
  | .refclkLoss => Sys2Proof.Machine.execRefclkLoss s
  | .refclkReturn err => Sys2Proof.Machine.execRefclkReturn err s
  | .powerOn role err => Sys2Proof.Machine.execPowerOn role err s
  | .warmReset err => Sys2Proof.Machine.execWarmReset err s
  | .coreReset => Sys2Proof.Machine.execCoreReset s
  | .bootFallback err => Sys2Proof.Machine.execBootFallback err s
  | .checkpointExpiry after => Sys2Proof.Machine.execCheckpointExpiry after s
  | .rollbackRaise after => Sys2Proof.Machine.execRollbackRaise after s
  | .holdupTest iss step fall se early steady => Sys2Proof.Machine.execHoldupTest iss step fall se early steady s
  | .healthRecord day lp5x => Sys2Proof.Machine.execHealthRecord day lp5x s
  | .healthFit drift eye proj => Sys2Proof.Machine.execHealthFit drift eye proj s
  | .extest pins => Sys2Proof.Machine.execExtest pins s
  | .samplePreload sampled preload => Sys2Proof.Machine.execSamplePreload sampled preload s
  | .idcode => Sys2Proof.Machine.execIdcode s
  | .clamp => Sys2Proof.Machine.execClamp s
  | .highz => Sys2Proof.Machine.execHighz s
  | .extestPulse pins => Sys2Proof.Machine.execExtestPulse pins s
  | .extestTrain pins => Sys2Proof.Machine.execExtestTrain pins s
  | .jtagMbox write pair15 word v => Sys2Proof.Machine.execJtagMbox write pair15 word v s
  | .recover v => Sys2Proof.Machine.execRecover v s
  | .scanMode => Sys2Proof.Machine.execScanMode s
  | .tapDebug op => Sys2Proof.Machine.execTapDebug op s
  | .bypass => Sys2Proof.Machine.execBypass s
  | .tapInstructionReplaced code => Sys2Proof.Machine.execTapInstructionReplaced code s
  | .registerWrite w off d => Sys2Proof.Machine.execRegisterWrite w off d s
  | .kmapOperationEnd => Sys2Proof.Machine.execKmapOperationEnd s
  | .blockLock p lane => Sys2Proof.Machine.execBlockLock p lane s
  | .prbsLock link port lane bits errs => Sys2Proof.Machine.execPrbsLock link port lane bits errs s
  | .prbsLockLoss link port lane => Sys2Proof.Machine.execPrbsLockLoss link port lane s
  | .ethLinkDown p => Sys2Proof.Machine.execEthLinkDown p s
  | .ethLinkUp p an fec sgmii => Sys2Proof.Machine.execEthLinkUp p an fec sgmii s
  | .pcieLinkDown parts => Sys2Proof.Machine.execPcieLinkDown parts s
  | .pcieLinkUp speed width => Sys2Proof.Machine.execPcieLinkUp speed width s
  | .pllLockLoss => Sys2Proof.Machine.execPllLockLoss s
  | .pwrfailNDeassert t bulk => Sys2Proof.Machine.execPwrfailNDeassert t bulk s
  | .inputSwitchClose t vin => Sys2Proof.Machine.execInputSwitchClose t vin s
  | .railsFall => Sys2Proof.Machine.execRailsFall s
  | .inputRemoved vin => Sys2Proof.Machine.execInputRemoved vin s
  | .thermN q temp => Sys2Proof.Machine.execThermN q temp s
  | .bootAttemptsClear after => Sys2Proof.Machine.execBootAttemptsClear after s
  | .e2eAckTimeout chip vc => Sys2Proof.Machine.execE2eAckTimeout chip vc s
  | .heartbeatAnswer chip => Sys2Proof.Machine.execHeartbeatAnswer chip s
  | .windowBWrite off d ep => Sys2Proof.Machine.execWindowBWrite off d ep s
  | .inboundMemoryWrite addr d ep => Sys2Proof.Machine.execInboundMemoryWrite addr d ep s

end Sys2Proof.Machine
end

