-- ==== Sys2Proof/Machine/Encode.lean ====
section
/-!
DEFINITION. The 32-bit words of Pilot operations, written from the encoding tables (R66 to R76, R80, R82, R94, R96, R109 to R116, R120,
R122, R123): the fields an operation has, in their places, and every other bit zero.
-/
namespace Sys2Proof.Machine

/-- The code of a function in a list of functions in code order. -/
def codeOf {α : Type} [BEq α] (l : List α) (f : α) : Nat := l.idxOf f

/-- Fields laid side by side: each a width and a value, the least significant first. -/
def pack : List (Nat × Nat) → Nat
  | [] => 0
  | (w, v) :: t => v % 2 ^ w + 2 ^ w * pack t

/-- A word of the VX layout: OP and bits [20:0] as fields. -/
def encodeVx (op : Nat) (low : List (Nat × Nat)) : Nat := pack (low ++ [(4, op), (3, 7), (4, 0xB)])

/-- A word of the VR layout. -/
def encodeVr (a : VArgs) (func : Nat) : Nat :=
  pack [(5, func), (1, num a.mz), (3, a.km), (1, num a.src), (5, a.v2), (5, a.vs1), (5, a.vd), (3, a.ty), (4, 0xB)]

/-- The word of a vector operation. -/
def encodeVec (v : VecOp) : Nat :=
  match v with
  | .int f a => encodeVr a (codeOf VIntOp.all f)
  | .flt f a => encodeVr a (codeOf VFltOp.all f)
  | .ld vd base stride ew km mz => encodeVx 0 [(1, num mz), (3, km), (2, ew), (5, stride), (5, base), (5, vd)]
  | .st vs base stride ew km => encodeVx 1 [(1, 0), (3, km), (2, ew), (5, stride), (5, base), (5, vs)]
  | .gather vd base vi ew km mz => encodeVx 2 [(1, num mz), (3, km), (2, ew), (5, vi), (5, base), (5, vd)]
  | .scatter vs base vi ew km => encodeVx 3 [(1, 0), (3, km), (2, ew), (5, vi), (5, base), (5, vs)]
  | .cvt vd vs1 srcf dstf sat part => encodeVx 4 [(2, part), (1, num sat), (4, dstf), (4, srcf), (5, vs1), (5, vd)]
  | .cmp kd vs1 v2 src ty cond => encodeVx 5 [(1, 0), (3, cond), (3, ty), (1, num src), (5, v2), (5, vs1), (3, kd)]
  | .red rd vs1 km ty op => encodeVx 6 [(2, 0), (3, op), (3, ty), (3, km), (5, vs1), (5, rd)]
  | .perm f vd vs1 r ew => encodeVx 7 [(1, 0), (3, codeOf VPermOp.all f), (2, ew), (5, r), (5, vs1), (5, vd)]
  | .mask f kd ka kb r part =>
    let two : Bool := f = .kand || f = .kor || f = .kxor || f = .kandn
    encodeVx 8 ([(1, 0), (3, part), (3, codeOf VMaskOp.all f)] ++
      (if two then [(5, 0), (3, kb)] else [(5, r), (3, 0)]) ++ [(3, ka), (3, kd)])
  | .movs v r idx ew toV => encodeVx 9 [(3, 0), (1, num toV), (2, ew), (5, idx), (5, r), (5, v)]

/-- The word of an operation. A word that encodes none stands for ILLEGAL: class 0xF. -/
def encodeOp (op : PilotOp) : Nat :=
  match op with
  | .nop => 0
  | .heel tag => pack [(12, tag), (12, 0), (4, 1)]
  | .ifence => pack [(24, 0), (4, 2)]
  | .fence k => pack [(4, codeOf FenceOp.all k), (20, 0), (4, 3)]
  | .rti => pack [(24, 0), (4, 4)]
  | .trap code => pack [(12, code), (12, 0), (4, 5)]
  | .waiti => pack [(24, 0), (4, 6)]
  | .rbrk => pack [(24, 0), (4, 7)]
  | .alu f sat rd rs1 rs2 => pack [(6, codeOf AluOp.all f), (6, 0), (5, rs2), (5, rs1), (5, rd), (1, num sat), (4, 1)]
  | .alui f sat rd rs1 imm => pack [(13, imm), (4, codeOf ImmOp.all f), (5, rs1), (5, rd), (1, num sat), (4, 2)]
  | .lui rd imm => pack [(22, imm), (5, rd), (1, 0), (4, 3)]
  | .dsp f sat rd rs1 rs2 acc q h1 h2 =>
    pack [(3, 0), (1, num h2), (1, num h1), (1, num q), (2, acc), (4, codeOf DspOp.all f), (5, rs2), (5, rs1), (5, rd), (1, num sat),
      (4, 4)]
  | .load rd an mode size sg imem imm =>
    pack [(12, imm), (1, num imem), (1, num sg), (2, size), (3, mode), (3, an), (5, rd), (1, 0), (4, 5)]
  | .store rs an mode size imem imm => pack [(12, imm), (1, num imem), (1, 0), (2, size), (3, mode), (3, an), (5, rs), (1, 0), (4, 6)]
  | .amov file n rs1 => pack [(17, 0), (5, rs1), (3, n), (3, file), (4, 7)]
  | .aaddi n imm => pack [(13, imm), (9, 0), (3, n), (3, 4), (4, 7)]
  | .aaddm n m => pack [(3, m), (19, 0), (3, n), (3, 5), (4, 7)]
  | .mfa rd file n => pack [(15, 0), (2, file), (5, rd), (3, n), (3, 6), (4, 7)]
  | .branch cond rs1 rs2 off => pack [(12, off), (5, rs2), (5, rs1), (3, 0), (3, cond), (4, 8)]
  | .jump k rs1 target =>
    match k with
    | .j => pack [(14, target), (12, 0), (2, 0), (4, 9)]
    | .jal => pack [(14, target), (12, 0), (2, 1), (4, 9)]
    | .jr => pack [(17, 0), (5, rs1), (4, 0), (2, 2), (4, 9)]
    | .jalr => pack [(17, 0), (5, rs1), (4, 0), (2, 3), (4, 9)]
  | .rep src count rs1 len =>
    pack ([(10, len - 1), (1, 0)] ++ (if src then [(6, 0), (5, rs1), (5, 0)] else [(16, count)]) ++ [(1, num src), (4, 0xA)])
  | .vec v => encodeVec v
  | .eng f row rs1 rs2 rd => pack [(7, 0), (5, rd), (5, rs2), (5, rs1), (2, row), (4, codeOf EngOp.all f), (4, 0xC)]
  | .mfs rd index => pack [(12, index), (10, 0), (5, rd), (1, 0), (4, 0xD)]
  | .mts rs index => pack [(12, index), (10, 0), (5, rs), (1, 1), (4, 0xD)]
  | .illegal => 0xF0000000

/-- Are the fields of the VR layout in range, for a type code below 7? -/
def vargsFit (a : VArgs) : Bool := a.vd < 32 && a.vs1 < 32 && a.v2 < 32 && a.km < 8

/-- Is a vector operation one that some word encodes: fields in range, none reserved, unused ones zero? -/
def VecOp.fits : VecOp → Bool
  | .int f a => vargsFit a && a.ty < 4 && !((f = .mulq || f = .mulqs) && 2 ≤ a.ty)
  | .flt _ a => vargsFit a && 4 ≤ a.ty && a.ty < 7
  | .ld vd base stride ew km _ => vd < 32 && base < 32 && stride < 32 && ew < 4 && km < 8 && !(ew = 3 && stride ≠ 0)
  | .st vs base stride ew km => vs < 32 && base < 32 && stride < 32 && ew < 4 && km < 8 && !(ew = 3 && stride ≠ 0)
  | .gather vd base vi ew km _ => vd < 32 && base < 32 && vi < 32 && ew < 4 && km < 8 && vi % 2 ^ ew = 0
  | .scatter vs base vi ew km => vs < 32 && base < 32 && vi < 32 && ew < 4 && km < 8 && vi % 2 ^ ew = 0
  | .cvt vd vs1 srcf dstf _ part => vd < 32 && vs1 < 32 && srcf < 11 && dstf < 11 && part < 4
  | .cmp kd vs1 v2 _ ty cond => kd < 8 && vs1 < 32 && v2 < 32 && ty < 7 && cond < 6 && !(4 ≤ ty && cond = 5)
  | .red rd vs1 km ty op => rd < 32 && vs1 < 32 && km < 8 && ty < 7 && op < 5 && !(4 ≤ ty && 3 ≤ op)
  | .perm f vd vs1 r ew => vd < 32 && vs1 < 32 && r < 32 && ew < 4 && !(f = .bcast && vs1 ≠ 0)
  | .mask f kd ka kb r part =>
    let two : Bool := f = .kand || f = .kor || f = .kxor || f = .kandn
    let toS : Bool := f = .kpopc || f = .kfirst || f = .ktos
    kd < 8 && ka < 8 && kb < 8 && r < 32 && part < 8 && !(toS && kd ≠ 0) && !(f = .stok && ka ≠ 0) && !(two && r ≠ 0) &&
      !(!two && kb ≠ 0) && !(!(f = .ktos || f = .stok) && part ≠ 0)
  | .movs v r idx ew _ => v < 32 && r < 32 && idx < 32 && ew < 4

/-- Is the IMM12 of a load or store one that its mode uses (R74)? -/
def immFits (mode imm : Nat) : Bool := imm < (if mode = 2 ∨ mode = 4 then 8 else if mode = 5 then 32 else 4096)

/-- Is an operation one that some word encodes: fields in range, none reserved, unused ones zero? -/
def PilotOp.fits : PilotOp → Bool
  | .nop => true
  | .heel tag => tag < 4096
  | .ifence => true
  | .fence _ => true
  | .rti => true
  | .trap code => code < 4096
  | .waiti => true
  | .rbrk => true
  | .alu f _ rd rs1 rs2 => rd < 32 && rs1 < 32 && rs2 < 32 && !((f = .abs || f = .neg || f = .clz) && rs2 ≠ 0)
  | .alui _ _ rd rs1 imm => rd < 32 && rs1 < 32 && imm < 2 ^ 13
  | .lui rd imm => rd < 32 && imm < 2 ^ 22
  | .dsp f _ rd rs1 rs2 acc q h1 h2 =>
    rd < 32 && rs1 < 32 && rs2 < 32 && acc < 4 &&
      (match f with
        | .mpy => rd = 0
        | .mac => rd = 0
        | .msu => rd = 0
        | .dmac => rd = 0 && !h1 && !h2
        | .ext => rs1 = 0 && !q && !h1 && !h2
        | .ext16 => rs1 = 0 && !q && !h1 && !h2
        | .mulq => acc = 0 && !q && !h1 && !h2
        | .aclr => rd = 0 && rs1 = 0 && rs2 = 0 && !q && !h1 && !h2
        | .ald => rd = 0 && rs2 = 0 && !q && !h1 && !h2
        | .ahi => rs1 = 0 && rs2 = 0 && !q && !h1 && !h2)
  | .load rd an mode size _ imem imm => rd < 32 && an < 8 && mode < 6 && size < 3 && !(imem && size ≠ 2) && immFits mode imm
  | .store rs an mode size imem imm => rs < 32 && an < 8 && mode < 6 && size < 3 && !(imem && size ≠ 2) && immFits mode imm
  | .amov file n rs1 => file < 4 && n < 8 && rs1 < 32
  | .aaddi n imm => n < 8 && imm < 2 ^ 13
  | .aaddm n m => n < 8 && m < 8
  | .mfa rd file n => rd < 32 && file < 4 && n < 8
  | .branch cond rs1 rs2 off => cond < 6 && rs1 < 32 && rs2 < 32 && off < 4096
  | .jump k rs1 target =>
    match k with
    | .j => rs1 = 0 && target < 2 ^ 14
    | .jal => rs1 = 0 && target < 2 ^ 14
    | .jr => rs1 < 32 && target = 0
    | .jalr => rs1 < 32 && target = 0
  | .rep src count rs1 len => 0 < len && len ≤ 1024 && (if src then count = 0 && rs1 < 32 else count < 2 ^ 16 && rs1 = 0)
  | .vec v => v.fits
  | .eng f row rs1 rs2 rd => row < 4 && rs1 < 32 && rs2 < 32 && rd < 32 && !(f ≠ .lrpass && row ≠ 0)
  | .mfs rd index => rd < 32 && index < 4096
  | .mts rs index => rs < 32 && index < 4096
  | .illegal => false

end Sys2Proof.Machine
end

