-- ==== Sys2Proof/Safety.lean ====
section
/-!
DEFINITION. What claims about runs are stated in: the invariant of every step, a core that runs straight-line code, and what a command
leaves as it was.
-/
namespace Sys2Proof.Machine

/-- Between steps memory is in canonical form and no store waits to reach it. -/
def State.Inv (s : State) : Prop := Memory.wf s.mem = true ∧ s.stores = []

/-- Core `c` runs and can issue: no interrupt is due, the bundle lies in IMEM and is not poisoned, the core is not claimed, and the
2048-cycle rule of R85 is not near. -/
structure Ready (s : State) (c : Nat) : Prop where
  lt : c < 96
  inv : s.Inv
  issue : canIssue s c = true
  run : (core s c).run = .running
  pc : (core s c).pc < 0x20000
  sound : poisoned s (imemAddr c (core s c).pc) 8 = false
  claim : (core s c).claim = none
  runLen : (core s c).runLen + 16 < 2048

/-- Core `c` is ready and runs straight-line code: it is in no branch delay slot, and no repeat is active. -/
structure Straight (s : State) (c : Nat) : Prop extends Ready s c where
  dslots : (core s c).dslots = 0
  depth : (core s c).depth = 0

/-- The bundle at the core's PC holds an operation in the slot named, and a NOP in the other. -/
def Holds (s : State) (i : Issue) (op : PilotOp) : Prop := bundleAt s i.core = if i.slot1 then (.nop, op) else (op, .nop)

/-- Only core `c` has changed. -/
def OnlyCore (s t : State) (c : Nat) : Prop := t = { s with cores := t.cores } ∧ ∀ d, d ≠ c → core t d = core s d

/-- Every byte of memory reads as before. -/
def SameMem (s t : State) : Prop := ∀ a, memRead t.mem a = memRead s.mem a

/-- Every device register but those listed reads as before. -/
def RegsBut (l : List Nat) (s t : State) : Prop := ∀ off, off ∉ l → reg t off = reg s off

/-- Every system register of a core but those listed reads as before. -/
def SysBut (l : List Nat) (k k' : Core) : Prop := ∀ i, i ∉ l → k'.sysWord 0 i = k.sysWord 0 i

/-- Beside its scalar registers, delayed writes, system registers, PC and the record of the fetch, nothing of a core has changed. -/
def Like (k k' : Core) : Prop :=
  k' = { k with
    s := k'.s, sys := k'.sys, pc := k'.pc, delayed := k'.delayed, runLen := k'.runLen, stale := k'.stale, loopTop := k'.loopTop,
    atHeel := k'.atHeel }

/-- CYCLE has counted `n` cycles. -/
def Took (k k' : Core) (n : Nat) : Prop := k'.sysFld R.CYCLE.val = (k.sysFld R.CYCLE.val + n) % 2 ^ 32

/-- PC names the next bundle in line. -/
def PcNext (k k' : Core) : Prop := k'.pc = (k.pc + 8) % 2 ^ 32

/-- What a scalar register holds for the next bundle where this bundle does not write it: the youngest delayed write that falls due, or
the value it had (R78, R79). -/
def seenNext (k : Core) (r : Nat) : W32 :=
  if r = 0 then 0
  else
    match (k.delayed.filter (fun d => d.left ≤ 1 && d.dest = r)).getLast? with
    | some d => d.val
    | none => k.sreg r

/-- The delayed writes that a bundle leaves outstanding, one bundle nearer (R78). -/
def stillDelayed (k : Core) : List DWrite := (k.delayed.filter (fun d => 1 < d.left)).map (fun d => { d with left := d.left - 1 })

/-- The sticky bits of R70 after a result that did or did not leave its range; the other bits of PSTAT stay. -/
def Sticky (k k' : Core) (out sat : Bool) : Prop :=
  k'.sysFlag R.PSTAT.OVF_STICKY = (k.sysFlag R.PSTAT.OVF_STICKY || (out && !sat)) ∧
    k'.sysFlag R.PSTAT.SAT_STICKY = (k.sysFlag R.PSTAT.SAT_STICKY || (out && sat)) ∧
    ∀ b, b ≠ 2 → b ≠ 3 → bitOf (k'.sysWord 0 R.PSTAT.IE.off) b = bitOf (k.sysWord 0 R.PSTAT.IE.off) b

/-- Core `c` has run a bundle in one cycle and gone on to the next in line. Scalar register `rd` has received `v`, after `d` delay slots
(S_0 takes no write, R65), the sticky bit of R70 is set where the result left its range, earlier delayed writes are one bundle nearer, and
nothing else has changed. -/
def Wrote (s t : State) (c rd : Nat) (v : W32) (d : Nat) (out sat : Bool) : Prop :=
  OnlyCore s t c ∧ Like (core s c) (core t c) ∧ PcNext (core s c) (core t c) ∧ Took (core s c) (core t c) 1 ∧
    SysBut [R.PSTAT.IE.off, R.CYCLE.val.off] (core s c) (core t c) ∧ Sticky (core s c) (core t c) out sat ∧
    (∀ r, (core t c).sreg r = if d = 0 ∧ r = rd ∧ rd ≠ 0 then v else seenNext (core s c) r) ∧
    (core t c).delayed = stillDelayed (core s c) ++ (if d = 0 then [] else [⟨rd, v, d, false⟩])

end Sys2Proof.Machine
end

