-- ==== Sys2Proof/WellFormed.lean ====
section
/-!
DEFINITION. Well-formed commands: every operand that names a unit or a field lies in the range the manual gives it (R17 to R20, R27, R32,
R64, R69, R102, R218, R234, R237, R471).
-/
namespace Sys2Proof

/-- A core: 0 to 95 (R17). -/
def coreOk (c : Nat) : Bool := c < 96
/-- A Quarter: 0 to 11 (R17). -/
def quarterOk (q : Nat) : Bool := q < 12
/-- A partition: 0 to 11 (R32). -/
def partOk (p : Nat) : Bool := p < 12
/-- A queue: 0 to 1023 (R218). -/
def queueOk (q : Nat) : Bool := q < 1024
/-- A sync object: 0 to 16383 (R237). -/
def objOk (n : Nat) : Bool := n < 16384
/-- A chip ID: 0 to 15 (R27). -/
def chipOk (n : Nat) : Bool := n < 16
/-- An agent ID has 7 bits (R202). -/
def agentOk (n : Nat) : Bool := n < 128
/-- A global address has 48 bits (R27). -/
def gaOk (n : Nat) : Bool := n < 2 ^ 48
/-- An S or V register, or a SHIFT (R64, R102). -/
def regOk (n : Nat) : Bool := n < 32
/-- A mask register (R102). -/
def maskOk (n : Nat) : Bool := n < 8
/-- An A, B, L or M register (R64). -/
def fileOk (n : Nat) : Bool := n < 8
/-- An accumulator, a register file or a lane row: 0 to 3 (R64, R75, R136). -/
def accOk (n : Nat) : Bool := n < 4
/-- An element width code (R116). -/
def ewOk (n : Nat) : Bool := n < 4
/-- A field of `w` bits (Table 3-3). -/
def immOk (w n : Nat) : Bool := n < 2 ^ w
/-- The length of a repeat body: 1 to 1024 bundles (R82). -/
def lenOk (n : Nat) : Bool := 0 < n && n ≤ 1024
/-- An Adruoth port: 0 to 7 (R407). -/
def portOk (n : Nat) : Bool := n < 8
/-- An Ethernet port: 0 to 2 (R453). -/
def ethOk (n : Nat) : Bool := n < 3
/-- A host copy channel: 0 to 7 (R449). -/
def chanOk (n : Nat) : Bool := n < 8
/-- A lane of a JESD204C link: 0 to 7 (R315). -/
def laneOk (n : Nat) : Bool := n < 8
/-- A table or a binding slot: 0 to 63 (R288, R295). -/
def tableOk (n : Nat) : Bool := n < 64
/-- A Weave instance: 0 or 1 (R362). -/
def weaveOk (w : Nat) : Bool := w < 2
/-- A ring of an Ethernet port: 0 to 7, of which 0 to 3 transmit (R454). -/
def ringOk (r : Nat) : Bool := r < 8
/-- A flash device (R462). -/
def flashOk (d : Nat) : Bool := d < 2
/-- An MSI-X vector: 0 to 127 (R448). -/
def vectorOk (v : Nat) : Bool := v < 128
/-- A mailbox pair: 0 to 15 (R471). -/
def pairOk (p : Nat) : Bool := p < 16
/-- A request: its pair, the chip that sends it on a fabric pair (R479), SEQ, VERSION and the length of its payload (R476). -/
def mailOk (r : MailReq) : Bool := pairOk r.pair && chipOk r.chip && r.seq < 2 ^ 16 && r.ver < 256 && r.payload.length ≤ 48
/-- The fields of the VR layout (Table 4-3). -/
def vargsOk (a : VArgs) : Bool := a.ty < 7 && regOk a.vd && regOk a.vs1 && regOk a.v2 && maskOk a.km

/-- The unit that an access comes from exists. -/
def whoOk : Who → Bool
  | .pilot c => coreOk c
  | .vec c => coreOk c
  | .dma c => coreOk c
  | .weave w => weaveOk w
  | .sched p => partOk p
  | .remote n => chipOk n
  | .lookup => true
  | .host => true
  | .hcopy => true
  | .warden => true
  | .jesd => true
  | .eth => true
  | .queue => true

/-- Is a command well formed? -/
def WellFormed (i : Instr) : Bool :=
  match i with
  | .nop i => coreOk i.core
  | .heel i tag => coreOk i.core && immOk 12 tag
  | .ifence i => coreOk i.core
  | .fenceFull i => coreOk i.core
  | .fenceRelease i => coreOk i.core
  | .fenceAcquire i => coreOk i.core
  | .fenceDma i => coreOk i.core
  | .rti i => coreOk i.core
  | .trap i code => coreOk i.core && immOk 12 code
  | .waiti i => coreOk i.core
  | .rbrk i => coreOk i.core
  | .add i _ rd rs1 rs2 => coreOk i.core && regOk rd && regOk rs1 && regOk rs2
  | .sub i _ rd rs1 rs2 => coreOk i.core && regOk rd && regOk rs1 && regOk rs2
  | .addu i _ rd rs1 rs2 => coreOk i.core && regOk rd && regOk rs1 && regOk rs2
  | .subu i _ rd rs1 rs2 => coreOk i.core && regOk rd && regOk rs1 && regOk rs2
  | .and i _ rd rs1 rs2 => coreOk i.core && regOk rd && regOk rs1 && regOk rs2
  | .or i _ rd rs1 rs2 => coreOk i.core && regOk rd && regOk rs1 && regOk rs2
  | .xor i _ rd rs1 rs2 => coreOk i.core && regOk rd && regOk rs1 && regOk rs2
  | .sll i _ rd rs1 rs2 => coreOk i.core && regOk rd && regOk rs1 && regOk rs2
  | .srl i _ rd rs1 rs2 => coreOk i.core && regOk rd && regOk rs1 && regOk rs2
  | .sra i _ rd rs1 rs2 => coreOk i.core && regOk rd && regOk rs1 && regOk rs2
  | .slt i _ rd rs1 rs2 => coreOk i.core && regOk rd && regOk rs1 && regOk rs2
  | .sltu i _ rd rs1 rs2 => coreOk i.core && regOk rd && regOk rs1 && regOk rs2
  | .min i _ rd rs1 rs2 => coreOk i.core && regOk rd && regOk rs1 && regOk rs2
  | .max i _ rd rs1 rs2 => coreOk i.core && regOk rd && regOk rs1 && regOk rs2
  | .minu i _ rd rs1 rs2 => coreOk i.core && regOk rd && regOk rs1 && regOk rs2
  | .maxu i _ rd rs1 rs2 => coreOk i.core && regOk rd && regOk rs1 && regOk rs2
  | .abs i _ rd rs1 => coreOk i.core && regOk rd && regOk rs1
  | .neg i _ rd rs1 => coreOk i.core && regOk rd && regOk rs1
  | .clz i _ rd rs1 => coreOk i.core && regOk rd && regOk rs1
  | .mul i _ rd rs1 rs2 => coreOk i.core && regOk rd && regOk rs1 && regOk rs2
  | .mulh i _ rd rs1 rs2 => coreOk i.core && regOk rd && regOk rs1 && regOk rs2
  | .mulhu i _ rd rs1 rs2 => coreOk i.core && regOk rd && regOk rs1 && regOk rs2
  | .packh i _ rd rs1 rs2 => coreOk i.core && regOk rd && regOk rs1 && regOk rs2
  | .addi i _ rd rs1 imm => coreOk i.core && regOk rd && regOk rs1 && immOk 13 imm
  | .andi i _ rd rs1 imm => coreOk i.core && regOk rd && regOk rs1 && immOk 13 imm
  | .ori i _ rd rs1 imm => coreOk i.core && regOk rd && regOk rs1 && immOk 13 imm
  | .xori i _ rd rs1 imm => coreOk i.core && regOk rd && regOk rs1 && immOk 13 imm
  | .slli i _ rd rs1 imm => coreOk i.core && regOk rd && regOk rs1 && immOk 13 imm
  | .srli i _ rd rs1 imm => coreOk i.core && regOk rd && regOk rs1 && immOk 13 imm
  | .srai i _ rd rs1 imm => coreOk i.core && regOk rd && regOk rs1 && immOk 13 imm
  | .slti i _ rd rs1 imm => coreOk i.core && regOk rd && regOk rs1 && immOk 13 imm
  | .sltiu i _ rd rs1 imm => coreOk i.core && regOk rd && regOk rs1 && immOk 13 imm
  | .mini i _ rd rs1 imm => coreOk i.core && regOk rd && regOk rs1 && immOk 13 imm
  | .maxi i _ rd rs1 imm => coreOk i.core && regOk rd && regOk rs1 && immOk 13 imm
  | .lui i rd imm => coreOk i.core && regOk rd && immOk 22 imm
  | .mpy i _ rs1 rs2 acc _ _ _ => coreOk i.core && regOk rs1 && regOk rs2 && accOk acc
  | .mac i _ rs1 rs2 acc _ _ _ => coreOk i.core && regOk rs1 && regOk rs2 && accOk acc
  | .msu i _ rs1 rs2 acc _ _ _ => coreOk i.core && regOk rs1 && regOk rs2 && accOk acc
  | .dmac i _ rs1 rs2 acc _ => coreOk i.core && regOk rs1 && regOk rs2 && accOk acc
  | .ext i _ rd shift acc => coreOk i.core && regOk rd && regOk shift && accOk acc
  | .ext16 i _ rd shift acc => coreOk i.core && regOk rd && regOk shift && accOk acc
  | .mulq i _ rd rs1 rs2 => coreOk i.core && regOk rd && regOk rs1 && regOk rs2
  | .aclr i _ acc => coreOk i.core && accOk acc
  | .ald i _ rs1 acc => coreOk i.core && regOk rs1 && accOk acc
  | .ahi i _ rd acc => coreOk i.core && regOk rd && accOk acc
  | .load i rd an mode size _ _ imm => coreOk i.core && regOk rd && fileOk an && immOk 3 mode && immOk 2 size && immOk 12 imm
  | .store i rs an mode size _ imm => coreOk i.core && regOk rs && fileOk an && immOk 3 mode && immOk 2 size && immOk 12 imm
  | .mova i n rs1 => coreOk i.core && fileOk n && regOk rs1
  | .movb i n rs1 => coreOk i.core && fileOk n && regOk rs1
  | .movl i n rs1 => coreOk i.core && fileOk n && regOk rs1
  | .movm i n rs1 => coreOk i.core && fileOk n && regOk rs1
  | .aaddi i n imm => coreOk i.core && fileOk n && immOk 13 imm
  | .aaddm i n m => coreOk i.core && fileOk n && fileOk m
  | .mfa i rd file n => coreOk i.core && regOk rd && accOk file && fileOk n
  | .branch i cond rs1 rs2 off => coreOk i.core && immOk 3 cond && regOk rs1 && regOk rs2 && immOk 12 off
  | .j i target => coreOk i.core && immOk 14 target
  | .jal i target => coreOk i.core && immOk 14 target
  | .jr i rs1 => coreOk i.core && regOk rs1
  | .jalr i rs1 => coreOk i.core && regOk rs1
  | .rep i _ count rs1 len => coreOk i.core && immOk 16 count && regOk rs1 && lenOk len
  | .mfs i rd index => coreOk i.core && regOk rd && immOk 12 index
  | .mts i rs index => coreOk i.core && regOk rs && immOk 12 index
  | .interruptEntry c => coreOk c
  | .vadd i a => coreOk i.core && vargsOk a
  | .vadds i a => coreOk i.core && vargsOk a
  | .vsub i a => coreOk i.core && vargsOk a
  | .vsubs i a => coreOk i.core && vargsOk a
  | .vaddus i a => coreOk i.core && vargsOk a
  | .vsubus i a => coreOk i.core && vargsOk a
  | .vmul i a => coreOk i.core && vargsOk a
  | .vmulh i a => coreOk i.core && vargsOk a
  | .vmulhu i a => coreOk i.core && vargsOk a
  | .vmulq i a => coreOk i.core && vargsOk a
  | .vmulqs i a => coreOk i.core && vargsOk a
  | .vmac i a => coreOk i.core && vargsOk a
  | .vmacs i a => coreOk i.core && vargsOk a
  | .vmin i a => coreOk i.core && vargsOk a
  | .vmax i a => coreOk i.core && vargsOk a
  | .vminu i a => coreOk i.core && vargsOk a
  | .vmaxu i a => coreOk i.core && vargsOk a
  | .vand i a => coreOk i.core && vargsOk a
  | .vor i a => coreOk i.core && vargsOk a
  | .vxor i a => coreOk i.core && vargsOk a
  | .vsll i a => coreOk i.core && vargsOk a
  | .vsrl i a => coreOk i.core && vargsOk a
  | .vsra i a => coreOk i.core && vargsOk a
  | .vsrar i a => coreOk i.core && vargsOk a
  | .vabs i a => coreOk i.core && vargsOk a
  | .vabss i a => coreOk i.core && vargsOk a
  | .vmov i a => coreOk i.core && vargsOk a
  | .fadd i a => coreOk i.core && vargsOk a
  | .fsub i a => coreOk i.core && vargsOk a
  | .fmul i a => coreOk i.core && vargsOk a
  | .fma i a => coreOk i.core && vargsOk a
  | .fmin i a => coreOk i.core && vargsOk a
  | .fmax i a => coreOk i.core && vargsOk a
  | .fabs i a => coreOk i.core && vargsOk a
  | .fneg i a => coreOk i.core && vargsOk a
  | .frcpe i a => coreOk i.core && vargsOk a
  | .frsqe i a => coreOk i.core && vargsOk a
  | .fmov i a => coreOk i.core && vargsOk a
  | .vld i vd base stride ew km _ => coreOk i.core && regOk vd && regOk base && regOk stride && ewOk ew && maskOk km
  | .vst i vs base stride ew km => coreOk i.core && regOk vs && regOk base && regOk stride && ewOk ew && maskOk km
  | .vgather i vd base vi ew km _ => coreOk i.core && regOk vd && regOk base && regOk vi && ewOk ew && maskOk km
  | .vscatter i vs base vi ew km => coreOk i.core && regOk vs && regOk base && regOk vi && ewOk ew && maskOk km
  | .vcvt i vd vs1 srcf dstf _ part => coreOk i.core && regOk vd && regOk vs1 && immOk 4 srcf && immOk 4 dstf && immOk 2 part
  | .vcmp i kd vs1 v2 _ ty cond => coreOk i.core && maskOk kd && regOk vs1 && regOk v2 && immOk 3 ty && immOk 3 cond
  | .vred i rd vs1 km ty op => coreOk i.core && regOk rd && regOk vs1 && maskOk km && immOk 3 ty && immOk 3 op
  | .bcast i vd r ew => coreOk i.core && regOk vd && regOk r && ewOk ew
  | .slideup i vd vs1 r ew => coreOk i.core && regOk vd && regOk vs1 && regOk r && ewOk ew
  | .slidedn i vd vs1 r ew => coreOk i.core && regOk vd && regOk vs1 && regOk r && ewOk ew
  | .perm i vd vs1 r ew => coreOk i.core && regOk vd && regOk vs1 && regOk r && ewOk ew
  | .kand i kd ka kb => coreOk i.core && maskOk kd && maskOk ka && maskOk kb
  | .kor i kd ka kb => coreOk i.core && maskOk kd && maskOk ka && maskOk kb
  | .kxor i kd ka kb => coreOk i.core && maskOk kd && maskOk ka && maskOk kb
  | .kandn i kd ka kb => coreOk i.core && maskOk kd && maskOk ka && maskOk kb
  | .kpopc i ka r => coreOk i.core && maskOk ka && regOk r
  | .kfirst i ka r => coreOk i.core && maskOk ka && regOk r
  | .ktos i ka r part => coreOk i.core && maskOk ka && regOk r && immOk 3 part
  | .stok i kd r part => coreOk i.core && maskOk kd && regOk r && immOk 3 part
  | .vmovs i v r idx ew _ => coreOk i.core && regOk v && regOk r && regOk idx && ewOk ew
  | .lrpass i row rs1 rs2 rd => coreOk i.core && accOk row && regOk rs1 && regOk rs2 && regOk rd
  | .dma i rs1 rs2 rd => coreOk i.core && regOk rs1 && regOk rs2 && regOk rd
  | .imload i rs1 rs2 rd => coreOk i.core && regOk rs1 && regOk rs2 && regOk rd
  | .qsend i rs1 rs2 rd => coreOk i.core && regOk rs1 && regOk rs2 && regOk rd
  | .qrecv i rs1 rs2 rd => coreOk i.core && regOk rs1 && regOk rs2 && regOk rd
  | .ssig i rs1 rs2 rd => coreOk i.core && regOk rs1 && regOk rs2 && regOk rd
  | .swait i rs1 rs2 rd => coreOk i.core && regOk rs1 && regOk rs2 && regOk rd
  | .weightFill c => coreOk c
  | .avenueIssue c => coreOk c
  | .passStart c => coreOk c
  | .passComplete c => coreOk c
  | .rowStop c => coreOk c
  | .passAbort c _ row _ => coreOk c && accOk row
  | .dmaComplete c _ => coreOk c
  | .rdS _ chip agent _ => chipOk chip && agentOk agent
  | .rdX _ chip agent _ => chipOk chip && agentOk agent
  | .upg _ chip agent _ => chipOk chip && agentOk agent
  | .wrl _ chip agent _ _ => chipOk chip && agentOk agent
  | .wb _ chip _ _ => chipOk chip
  | .evictE _ chip => chipOk chip
  | .ucRd chip agent ga _ => chipOk chip && agentOk agent && gaOk ga
  | .ucWr chip agent ga _ => chipOk chip && agentOk agent && gaOk ga
  | .snpInv _ home => chipOk home
  | .snpFwdS _ home dest => chipOk home && chipOk dest
  | .snpFwdX _ home dest => chipOk home && chipOk dest
  | .dataS _ _ _ => true
  | .dataE _ _ _ => true
  | .dataM _ _ _ => true
  | .invAck _ chip _ _ => chipOk chip
  | .fwdAck _ chip _ _ => chipOk chip
  | .wbAck _ => true
  | .wbPending _ chip => chipOk chip
  | .retry _ agent => agentOk agent
  | .err ga agent => gaOk ga && agentOk agent
  | .ucData ga agent _ => gaOk ga && agentOk agent
  | .ucAck ga agent => gaOk ga && agentOk agent
  | .patrolRead _ => true
  | .kennelEntry _ _ _ => true
  | .send w q _ _ => whoOk w && queueOk q
  | .queueAccept _ => true
  | .consume w q _ _ => whoOk w && queueOk q
  | .mcDeliver ch => immOk 6 ch
  | .qrecvTimeout _ c => coreOk c
  | .signal w obj _ => whoOk w && objOk obj
  | .syncReset obj _ => objOk obj
  | .swaitTimeout _ c _ => coreOk c
  | .qmsg chip agent dest _ _ => chipOk chip && agentOk agent && queueOk dest
  | .syncSig chip agent obj _ => chipOk chip && agentOk agent && objOk obj
  | .syncWait chip _ obj _ => chipOk chip && objOk obj
  | .syncGrant chip obj _ _ _ _ => chipOk chip && objOk obj
  | .syncWithdraw chip _ obj => chipOk chip && objOk obj
  | .taskSubmit w p _ _ => whoOk w && partOk p
  | .taskDispatch p => partOk p
  | .taskEnd c => coreOk c
  | .decisionInstant _ => true
  | .leashExpiry _ c => coreOk c
  | .claimYield c => coreOk c
  | .claimImageLoaded c => coreOk c
  | .lookup w p _ _ => whoOk w && partOk p
  | .bind p bslot doneSync statusGa _ => partOk p && tableOk bslot && objOk doneSync && gaOk statusGa
  | .unbind p bslot doneSync statusGa _ => partOk p && tableOk bslot && objOk doneSync && gaOk statusGa
  | .lkupReq chip _ table _ _ _ _ => chipOk chip && tableOk table
  | .lkupData _ _ _ _ _ => true
  | .lookupDone _ => true
  | .skewWindow => true
  | .skewCounterRead w _ => whoOk w
  | .skewEvaluation _ _ _ => true
  | .shardMove table _ _ _ _ _ => tableOk table
  | .prevReclaim _ => true
  | .replicaScrub _ => true
  | .laneLock lane => laneOk lane
  | .laneLockLoss lane => laneOk lane
  | .linkUp => true
  | .multiblock lane _ _ => laneOk lane
  | .symbolLand _ _ _ => true
  | .symbolLaunch _ _ => true
  | .arm => true
  | .slotBoundary _ => true
  | .kslotPhase _ => true
  | .kmapRegister w _ => whoOk w
  | .kmapSelect w _ => whoOk w
  | .wfalse w _ => whoOk w
  | .whisperWindow _ _ _ _ _ _ => true
  | .whisperWake => true
  | .wadjAdjust => true
  | .codewordDescriptor w inst _ _ => whoOk w && weaveOk inst
  | .codewordDecode inst => weaveOk inst
  | .codewordEnd inst => weaveOk inst
  | .decodeDeadline _ inst _ => weaveOk inst
  | .weaveScrub inst _ => weaveOk inst
  | .timeWrap => true
  | .timeEpochLate => true
  | .timeEpoch _ => true
  | .timeNs w => whoOk w
  | .timeInc _ => true
  | .timeSlew _ => true
  | .timeStep _ => true
  | .refTune _ => true
  | .heldApply => true
  | .ppsOut _ => true
  | .ppsIn _ _ => true
  | .ppsLost _ => true
  | .timeCheckSend _ => true
  | .tchk chip _ _ => chipOk chip
  | .tchkResp _ _ _ _ _ => true
  | .checkLost _ => true
  | .trainingTimeout p => portOk p
  | .idle p _ => portOk p
  | .sequencedFlit p _ => portOk p
  | .nak p _ => portOk p
  | .credit p _ => portOk p
  | .hello p _ chip _ => portOk p && chipOk chip
  | .retrain p => portOk p
  | .replayTimeout p => portOk p
  | .retrainTimeout _ p => portOk p
  | .downRetry p => portOk p
  | .packetForward _ _ => true
  | .e2eAck chip _ _ => chipOk chip
  | .mbox chip _ => chipOk chip
  | .mboxRsp chip _ => chipOk chip
  | .reachability chip _ => chipOk chip
  | .join chip _ _ _ _ => chipOk chip
  | .admitMember chip => chipOk chip
  | .commitMember _ _ _ _ _ => true
  | .leave chip => chipOk chip
  | .lossBroadcast chip => chipOk chip
  | .heartbeatSend _ => true
  | .heartbeat chip _ _ _ => chipOk chip
  | .peerLost _ chip => chipOk chip
  | .flr _ => true
  | .perstN _ => true
  | .msixUnmask v => vectorOk v
  | .hostCopyDescriptor w c _ _ => whoOk w && chanOk c
  | .hostCopyDone c _ _ _ => chanOk c
  | .hostCopyTimeout _ c _ => chanOk c
  | .inboundSyncWrite n _ => objOk n
  | .ringTail w p r _ => whoOk w && ethOk p && ringOk r
  | .ethTransmit p r _ => ethOk p && ringOk r
  | .ethReceive p _ _ _ => ethOk p
  | .ethNotify _ p r => ethOk p && ringOk r
  | .xipRead w dev _ _ _ => whoOk w && flashOk dev
  | .xspiCmd dev _ _ _ => flashOk dev
  | .xspiCmdDone dev => flashOk dev
  | .reqTail pair chip _ => pairOk pair && chipOk chip
  | .requestConsume pair chip _ => pairOk pair && chipOk chip
  | .mgmtDatagram pair _ _ => pairOk pair
  | .identify r => mailOk r
  | .snapshot r => mailOk r
  | .logRead r => mailOk r
  | .noticeCfg r => mailOk r
  | .regWrite r => mailOk r
  | .regRead r => mailOk r
  | .partSet r => mailOk r
  | .partReset r => mailOk r
  | .chipReset r => mailOk r
  | .powerBudget r => mailOk r
  | .powerState r => mailOk r
  | .telemetry r => mailOk r
  | .tableCreate r => mailOk r
  | .tableFill r => mailOk r
  | .tableReplace r => mailOk r
  | .tableSwap r => mailOk r
  | .tableDelete r => mailOk r
  | .poolPolicy r => mailOk r
  | .kennelRead r => mailOk r
  | .kennelRelease r => mailOk r
  | .radioStart r => mailOk r
  | .radioStop r => mailOk r
  | .weaveLoad r => mailOk r
  | .weaveSelect r => mailOk r
  | .domainConfig r => mailOk r
  | .domainStatus r => mailOk r
  | .peerCoord r => mailOk r
  | .flashUpdate r => mailOk r
  | .bootPrefer r => mailOk r
  | .debugUnlock r => mailOk r
  | .seal r => mailOk r
  | .health r => mailOk r
  | .testPrbs r => mailOk r
  | .testBist r => mailOk r
  | .testBathtub r => mailOk r
  | .mgmtSet r => mailOk r
  | .ptpSet r => mailOk r
  | .timeAdjust r => mailOk r
  | .jobDone _ _ => true
  | .watchdogRestart => true
  | .eventReport _ => true
  | .eventLog => true
  | .telemetrySample _ => true
  | .powerPlan => true
  | .quarterGate q => quarterOk q
  | .leaseExpiry _ => true
  | .powerOverrun _ _ => true
  | .thermalTrip _ => true
  | .droopStretch q => quarterOk q
  | .droopRecover q _ => quarterOk q
  | .pwrfail _ _ => true
  | .overcurrent _ _ _ => true
  | .overvoltage _ _ => true
  | .switchReclose _ => true
  | .wakeN _ err => decide (err < 16)
  | .brownoutRestart _ err => decide (err < 16)
  | .refclkLoss => true
  | .refclkReturn err => decide (err < 16)
  | .powerOn _ err => decide (err < 16)
  | .warmReset err => decide (err < 16)
  | .coreReset => true
  | .bootFallback err => decide (err < 16)
  | .checkpointExpiry _ => true
  | .rollbackRaise _ => true
  | .holdupTest _ _ _ _ _ _ => true
  | .healthRecord _ _ => true
  | .healthFit _ _ _ => true
  | .extest _ => true
  | .samplePreload _ _ => true
  | .idcode => true
  | .clamp => true
  | .highz => true
  | .extestPulse _ => true
  | .extestTrain _ => true
  | .jtagMbox _ _ _ _ => true
  | .recover _ => true
  | .scanMode => true
  | .tapDebug _ => true
  | .bypass => true
  | .tapInstructionReplaced _ => true
  | .registerWrite w _ _ => whoOk w
  | .kmapOperationEnd => true
  | .blockLock p _ => portOk p
  | .prbsLock _ _ _ _ _ => true
  | .prbsLockLoss _ _ _ => true
  | .ethLinkDown p => ethOk p
  | .ethLinkUp p _ _ _ => ethOk p
  | .pcieLinkDown _ => true
  | .pcieLinkUp _ _ => true
  | .pllLockLoss => true
  | .pwrfailNDeassert _ _ => true
  | .inputSwitchClose _ _ => true
  | .railsFall => true
  | .inputRemoved _ => true
  | .thermN q _ => quarterOk q
  | .bootAttemptsClear _ => true
  | .e2eAckTimeout chip _ => chipOk chip
  | .heartbeatAnswer chip => chipOk chip
  | .windowBWrite _ _ _ => true
  | .inboundMemoryWrite _ _ _ => true

end Sys2Proof
end

