-- ==== Sys2Proof/Certificates/Slice0/Obligations.lean ====
section
/-!
DEFINITION. The statements for the provers, and the values that they expect, written from the rules of spec/.
-/
namespace Sys2Proof.Machine

/-! ### Pilot: results of arithmetic (R65, R70, R71, R78) -/

/-- An exact result in 32 bits under SAT with the range lo to hi (R70): clamped, or wrapped. -/
def wantFit (lo hi : Int) (sat : Bool) (x : Int) : W32 := BitVec.ofInt 32 (if sat then max lo (min x hi) else x)

/-- The exact result of a class 0x1 function that can overflow, with its range (R70, R71). -/
def wantExact (f : AluOp) (a b : W32) : Option (Int × Int × Int) :=
  let lo : Int := -(2 ^ 31)
  let hi : Int := 2 ^ 31 - 1
  match f with
  | .add => some (lo, hi, a.toInt + b.toInt)
  | .sub => some (lo, hi, a.toInt - b.toInt)
  | .addu => some (0, 2 ^ 32 - 1, (a.toNat : Int) + b.toNat)
  | .subu => some (0, 2 ^ 32 - 1, (a.toNat : Int) - b.toNat)
  | .abs => some (lo, hi, (a.toInt.natAbs : Int))
  | .neg => some (lo, hi, -a.toInt)
  | .mul => some (lo, hi, a.toInt * b.toInt)
  | _ => none

/-- The result of a class 0x1 function that cannot overflow (R71). -/
def wantPlain (f : AluOp) (a b : W32) : W32 :=
  match f with
  | .and => a &&& b
  | .or => a ||| b
  | .xor => a ^^^ b
  | .sll => a <<< (b.toNat % 32)
  | .srl => a >>> (b.toNat % 32)
  | .sra => a.sshiftRight (b.toNat % 32)
  | .slt => if a.toInt < b.toInt then 1 else 0
  | .sltu => if a.toNat < b.toNat then 1 else 0
  | .min => if a.toInt < b.toInt then a else b
  | .max => if a.toInt < b.toInt then b else a
  | .minu => if a.toNat < b.toNat then a else b
  | .maxu => if a.toNat < b.toNat then b else a
  | .clz => a.clz
  | .mulh => ((a.signExtend 64 * b.signExtend 64) >>> 32).setWidth 32
  | .mulhu => ((a.setWidth 64 * b.setWidth 64) >>> 32).setWidth 32
  | .packh => b.setWidth 16 ++ a.setWidth 16
  | _ => 0

/-- The value of a class 0x1 function, and whether it leaves its range (R70, R71). -/
def wantAlu (f : AluOp) (sat : Bool) (a b : W32) : W32 × Bool :=
  match wantExact f a b with
  | some (lo, hi, x) => (wantFit lo hi sat x, x < lo || hi < x)
  | none => (wantPlain f a b, false)

/-- The command of a class 0x1 function. -/
def aluRow (f : AluOp) (i : Issue) (sat : Bool) (rd rs1 rs2 : Nat) : Instr :=
  match f with
  | .add => .add i sat rd rs1 rs2
  | .sub => .sub i sat rd rs1 rs2
  | .addu => .addu i sat rd rs1 rs2
  | .subu => .subu i sat rd rs1 rs2
  | .and => .and i sat rd rs1 rs2
  | .or => .or i sat rd rs1 rs2
  | .xor => .xor i sat rd rs1 rs2
  | .sll => .sll i sat rd rs1 rs2
  | .srl => .srl i sat rd rs1 rs2
  | .sra => .sra i sat rd rs1 rs2
  | .slt => .slt i sat rd rs1 rs2
  | .sltu => .sltu i sat rd rs1 rs2
  | .min => .min i sat rd rs1 rs2
  | .max => .max i sat rd rs1 rs2
  | .minu => .minu i sat rd rs1 rs2
  | .maxu => .maxu i sat rd rs1 rs2
  | .abs => .abs i sat rd rs1
  | .neg => .neg i sat rd rs1
  | .clz => .clz i sat rd rs1
  | .mul => .mul i sat rd rs1 rs2
  | .mulh => .mulh i sat rd rs1 rs2
  | .mulhu => .mulhu i sat rd rs1 rs2
  | .packh => .packh i sat rd rs1 rs2

/-- A function of one operand has no RS2. -/
def oneOperand (f : AluOp) : Bool := f = .abs || f = .neg || f = .clz

/-- The command of a class 0x2 function. -/
def immRow (f : ImmOp) (i : Issue) (sat : Bool) (rd rs1 imm : Nat) : Instr :=
  match f with
  | .addi => .addi i sat rd rs1 imm
  | .andi => .andi i sat rd rs1 imm
  | .ori => .ori i sat rd rs1 imm
  | .xori => .xori i sat rd rs1 imm
  | .slli => .slli i sat rd rs1 imm
  | .srli => .srli i sat rd rs1 imm
  | .srai => .srai i sat rd rs1 imm
  | .slti => .slti i sat rd rs1 imm
  | .sltiu => .sltiu i sat rd rs1 imm
  | .mini => .mini i sat rd rs1 imm
  | .maxi => .maxi i sat rd rs1 imm

/-- IMM13 as class 0x2 uses it (R71): ANDI, ORI and XORI zero-extend it; the others sign-extend it, and a shift takes its low 5 bits. -/
def wantImm (f : ImmOp) (imm : Nat) : W32 :=
  if f = .andi ∨ f = .ori ∨ f = .xori then (BitVec.ofNat 13 imm).setWidth 32 else (BitVec.ofNat 13 imm).signExtend 32

/-- The command of a class 0x4 function that writes RD. -/
def extRow (f : DspOp) (i : Issue) (sat : Bool) (rd rs1 rs2 acc : Nat) : Option Instr :=
  match f with
  | .ext => some (.ext i sat rd rs2 acc)
  | .ext16 => some (.ext16 i sat rd rs2 acc)
  | .mulq => some (.mulq i sat rd rs1 rs2)
  | .ahi => some (.ahi i sat rd acc)
  | _ => none

/-- The operation of that command: fields that it does not use are zero. -/
def extOp (f : DspOp) (sat : Bool) (rd rs1 rs2 acc : Nat) : PilotOp :=
  match f with
  | .ext => .dsp .ext sat rd 0 rs2 acc false false false
  | .ext16 => .dsp .ext16 sat rd 0 rs2 acc false false false
  | .mulq => .dsp .mulq sat rd rs1 rs2 0 false false false
  | _ => .dsp .ahi sat rd 0 0 acc false false false

/-- The value for RD and whether it left its range (R70, R72, Table 3-4); SHIFT stands in `rs2`. -/
def wantExt (f : DspOp) (sat : Bool) (a b : W32) (acc : BitVec 40) (shift : Nat) : W32 × Bool :=
  let lo : Int := -(2 ^ 31)
  let hi : Int := 2 ^ 31 - 1
  let x := divHalfEven acc.toInt (2 ^ shift)
  match f with
  | .ext => (wantFit lo hi sat x, x < lo || hi < x)
  | .ext16 =>
    let y := if sat then max (-(2 ^ 15)) (min x (2 ^ 15 - 1)) else x
    ((BitVec.ofInt 16 y).signExtend 32, x < -(2 ^ 15) || 2 ^ 15 - 1 < x)
  | .mulq => let y := divHalfEven (a.toInt * b.toInt) (2 ^ 31); (wantFit lo hi sat y, y < lo || hi < y)
  | _ => ((acc.extractLsb' 32 8).signExtend 32, false)

/-- The delay slots of a result (Table 3-6). -/
def wantDelay (f : DspOp) : Nat := if f = .mulq then 1 else 2

end Sys2Proof.Machine

open Sys2Proof (Instr Issue W32 Byte VArgs Who)
open Sys2Proof.Machine

/-- ADD, SUB, ADDU, SUBU, AND, OR, XOR, SLL, SRL, SRA, SLT, SLTU, MIN, MAX, MINU, MAXU, ABS, NEG, CLZ, MUL, MULH, MULHU and PACKH, in either
slot of a bundle of straight-line code: RD receives the value of R71 under the rule of R70, after one delay slot for MUL, MULH and MULHU and
for the next bundle otherwise (R78); the sticky bit of R70 is set where the result leaves its range; nothing else changes.

ADDI, ANDI, ORI, XORI, SLLI, SRLI, SRAI, SLTI, SLTIU, MINI and MAXI: as the function of two registers of R71, with IMM13 in place of RS2.

LUI sets RD to IMM22 << 10 (R71).

Every FUNC of classes 0x1 and 0x2 that R71 does not list is reserved. -/
def Obligations.PilotArithmeticResults : Prop :=
  (∀ (s : State) (i : Issue) (f : AluOp) (sat : Bool) (rd rs1 rs2 : Nat), Straight s i.core →
    Holds s i (.alu f sat rd rs1 (if oneOperand f then 0 else rs2)) →
    ∃ t, exec (aluRow f i sat rd rs1 rs2) s = .next t ∧
      Wrote s t i.core rd (wantAlu f sat ((core s i.core).sreg rs1) ((core s i.core).sreg rs2)).1
        (if f = .mul ∨ f = .mulh ∨ f = .mulhu then 1 else 0)
        (wantAlu f sat ((core s i.core).sreg rs1) ((core s i.core).sreg rs2)).2 sat) ∧
  (∀ (s : State) (i : Issue) (f : ImmOp) (sat : Bool) (rd rs1 imm : Nat), Straight s i.core → imm < 2 ^ 13 →
    Holds s i (.alui f sat rd rs1 imm) →
    ∃ t, exec (immRow f i sat rd rs1 imm) s = .next t ∧
      Wrote s t i.core rd (wantAlu f.alu sat ((core s i.core).sreg rs1) (wantImm f imm)).1 0
        (wantAlu f.alu sat ((core s i.core).sreg rs1) (wantImm f imm)).2 sat) ∧
  (∀ (s : State) (i : Issue) (rd imm : Nat), Straight s i.core → Holds s i (.lui rd imm) →
    ∃ t, exec (.lui i rd imm) s = .next t ∧ Wrote s t i.core rd ((BitVec.ofNat 32 imm) <<< 10) 0 false false) ∧
  (∀ w : Nat, w < 2 ^ 32 →
    (w / 2 ^ 28 = 1 → 0x16 < w % 64 → decodeOp w = .illegal) ∧ (w / 2 ^ 28 = 2 → 0xA < w / 2 ^ 13 % 16 → decodeOp w = .illegal))

namespace Sys2Proof.Machine

/-! ### Pilot: accumulators and address registers (R70, R72, R75) -/

/-- The half of a register that H1 or H2 selects, signed (R72). -/
def wantHalf (high : Bool) (x : W32) : Int := if high then (x.extractLsb' 16 16).toInt else (x.extractLsb' 0 16).toInt

/-- A product of halves, doubled in Q mode (R72). -/
def wantProduct (q h1 h2 : Bool) (a b : W32) : Int := (if q then 2 else 1) * (wantHalf h1 a * wantHalf h2 b)

/-- The exact value that a class 0x4 function gives ACC (Table 3-4). -/
def wantAcc (f : DspOp) (q h1 h2 : Bool) (a b : W32) (acc : BitVec 40) : Int :=
  match f with
  | .mpy => wantProduct q h1 h2 a b
  | .mac => acc.toInt + wantProduct q h1 h2 a b
  | .msu => acc.toInt - wantProduct q h1 h2 a b
  | .dmac => acc.toInt + wantProduct q false false a b + wantProduct q true true a b
  | .ald => a.toInt
  | _ => 0

/-- The command of a class 0x4 function that writes ACC. -/
def accRow (f : DspOp) (i : Issue) (sat : Bool) (rs1 rs2 acc : Nat) (q h1 h2 : Bool) : Option Instr :=
  match f with
  | .mpy => some (.mpy i sat rs1 rs2 acc q h1 h2)
  | .mac => some (.mac i sat rs1 rs2 acc q h1 h2)
  | .msu => some (.msu i sat rs1 rs2 acc q h1 h2)
  | .dmac => some (.dmac i sat rs1 rs2 acc q)
  | .aclr => some (.aclr i sat acc)
  | .ald => some (.ald i sat rs1 acc)
  | _ => none

/-- The operation of that command: fields that it does not use are zero. -/
def accOp (f : DspOp) (sat : Bool) (rs1 rs2 acc : Nat) (q h1 h2 : Bool) : PilotOp :=
  match f with
  | .dmac => .dsp .dmac sat 0 rs1 rs2 acc q false false
  | .aclr => .dsp .aclr sat 0 0 0 acc false false false
  | .ald => .dsp .ald sat 0 rs1 0 acc false false false
  | f => .dsp f sat 0 rs1 rs2 acc q h1 h2

/-- A circular update of A_n by d bytes (R75). -/
def wantCircular (a b l : W32) (d : Int) : W32 :=
  if l = 0 then a + BitVec.ofInt 32 d else BitVec.ofInt 32 ((b.toNat : Int) + ((a.toNat : Int) - (b.toNat : Int) + d) % (l.toNat : Int))

/-- A register of the A, B, L or M file (0 to 3). -/
def fileReg (k : Core) (file n : Nat) : W32 :=
  match file with
  | 0 => tabGet k.a n 0
  | 1 => tabGet k.b n 0
  | 2 => tabGet k.l n 0
  | _ => tabGet k.m n 0

/-- Core `c` has run a bundle in one cycle and gone on, and the register `n` of `file` holds `v`; nothing else has changed but what falls due. -/
def WroteFile (s t : State) (c file n : Nat) (v : W32) : Prop :=
  OnlyCore s t c ∧
    Like { core s c with a := (core t c).a, b := (core t c).b, l := (core t c).l, m := (core t c).m } (core t c) ∧
    PcNext (core s c) (core t c) ∧ Took (core s c) (core t c) 1 ∧ SysBut [R.CYCLE.val.off] (core s c) (core t c) ∧
    (∀ r, (core t c).sreg r = seenNext (core s c) r) ∧ (core t c).delayed = stillDelayed (core s c) ∧
    ∀ g j, g < 4 → fileReg (core t c) g j = if g = file ∧ j = n then v else fileReg (core s c) g j

end Sys2Proof.Machine

/-- MULQ, EXT, EXT16 and AHI: RD receives the value of Table 3-4 after one delay slot (MULQ) or two (R78).

MPY, MAC, MSU, DMAC, ACLR and ALD: the accumulator named receives the value of Table 3-4, in 40 bits under the rule of R70, with the
sticky bit of R70; nothing else changes but the delayed writes that fall due.

MOVA, MOVB, MOVL and MOVM copy RS1 into a register of the A, B, L or M file; AADDI and AADDM make the circular update of R75 by IMM13
bytes, or by M_m.

OP 7 of class 0x7 is reserved (R75), and MFA sets RD to register N of FILE: 0 A, 1 B, 2 L, 3 M (R75). -/
def Obligations.DspAndAddressResults : Prop :=
  (∀ (s : State) (i : Issue) (f : DspOp) (row : Instr) (sat : Bool) (rd rs1 rs2 acc : Nat), Straight s i.core → i.slot1 = false →
    rs2 < 32 → extRow f i sat rd rs1 rs2 acc = some row → Holds s i (extOp f sat rd rs1 rs2 acc) →
    ∃ t, exec row s = .next t ∧
      Wrote s t i.core rd (wantExt f sat ((core s i.core).sreg rs1) ((core s i.core).sreg rs2) (tabGet (core s i.core).acc acc 0) rs2).1
        (wantDelay f)
        (wantExt f sat ((core s i.core).sreg rs1) ((core s i.core).sreg rs2) (tabGet (core s i.core).acc acc 0) rs2).2 sat) ∧
  (∀ (s : State) (i : Issue) (f : DspOp) (row : Instr) (sat : Bool) (rs1 rs2 acc : Nat) (q h1 h2 : Bool), Straight s i.core →
    i.slot1 = false → accRow f i sat rs1 rs2 acc q h1 h2 = some row → Holds s i (accOp f sat rs1 rs2 acc q h1 h2) →
    ∃ t, exec row s = .next t ∧
      (let k := core s i.core
       let k' := core t i.core
       let x := wantAcc f q h1 h2 (k.sreg rs1) (k.sreg rs2) (tabGet k.acc acc 0)
       OnlyCore s t i.core ∧ Like { k with acc := k'.acc } k' ∧ PcNext k k' ∧ Took k k' 1 ∧ SysBut [R.PSTAT.IE.off, R.CYCLE.val.off] k k' ∧
         Sticky k k' (x < -(2 ^ 39) || 2 ^ 39 - 1 < x) sat ∧ (∀ r, k'.sreg r = seenNext k r) ∧ k'.delayed = stillDelayed k ∧
         ∀ j, tabGet k'.acc j 0 =
           if j = acc then BitVec.ofInt 40 (if sat then max (-(2 ^ 39)) (min x (2 ^ 39 - 1)) else x) else tabGet k.acc j 0)) ∧
  (∀ (s : State) (i : Issue) (n rs1 imm m : Nat), Straight s i.core →
    (Holds s i (.amov 0 n rs1) → ∃ t, exec (.mova i n rs1) s = .next t ∧ WroteFile s t i.core 0 n ((core s i.core).sreg rs1)) ∧
    (Holds s i (.amov 1 n rs1) → ∃ t, exec (.movb i n rs1) s = .next t ∧ WroteFile s t i.core 1 n ((core s i.core).sreg rs1)) ∧
    (Holds s i (.amov 2 n rs1) → ∃ t, exec (.movl i n rs1) s = .next t ∧ WroteFile s t i.core 2 n ((core s i.core).sreg rs1)) ∧
    (Holds s i (.amov 3 n rs1) → ∃ t, exec (.movm i n rs1) s = .next t ∧ WroteFile s t i.core 3 n ((core s i.core).sreg rs1)) ∧
    (Holds s i (.aaddi n imm) → ∃ t, exec (.aaddi i n imm) s = .next t ∧
      WroteFile s t i.core 0 n (wantCircular (fileReg (core s i.core) 0 n) (fileReg (core s i.core) 1 n) (fileReg (core s i.core) 2 n)
        (BitVec.ofNat 13 imm).toInt)) ∧
    (Holds s i (.aaddm n m) → ∃ t, exec (.aaddm i n m) s = .next t ∧
      WroteFile s t i.core 0 n (wantCircular (fileReg (core s i.core) 0 n) (fileReg (core s i.core) 1 n) (fileReg (core s i.core) 2 n)
        (fileReg (core s i.core) 3 m).toInt))) ∧
  ((∀ w : Nat, w < 2 ^ 32 → w / 2 ^ 28 = 7 → w / 2 ^ 25 % 8 = 7 → decodeOp w = .illegal) ∧
  ∀ (s : State) (i : Issue) (rd file n : Nat), Straight s i.core → Holds s i (.mfa rd file n) → file < 4 →
    ∃ t, exec (.mfa i rd file n) s = .next t ∧
      Wrote s t i.core rd (tabGet (match file with
        | 0 => (core s i.core).a
        | 1 => (core s i.core).b
        | 2 => (core s i.core).l
        | _ => (core s i.core).m) n 0) 0 false false)

namespace Sys2Proof.Machine

/-! ### Pilot: loads and stores (R73, R74, R76, R77) -/

/-- IMM12 as a signed count of elements, in bytes (R74). -/
def wantOffset (size imm : Nat) : Int := (BitVec.ofNat 12 imm).toInt * 2 ^ size

/-- The address that a mode uses (Table 3-5). -/
def wantEa (k : Core) (an mode size imm : Nat) : Nat :=
  match mode with
  | 0 => (fileReg k 0 an + BitVec.ofInt 32 (wantOffset size imm)).toNat
  | 5 => (fileReg k 0 an + k.sreg (imm % 32)).toNat
  | _ => (fileReg k 0 an).toNat

/-- A_n after a mode (Table 3-5). -/
def wantAfter (k : Core) (an mode size imm : Nat) : W32 :=
  match mode with
  | 1 => fileReg k 0 an + BitVec.ofInt 32 (wantOffset size imm)
  | 2 => fileReg k 0 an + fileReg k 3 (imm % 8)
  | 3 => wantCircular (fileReg k 0 an) (fileReg k 1 an) (fileReg k 2 an) (wantOffset size imm)
  | 4 => wantCircular (fileReg k 0 an) (fileReg k 1 an) (fileReg k 2 an) (fileReg k 3 (imm % 8)).toInt
  | _ => fileReg k 0 an

/-- Where the bytes of an access lie that nothing refuses or delays, with no DMA of the core outstanding: IMEM (SPACE 1), the core's own
tile memory, or LP5X of the own chip through a window (R66, R73), no row or page of it in the Kennel and no line held by another chip. -/
def Reaches (s : State) (c : Nat) (imem : Bool) (ea n loc : Nat) : Prop :=
  (core s c).dmas = [] ∧ ea % n = 0 ∧ poisoned s loc n = false ∧
    ((imem = true ∧ n = 4 ∧ ea < 0x20000 ∧ loc = imemAddr c ea) ∨
      (imem = false ∧ ea < 0x180000 ∧ loc = tileAddr c ea ∧ ¬ s.marks.rows.contains (loc / 128)) ∨
      (imem = false ∧ ∃ ga, ea < 2 ^ 32 ∧ 1 ≤ ea / 2 ^ 28 ∧ eaGa s c ea = some ga ∧ ga / 2 ^ 44 % 16 = chipId s ∧ loc = ga % 2 ^ 44 ∧
        loc < lp5xEnd ∧ ¬ s.marks.pages.contains (loc / 4096) ∧ s.coh.dir = [] ∧ s.coh.serving = []))

/-- The bytes at an address, least significant first, as a number (R7). -/
def wantNumber (s : State) (loc n : Nat) : Nat := numLE ((List.range n).map (fun j => memRead s.mem (loc + j)))

/-- What a loaded value of 8n bits becomes in RD: sign- or zero-extended (R74). -/
def wantLoaded (sg : Bool) (n x : Nat) : W32 := if sg then (BitVec.ofNat (8 * n) x).signExtend 32 else (BitVec.ofNat (8 * n) x).setWidth 32

end Sys2Proof.Machine

/-- LOAD, in every addressing mode and size, from own tile memory, from IMEM and from LP5X of the own chip: RD receives the bytes at the
effective address after 3 delay slots, A_n takes its value of Table 3-5, and nothing else changes. An access outside own tile memory
freezes the pipeline for the cycles of Config.freezeCycles (R77).

STORE, in every addressing mode and size, to own tile memory, to IMEM and to LP5X of the own chip: the low bytes of RS are stored at the
effective address, least significant first, every other byte of memory reads as before, A_n takes its value of Table 3-5, and nothing else
changes. -/
def Obligations.PilotMemoryAccess : Prop :=
  (∀ (s : State) (i : Issue) (rd an mode size : Nat) (sg imem : Bool) (imm loc : Nat), Straight s i.core → i.slot1 = true →
    inTileTask s i.core = false → mode < 6 → size < 3 → Holds s i (.load rd an mode size sg imem imm) →
    Reaches s i.core imem (wantEa (core s i.core) an mode size imm) (2 ^ size) loc →
    ∃ t, exec (.load i rd an mode size sg imem imm) s = .next t ∧
      (let k := core s i.core
       let k' := core t i.core
       let own : Bool := !imem && wantEa k an mode size imm < 0x180000
       t = { s with cores := t.cores, fresh := if own then s.fresh else s.fresh + 1 } ∧ (∀ d, d ≠ i.core → core t d = core s d) ∧
         Like { k with a := k'.a } k' ∧ PcNext k k' ∧ Took k k' (if own then 1 else 1 + Sys2Proof.Config.freezeCycles s.fresh) ∧
         SysBut [R.CYCLE.val.off] k k' ∧ (∀ r, k'.sreg r = seenNext k r) ∧
         k'.delayed = stillDelayed k ++ [⟨rd, wantLoaded sg (2 ^ size) (wantNumber s loc (2 ^ size)), 3, true⟩] ∧
         ∀ n, tabGet k'.a n 0 = if n = an then wantAfter k an mode size imm else tabGet k.a n 0)) ∧
  (∀ (s : State) (i : Issue) (rs an mode size : Nat) (imem : Bool) (imm loc : Nat), Straight s i.core → i.slot1 = true →
    inTileTask s i.core = false → mode < 6 → size < 3 → Holds s i (.store rs an mode size imem imm) →
    Reaches s i.core imem (wantEa (core s i.core) an mode size imm) (2 ^ size) loc →
    ∃ t, exec (.store i rs an mode size imem imm) s = .next t ∧
      (let k := core s i.core
       let k' := core t i.core
       t = { s with cores := t.cores, fresh := s.fresh + 1, mem := t.mem } ∧ (∀ d, d ≠ i.core → core t d = core s d) ∧
         Like { k with a := k'.a } k' ∧ PcNext k k' ∧ Took k k' (1 + Sys2Proof.Config.freezeCycles s.fresh) ∧
         SysBut [R.CYCLE.val.off] k k' ∧ (∀ r, k'.sreg r = seenNext k r) ∧ k'.delayed = stillDelayed k ∧
         (∀ n, tabGet k'.a n 0 = if n = an then wantAfter k an mode size imm else tabGet k.a n 0) ∧
         ∀ x, memRead t.mem x =
           if loc ≤ x ∧ x < loc + 2 ^ size then BitVec.ofNat 8 ((k.sreg rs).toNat / 256 ^ (x - loc)) else memRead s.mem x))

namespace Sys2Proof.Machine

/-! ### Pilot: branches, jumps and repeats (R80, R82, R83) -/

/-- Does a condition of Table R80 hold? -/
def wantCond (cond : Nat) (a b : W32) : Bool :=
  match cond with
  | 0 => a == b
  | 1 => a != b
  | 2 => a.slt b
  | 3 => b.sle a
  | 4 => a.ult b
  | _ => b.ule a

/-- Core `c` has run a change of flow in one cycle: two delay slots follow, and after them the target, if it is taken; JAL and JALR have
written `link` to S_31; nothing else has changed but what falls due. -/
def Jumped (s t : State) (c : Nat) (target : Option Nat) (link : Option W32) : Prop :=
  OnlyCore s t c ∧
    Like { core s c with dslots := 2, land := match target with
      | some x => .go x
      | none => .none } (core t c) ∧
    PcNext (core s c) (core t c) ∧ Took (core s c) (core t c) 1 ∧ SysBut [R.CYCLE.val.off] (core s c) (core t c) ∧
    (∀ r, (core t c).sreg r = if r = 31 then link.getD (seenNext (core s c) 31) else seenNext (core s c) r) ∧
    (core t c).delayed = stillDelayed (core s c)

/-- Core `c` has run a NOP bundle in one cycle and stands at `pc`, with `sys` registers as listed; nothing else has changed but what falls due
and, in `base`, the record of the delay slots. -/
def RanNop (s t : State) (c : Nat) (base : Core) (pc : Nat) (l : List Nat) : Prop :=
  OnlyCore s t c ∧ Like base (core t c) ∧ (core t c).pc = pc ∧ Took (core s c) (core t c) 1 ∧
    SysBut (R.CYCLE.val.off :: l) (core s c) (core t c) ∧ (∀ r, (core t c).sreg r = seenNext (core s c) r) ∧
    (core t c).delayed = stillDelayed (core s c)

end Sys2Proof.Machine

/-- BRANCH goes to its own address + 8 × OFF12 where the condition holds, J and JAL to TARGET14 × 8, JR and JALR to RS1, after 2 delay
slots; JAL and JALR write the address of bundle k + 3 to S_31 for the next bundle. -/
def Obligations.BranchesAndJumps : Prop :=
  ∀ (s : State) (i : Issue) (cond rs1 rs2 off target : Nat), Straight s i.core → i.slot1 = false →
    (cond < 6 → off < 4096 → Holds s i (.branch cond rs1 rs2 off) → ∃ t, exec (.branch i cond rs1 rs2 off) s = .next t ∧
      Jumped s t i.core (if wantCond cond ((core s i.core).sreg rs1) ((core s i.core).sreg rs2) then
        some (BitVec.ofInt 32 ((core s i.core).pc + 8 * (BitVec.ofNat 12 off).toInt)).toNat else none) none) ∧
    (Holds s i (.jump .j 0 target) → ∃ t, exec (.j i target) s = .next t ∧ Jumped s t i.core (some (8 * target)) none) ∧
    (Holds s i (.jump .jal 0 target) → ∃ t, exec (.jal i target) s = .next t ∧
      Jumped s t i.core (some (8 * target)) (some (BitVec.ofNat 32 ((core s i.core).pc + 24)))) ∧
    (Holds s i (.jump .jr rs1 0) → ((core s i.core).sreg rs1).toNat % 8 = 0 → ∃ t, exec (.jr i rs1) s = .next t ∧
      Jumped s t i.core (some ((core s i.core).sreg rs1).toNat) none) ∧
    (Holds s i (.jump .jalr rs1 0) → ((core s i.core).sreg rs1).toNat % 8 = 0 → ∃ t, exec (.jalr i rs1) s = .next t ∧
      Jumped s t i.core (some ((core s i.core).sreg rs1).toNat) (some (BitVec.ofNat 32 ((core s i.core).pc + 24))))

/-- NOP, in either slot of a bundle of NOPs: the next bundle in line follows, the delayed writes that fall due land (R78), and a delay slot
counts down; after the last one the target of a taken branch follows (R80), or the next bundle in line after one that was not taken.

REP with a COUNT above 0 takes a level of the repeat stack and goes on to its body; a COUNT of 0 skips the body in 2 cycles. At the last
bundle of an iteration the body's first bundle follows while iterations remain, and otherwise the level is released. RBRK leaves the
innermost body after 2 delay slots. -/
def Obligations.DelaySlotsAndRepeatBodies : Prop :=
  (∀ (s : State) (i : Issue), Ready s i.core → (core s i.core).depth = 0 → Holds s i .nop →
    (core s i.core).land ≠ .ret →
    ∃ t, exec (.nop i) s = .next t ∧
      (if (core s i.core).dslots = 1 then
        match (core s i.core).land with
        | .go x => RanNop s t i.core { core s i.core with dslots := 0, land := .none } x []
        | _ => RanNop s t i.core { core s i.core with dslots := 0 } (((core s i.core).pc + 8) % 2 ^ 32) []
      else RanNop s t i.core { core s i.core with dslots := (core s i.core).dslots - 1 } (((core s i.core).pc + 8) % 2 ^ 32) [])) ∧
  (∀ (s : State) (i : Issue) (src : Bool) (count rs1 len : Nat), Ready s i.core → i.slot1 = false → (core s i.core).dslots = 0 →
    (let k := core s i.core
     let n := if src then (k.sreg rs1).toNat else count
     let d := k.depth
     let le := (k.pc + 8 * len) % 2 ^ 32
     (0 < len → n < 2 ^ 32 → repTrap s i.core k len = none → Holds s i (.rep src count rs1 len) →
       ∃ t, exec (.rep i src count rs1 len) s = .next t ∧
        (let k' := core t i.core
         OnlyCore s t i.core ∧ Like k k' ∧ (∀ r, k'.sreg r = seenNext k r) ∧ k'.delayed = stillDelayed k ∧
          (if n = 0 then k'.pc = (le + 8) % 2 ^ 32 ∧ Took k k' 2 ∧ SysBut [R.CYCLE.val.off] k k'
           else k'.pc = (k.pc + 8) % 2 ^ 32 ∧ Took k k' 1 ∧ k'.lc d = n ∧ k'.ls d = (k.pc + 8) % 2 ^ 32 ∧ k'.le d = le ∧ k'.depth = d + 1 ∧
             SysBut [R.CYCLE.val.off, R.PSTAT.IE.off, (R.LC.val d).off, (R.LS.val d).off, (R.LE.val d).off] k k'))) ∧
     (0 < d → d ≤ 3 → k.pc = k.le (d - 1) → Holds s i .nop → ∃ t, exec (.nop i) s = .next t ∧
       (if 1 < k.lc (d - 1) then
          RanNop s t i.core k (k.ls (d - 1)) [(R.LC.val (d - 1)).off] ∧ (core t i.core).lc (d - 1) = k.lc (d - 1) - 1
        else
          RanNop s t i.core k ((k.pc + 8) % 2 ^ 32) [(R.LC.val (d - 1)).off, R.PSTAT.IE.off] ∧ (core t i.core).depth = d - 1)) ∧
     (d = 1 → k.ls 0 ≤ k.pc → k.pc ≤ k.le 0 → Holds s i .rbrk → ∃ t, exec (.rbrk i) s = .next t ∧
        (let k' := core t i.core
         OnlyCore s t i.core ∧ Like { k with dslots := 2, land := .go ((k.le 0 + 8) % 2 ^ 32) } k' ∧ PcNext k k' ∧ Took k k' 1 ∧
           k'.depth = 0 ∧ SysBut [R.CYCLE.val.off, R.PSTAT.IE.off] k k' ∧ (∀ r, k'.sreg r = seenNext k r) ∧ k'.delayed = stillDelayed k))))

namespace Sys2Proof.Machine

/-! ### Pilot: control and system registers (R69, R90, R93, R96, R194) -/

/-- A core has run a bundle of the slot-0 operation alone, in `n` cycles, and gone on to the next in line. -/
def RanOne (s t : State) (c : Nat) (base : Core) (n : Nat) (l : List Nat) : Prop :=
  OnlyCore s t c ∧ Like base (core t c) ∧ PcNext (core s c) (core t c) ∧ Took (core s c) (core t c) n ∧
    SysBut (R.CYCLE.val.off :: l) (core s c) (core t c) ∧ (∀ r, (core t c).sreg r = seenNext (core s c) r) ∧
    (core t c).delayed = stillDelayed (core s c)

/-- The command of a fence. -/
def fenceRow (f : FenceOp) (i : Issue) : Instr :=
  match f with
  | .full => .fenceFull i
  | .release => .fenceRelease i
  | .acquire => .fenceAcquire i
  | .dma => .fenceDma i

/-- What an MTS of `v` leaves in a field under its access code (R9): `b` is its value before. -/
def wantField (acc : Acc) (b v : Nat) : Nat :=
  match acc with
  | .rw => v
  | .w1c => b - (b &&& v)
  | _ => b

end Sys2Proof.Machine

/-- HEEL, with no delayed write outstanding, writes its tag to HEEL_TAG in one cycle and its boundary is an interruptible point; IFENCE
empties the fetch queue in 6 cycles; WAITI leaves the core idle.

FENCE FULL, RELEASE and ACQUIRE complete after a freeze, and so does FENCE DMA once no transfer of the core is outstanding; while one is,
it does not complete and nothing changes. -/
def Obligations.SpecialsAndFences : Prop :=
  (∀ (s : State) (i : Issue) (tag : Nat), Straight s i.core → i.slot1 = false →
    (tag < 4096 → (core s i.core).delayed = [] → Holds s i (.heel tag) → ∃ t, exec (.heel i tag) s = .next t ∧
      RanOne s t i.core (core s i.core) 1 [R.HEEL_TAG.val.off] ∧ (core t i.core).sysFld R.HEEL_TAG.val = tag ∧
      (core t i.core).interruptible = true) ∧
    (Holds s i .ifence → ∃ t, exec (.ifence i) s = .next t ∧ RanOne s t i.core (core s i.core) 6 [] ∧ (core t i.core).stale = []) ∧
    (Holds s i .waiti → ∃ t, exec (.waiti i) s = .next t ∧
      RanOne s t i.core { core s i.core with run := .waiti } 1 [] ∧ (core t i.core).interruptible = true)) ∧
  (∀ (s : State) (i : Issue) (f : FenceOp), Straight s i.core → i.slot1 = false → inTileTask s i.core = false → Holds s i (.fence f) →
    ((f = .dma → (core s i.core).dmas = []) → ∃ t, exec (fenceRow f i) s = .next t ∧
      (let k := core s i.core
       let k' := core t i.core
       t = { s with cores := t.cores, fresh := s.fresh + 1 } ∧ (∀ d, d ≠ i.core → core t d = core s d) ∧ Like k k' ∧ PcNext k k' ∧
         Took k k' (1 + Sys2Proof.Config.freezeCycles s.fresh) ∧ SysBut [R.CYCLE.val.off] k k' ∧ (∀ r, k'.sreg r = seenNext k r) ∧
         k'.delayed = stillDelayed k)) ∧
    (f = .dma → (core s i.core).dmas ≠ [] → exec (fenceRow f i) s = .next s))

/-- MFS sets RD to the system register named, and to the core's own number for CORE_ID (R96); before it reads one of the vector engine's it
freezes.

MTS writes the fields of the register named under their access codes (R9, R96): RW fields take RS, a one clears a W1C bit, RO fields keep
their value; bits 16 and 17 of IMASK read 1. It holds issue for 3 cycles, and no other register changes. (TASK and CLAIM, whose bits act, and
CYCLE, which counts, apart.) -/
def Obligations.SystemRegisterAccess : Prop :=
  (∀ (s : State) (i : Issue) (rd index : Nat), Straight s i.core → i.slot1 = false → Holds s i (.mfs rd index) →
    rowsName sysRows index = true → ¬ (0x40 ≤ index ∧ index ≤ 0x46) →
    ∃ t, exec (.mfs i rd index) s = .next t ∧
      Wrote s t i.core rd (BitVec.ofNat 32 (if index = R.CORE_ID.val.off then i.core else sysRead s i.core index)) 0 false false) ∧
  (∀ (s : State) (i : Issue) (rs index : Nat), Straight s i.core → i.slot1 = false → Holds s i (.mts rs index) →
    rowsName sysRows index = true → index ≠ R.TASK.END.off → index ≠ R.CLAIM.YIELD.off → index ≠ R.CYCLE.val.off →
    index ≠ R.CORE_ID.val.off →
    ∃ t, exec (.mts i rs index) s = .next t ∧
      (let k := core s i.core
       let k' := core t i.core
       OnlyCore s t i.core ∧ Like k k' ∧ PcNext k k' ∧ Took k k' 3 ∧ SysBut [R.CYCLE.val.off, index] k k' ∧
         (∀ r, k'.sreg r = seenNext k r) ∧ k'.delayed = stillDelayed k ∧
         ∀ r, r ∈ sysRows → (rowIndex r index).isSome → index ≠ R.IMASK.val.off →
           bitsOf (k'.sysWord 0 index) r.hi r.lo =
             wantField r.acc (bitsOf (k.sysWord 0 index) r.hi r.lo) (bitsOf (k.sreg rs).toNat r.hi r.lo)))

namespace Sys2Proof.Machine

/-! ### Pilot: traps, interrupts and the return from them (R84 to R91, Tables 3-7 and 3-8) -/

/-- The writes that a core has outstanding fit the delayed-write buffer (R87). -/
def FitsDwb (k : Core) : Prop := k.dslots ≤ 2 ∧ k.delayed.length ≤ 5 ∧ ∀ d, d ∈ k.delayed → d.dest < 32 ∧ 1 ≤ d.left ∧ d.left ≤ 3

/-- The core stands at the vector of a cause: Table 3-7, with `k` the core as it was there and `epc` what EPC received; the registers a
program computes with are as they were. -/
def Entered (k k' : Core) (code epc : Nat) : Prop :=
  k'.pc = (k.sysFld R.VBASE.val * 2 ^ 10 + 32 * code) % 2 ^ 32 ∧ k'.sysFld R.EPC.val = epc ∧ k'.sysFld R.CAUSE.CODE = code ∧
    k'.sysFld R.EPSTAT.PSTAT = bitsOf (k.sysWord 0 R.PSTAT.IE.off) 5 0 ∧ k'.sysFlag R.PSTAT.IE = false ∧ k'.sysFlag R.PSTAT.EXL = true ∧
    k'.sysFlag R.PSTAT.SAT_STICKY = k.sysFlag R.PSTAT.SAT_STICKY ∧ k'.sysFlag R.PSTAT.OVF_STICKY = k.sysFlag R.PSTAT.OVF_STICKY ∧
    k'.depth = 0 ∧
    k' = { k with
      sys := k'.sys, pc := k'.pc, delayed := [], dslots := 0, land := .none, atHeel := false, loopTop := true, runLen := k'.runLen, stale := [],
      run := .running }

/-- A trap's additions to Table 3-7 (R87): the delay slots still to run with the branch target, and the delayed-write buffer. -/
def Saved (k k' : Core) : Prop :=
  (match k.land with
    | .go x =>
      if k.dslots = 0 then k'.sysFld R.EPSTAT.BDS = 0 else k'.sysFld R.EPSTAT.BDS = k.dslots ∧ k'.sysFld R.EBT.val = x % 2 ^ 32
    | _ => k'.sysFld R.EPSTAT.BDS = 0) ∧
    k'.sysFld R.EPSTAT.DWB_COUNT = k.delayed.length ∧
    ∀ j d, k.delayed[j]? = some d → k'.sysFld (R.DWB_DATA.val j) = d.val.toNat ∧ k'.sysFld (R.DWB_CTL.DEST j) = d.dest ∧
      k'.sysFld (R.DWB_CTL.LEFT j) = d.left ∧ k'.sysFlag (R.DWB_CTL.VALID j) = true

/-- The system registers that entry writes. -/
def entrySys : List Nat :=
  [R.PSTAT.IE.off, R.EPSTAT.PSTAT.off, R.EPC.val.off, R.EBT.val.off, R.CAUSE.CODE.off, R.CYCLE.val.off] ++
    (List.range 5).map (fun j => (R.DWB_DATA.val j).off) ++ (List.range 5).map (fun j => (R.DWB_CTL.DEST j).off)

/-- Core `c` has taken a trap at its bundle, before any effect of the bundle: EPC holds the bundle's address, and FAULT_ADDR the address of
the fault, where the cause has one. -/
def Trapped (s t : State) (c code : Nat) (addr : Option Nat) : Prop :=
  OnlyCore s { t with events := s.events } c ∧ Entered (core s c) (core t c) code (core s c).pc ∧ Saved (core s c) (core t c) ∧
    (match addr with
      | some a => (core t c).sysFld R.FAULT_ADDR.val = a ∧ SysBut (R.FAULT_ADDR.val.off :: entrySys) (core s c) (core t c)
      | none => SysBut entrySys (core s c) (core t c))

end Sys2Proof.Machine

/-- TRAP completes its bundle, and then the trap with CODE 10 is taken: EPC holds the address of the next bundle, and the state of Table 3-7
is entered.

The traps of R68, R67, R76, R73, R80, R96 and R83, each taken at its bundle without any effect of it: a reserved word is ILLEGAL_OP; a
load or store in slot 0 ILLEGAL_BUNDLE; a misaligned access MISALIGNED and one beyond own tile memory ADDR_FAULT, both with the effective
address; a misaligned target of JR and JALR MISALIGNED; a reserved system register ILLEGAL_OP; a REP at depth 3 REPEAT_OVERFLOW. -/
def Obligations.TrapsAreTaken : Prop :=
  (∀ (s : State) (i : Issue) (code : Nat), Straight s i.core → i.slot1 = false → FitsDwb (core s i.core) →
    (core s i.core).sysFlag R.PSTAT.EXL = false → Holds s i (.trap code) →
    ∃ t, exec (.trap i code) s = .next t ∧
      (let k := { core s i.core with s := (core t i.core).s, delayed := stillDelayed (core s i.core) }
       OnlyCore s t i.core ∧ (∀ r, (core t i.core).sreg r = seenNext (core s i.core) r) ∧
         Entered k (core t i.core) 10 (((core s i.core).pc + 8) % 2 ^ 32) ∧ Saved k (core t i.core) ∧ SysBut entrySys k (core t i.core))) ∧
  (∀ (s : State) (i : Issue) (op : PilotOp) (row : Instr) (code : Nat) (addr : Option Nat), Ready s i.core → FitsDwb (core s i.core) →
    (core s i.core).sysFlag R.PSTAT.EXL = false → (core s i.core).dslots = 0 → Holds s i op → s.flash.refused = none → s.events.length < 256 →
    ((row = .nop i ∧ op = .illegal ∧ code = 1 ∧ addr = none) ∨
      (∃ rd an mode size sg imem imm, row = .load i rd an mode size sg imem imm ∧ op = .load rd an mode size sg imem imm ∧ i.slot1 = false ∧
        code = 2 ∧ addr = none) ∨
      (∃ rs an mode size imem imm, row = .store i rs an mode size imem imm ∧ op = .store rs an mode size imem imm ∧ i.slot1 = false ∧
        code = 2 ∧ addr = none) ∨
      (∃ rd an mode size sg imem imm, row = .load i rd an mode size sg imem imm ∧ op = .load rd an mode size sg imem imm ∧ i.slot1 = true ∧
        mode < 6 ∧ addr = some (wantEa (core s i.core) an mode size imm) ∧
        ((wantEa (core s i.core) an mode size imm % 2 ^ size ≠ 0 ∧ code = 4) ∨
          (wantEa (core s i.core) an mode size imm % 2 ^ size = 0 ∧ imem = false ∧ 0x180000 ≤ wantEa (core s i.core) an mode size imm ∧
            wantEa (core s i.core) an mode size imm < 2 ^ 28 ∧ code = 5))) ∨
      (∃ rs an mode size imem imm, row = .store i rs an mode size imem imm ∧ op = .store rs an mode size imem imm ∧ i.slot1 = true ∧
        mode < 6 ∧ addr = some (wantEa (core s i.core) an mode size imm) ∧
        ((wantEa (core s i.core) an mode size imm % 2 ^ size ≠ 0 ∧ code = 4) ∨
          (wantEa (core s i.core) an mode size imm % 2 ^ size = 0 ∧ imem = false ∧ 0x180000 ≤ wantEa (core s i.core) an mode size imm ∧
            wantEa (core s i.core) an mode size imm < 2 ^ 28 ∧ code = 5))) ∨
      (∃ rs1, (row = .jr i rs1 ∧ op = .jump .jr rs1 0 ∨ row = .jalr i rs1 ∧ op = .jump .jalr rs1 0) ∧ i.slot1 = false ∧
        (core s i.core).depth = 0 ∧ ((core s i.core).sreg rs1).toNat % 8 ≠ 0 ∧ code = 4 ∧ addr = some ((core s i.core).sreg rs1).toNat) ∨
      (∃ r index, (row = .mfs i r index ∧ op = .mfs r index ∨ row = .mts i r index ∧ op = .mts r index) ∧ i.slot1 = false ∧
        rowsName sysRows index = false ∧ code = 1 ∧ addr = none) ∨
      (∃ src count rs1 len, row = .rep i src count rs1 len ∧ op = .rep src count rs1 len ∧ i.slot1 = false ∧ (core s i.core).depth = 3 ∧
        repTrap s i.core (core s i.core) len = some ⟨9, none⟩ ∧ code = 9 ∧ addr = none)) →
    ∃ t, exec row s = .next t ∧ Trapped s t i.core code addr ∧
      (if code = 5 then ∃ ga k, t.events = s.events ++ [⟨0x0107, i.core, [ga, 1, k], extTime s⟩] else t.events = s.events))

/-- A trap while PSTAT.EXL is 1 is a double fault: Pilot halts, no handler is entered, and a PILOT_DOUBLE_FAULT event with CAUSE and EPC goes
to Warden.

RTI has two delay slots. After them the core stands at EPC with PSTAT as EPSTAT holds it, with the delay slots that EPSTAT.BDS counts
still to run before EBT, and with every valid entry of the delayed-write buffer outstanding at its distance.

INTERRUPT_ENTRY: a core at an interruptible point with an interrupt that PSTAT and IMASK let in takes the one of lowest CODE by Table 3-7:
EPC receives the address of the next bundle, EPSTAT the PSTAT with BDS and DWB_COUNT 0; a QUEUE entry latches QDISP; the interrupt taken is no
longer pending. -/
def Obligations.InterruptsReturnsAndDoubleFaults : Prop :=
  (∀ (s : State) (i : Issue), Ready s i.core → (core s i.core).sysFlag R.PSTAT.EXL = true → Holds s i .illegal →
    (core s i.core).dslots = 0 → (core s i.core).task = none → (core s i.core).held = none →
    s.events.length < 256 →
    ∃ t, exec (.nop i) s = .next t ∧ (core t i.core).run = .halted ∧ (core t i.core).sysFld R.CAUSE.CODE = 1 ∧
      (core t i.core).sysFld R.EPC.val = (core s i.core).pc ∧
      t.events = s.events ++ [⟨0x0201, i.core, [1, (core s i.core).pc], extTime s⟩] ∧ ∀ d, d ≠ i.core → core t d = core s d) ∧
  (∀ (s : State) (i : Issue),
    (Straight s i.core → i.slot1 = false → Holds s i .rti → ∃ t, exec (.rti i) s = .next t ∧
      RanOne s t i.core { core s i.core with dslots := 2, land := .ret } 1 []) ∧
    (Ready s i.core → Holds s i .nop → (core s i.core).depth = 0 → (core s i.core).dslots = 1 → (core s i.core).land = .ret →
      (∀ d, d ∈ (core s i.core).delayed → d.left ≤ 1) →
      ∃ t, exec (.nop i) s = .next t ∧
        (let k := core s i.core
         let k' := core t i.core
         OnlyCore s t i.core ∧ (∀ r, k'.sreg r = seenNext k r) ∧ k'.pc = k.sysFld R.EPC.val ∧
           bitsOf (k'.sysWord 0 R.PSTAT.IE.off) 5 0 = k.sysFld R.EPSTAT.PSTAT ∧ k'.dslots = k.sysFld R.EPSTAT.BDS ∧
           k'.land = (if k.sysFld R.EPSTAT.BDS = 0 then .none else .go (k.sysFld R.EBT.val)) ∧
           k'.delayed = (List.range (min 5 (k.sysFld R.EPSTAT.DWB_COUNT))).filterMap (fun j =>
             if k.sysFlag (R.DWB_CTL.VALID j) then
               some ⟨k.sysFld (R.DWB_CTL.DEST j), BitVec.ofNat 32 (k.sysFld (R.DWB_DATA.val j)), k.sysFld (R.DWB_CTL.LEFT j), false⟩
             else none) ∧
           SysBut [R.PSTAT.IE.off, R.CYCLE.val.off] k k'))) ∧
  (∀ (s : State) (c code : Nat), c < 96 → s.Inv → s.time.running = true → coreOn s c = true → dueIrq s c = some code →
    (core s c).run = .running ∨ (core s c).run = .waiti → (core s c).delayed = [] →
    ∃ t, exec (.interruptEntry c) s = .next t ∧ OnlyCore s t c ∧ Entered (core s c) (core t c) code ((core s c).pc % 2 ^ 32) ∧
      (core t c).sysFld R.EPSTAT.BDS = 0 ∧ (core t c).sysFld R.EPSTAT.DWB_COUNT = 0 ∧
      bitOf ((core t c).sysWord 0 R.IPEND.val.off) code = false ∧
      (∀ q, code = 20 → nextDispatch s c = some q → (core t c).sysFld R.QDISP.val = q) ∧ Took (core s c) (core t c) 3 ∧
      SysBut [R.PSTAT.IE.off, R.EPSTAT.PSTAT.off, R.EPC.val.off, R.CAUSE.CODE.off, R.CYCLE.val.off, R.IPEND.val.off, R.QDISP.val.off]
        (core s c) (core t c))

namespace Sys2Proof.Machine

/-! ### The vector engine (R102 to R134) -/

/-- The vector engine of core `c` is sound: no register slice has a parity error, and VL and VSTART hold counts that their fields can. -/
def VecReady (s : State) (c : Nat) : Prop := Straight s c ∧ (core s c).vparity = []

/-- Core `c` has run a vector instruction and gone on: VSTART is 0 (R119), and beside V and K registers and VFLAG nothing else of it has
changed. -/
def RanVector (s t : State) (c n : Nat) : Prop :=
  (∀ d, d ≠ c → core t d = core s d) ∧
    Like { core s c with v := (core t c).v, k := (core t c).k, vparity := (core t c).vparity } (core t c) ∧ PcNext (core s c) (core t c) ∧
    Took (core s c) (core t c) n ∧ (core t c).vparity = [] ∧ (core t c).sysFld R.VSTART.INDEX = 0 ∧
    SysBut [R.CYCLE.val.off, R.VFLAG.SAT.off, R.VSTART.INDEX.off] (core s c) (core t c) ∧
    (core t c).delayed = stillDelayed (core s c)

/-- Element `i` is processed for a register of `count` elements (R117). -/
abbrev Processed (k : Core) (count i : Nat) : Prop := k.sysFld R.VSTART.INDEX ≤ i ∧ i < min (k.sysFld R.VL.COUNT) count

/-- Element `i` is active (R117). -/
abbrev Active (k : Core) (count km i : Nat) : Prop := Processed k count i ∧ (km = 0 ∨ bitOf (k.kreg km) i = true)

/-- Only register `vd` of V has changed: its active elements of width `w` have received `f`, processed ones that are not active are zeroed
under MZ, and the others are unchanged (R118). -/
def WroteElems (k k' : Core) (w km : Nat) (mz : Bool) (vd : Nat) (f : Nat → Nat) : Prop :=
  (∀ r, r ≠ vd → k'.vreg r = k.vreg r) ∧ (∀ r, k'.kreg r = k.kreg r) ∧
    ∀ i, i < 1024 / w →
      (Active k (1024 / w) km i → elemAt (k'.vreg vd) w i = f i % 2 ^ w) ∧
        (Processed k (1024 / w) i → ¬ Active k (1024 / w) km i → elemAt (k'.vreg vd) w i = if mz then 0 else elemAt (k.vreg vd) w i) ∧
        (¬ Processed k (1024 / w) i → elemAt (k'.vreg vd) w i = elemAt (k.vreg vd) w i)

/-- A flag of VFLAG was set, or an active element set it (R108). -/
def FlagJoined (k k' : Core) (f : Fld) (p : Nat → Prop) : Prop := k'.sysFlag f = true ↔ k.sysFlag f = true ∨ ∃ i, p i

/-- The other bits of VFLAG stay. -/
def VflagBut (k k' : Core) (l : List Nat) : Prop := ∀ b, b ∉ l → bitOf (k'.sysWord 0 R.VFLAG.SAT.off) b = bitOf (k.sysWord 0 R.VFLAG.SAT.off) b

/-- An exact value in `w` signed bits, wrapped or clamped, and whether clamping changed it. -/
def wantSigned (w : Nat) (clamp : Bool) (x : Int) : Nat × Bool :=
  let lo : Int := -(2 ^ (w - 1))
  let hi : Int := 2 ^ (w - 1) - 1
  if clamp then ((BitVec.ofInt w (max lo (min x hi))).toNat, x < lo || hi < x) else ((BitVec.ofInt w x).toNat, false)

/-- An exact value clamped to `w` unsigned bits, and whether clamping changed it. -/
def wantUnsigned (w : Nat) (x : Int) : Nat × Bool := ((max 0 (min x (2 ^ w - 1))).toNat, x < 0 || 2 ^ w - 1 < x)

/-- The integer functions of Table 4-4 on elements of `w` bits: the result, and whether it saturated (R108, R112, R113). -/
def wantVInt (f : VIntOp) (w : Nat) (d a b : BitVec w) : Nat × Bool :=
  match f with
  | .add => wantSigned w false (a.toInt + b.toInt)
  | .adds => wantSigned w true (a.toInt + b.toInt)
  | .sub => wantSigned w false (a.toInt - b.toInt)
  | .subs => wantSigned w true (a.toInt - b.toInt)
  | .addus => wantUnsigned w ((a.toNat : Int) + b.toNat)
  | .subus => wantUnsigned w ((a.toNat : Int) - b.toNat)
  | .mul => ((a * b).toNat, false)
  | .mulh => wantSigned w false (a.toInt * b.toInt / 2 ^ w)
  | .mulhu => (a.toNat * b.toNat / 2 ^ w, false)
  | .mulq => wantSigned w false (divHalfEven (a.toInt * b.toInt) (2 ^ (w - 1)))
  | .mulqs => wantSigned w true (divHalfEven (a.toInt * b.toInt) (2 ^ (w - 1)))
  | .mac => ((d + a * b).toNat, false)
  | .macs => wantSigned w true (d.toInt + (a * b).toInt)
  | .min => (if a.slt b then a.toNat else b.toNat, false)
  | .max => (if a.slt b then b.toNat else a.toNat, false)
  | .minu => (min a.toNat b.toNat, false)
  | .maxu => (max a.toNat b.toNat, false)
  | .and => ((a &&& b).toNat, false)
  | .or => ((a ||| b).toNat, false)
  | .xor => ((a ^^^ b).toNat, false)
  | .sll => ((a <<< (b.toNat % w)).toNat, false)
  | .srl => ((a >>> (b.toNat % w)).toNat, false)
  | .sra => ((a.sshiftRight (b.toNat % w)).toNat, false)
  | .srar => wantSigned w false (divHalfEven a.toInt (2 ^ (b.toNat % w)))
  | .abs => wantSigned w false a.toInt.natAbs
  | .abss => wantSigned w true a.toInt.natAbs
  | .mov => (b.toNat, false)

/-- MAC and MACS with TY 1 to 3 on one INT32 element (R113): the packed groups `a` and `b` of `w`-bit elements. -/
def wantGroup (sat : Bool) (w d a b : Nat) : Nat × Bool :=
  wantSigned 32 sat (signed 32 d + ((List.range (32 / w)).map (fun j => signed w (elemAt a w j) * signed w (elemAt b w j))).sum)

/-- The second operand (R110): element `i` of VS2, or the low bits of the S register. -/
def wantSecond (k : Core) (w v2 : Nat) (src : Bool) (i : Nat) : Nat := if src then (k.sreg v2).toNat % 2 ^ w else elemAt (k.vreg v2) w i

/-- The command of an integer function. -/
def vIntRow (f : VIntOp) (i : Issue) (a : VArgs) : Instr :=
  match f with
  | .add => .vadd i a
  | .adds => .vadds i a
  | .sub => .vsub i a
  | .subs => .vsubs i a
  | .addus => .vaddus i a
  | .subus => .vsubus i a
  | .mul => .vmul i a
  | .mulh => .vmulh i a
  | .mulhu => .vmulhu i a
  | .mulq => .vmulq i a
  | .mulqs => .vmulqs i a
  | .mac => .vmac i a
  | .macs => .vmacs i a
  | .min => .vmin i a
  | .max => .vmax i a
  | .minu => .vminu i a
  | .maxu => .vmaxu i a
  | .and => .vand i a
  | .or => .vor i a
  | .xor => .vxor i a
  | .sll => .vsll i a
  | .srl => .vsrl i a
  | .sra => .vsra i a
  | .srar => .vsrar i a
  | .abs => .vabs i a
  | .abss => .vabss i a
  | .mov => .vmov i a

/-- The command of a float function. -/
def vFltRow (f : VFltOp) (i : Issue) (a : VArgs) : Instr :=
  match f with
  | .add => .fadd i a
  | .sub => .fsub i a
  | .mul => .fmul i a
  | .fma => .fma i a
  | .min => .fmin i a
  | .max => .fmax i a
  | .abs => .fabs i a
  | .neg => .fneg i a
  | .rcpe => .frcpe i a
  | .rsqe => .frsqe i a
  | .mov => .fmov i a

/-- The width that an integer function counts its destination in (R113). -/
def vIntWidth (f : VIntOp) (a : VArgs) : Nat := if (f = .mac ∨ f = .macs) ∧ a.ty ≠ 0 then 32 else tyWidth a.ty

/-- Element `i` of an integer function. -/
def wantVIntAt (k : Core) (f : VIntOp) (a : VArgs) (i : Nat) : Nat × Bool :=
  let w := tyWidth a.ty
  if (f = .mac ∨ f = .macs) ∧ a.ty ≠ 0 then
    wantGroup (f = .macs) w (elemAt (k.vreg a.vd) 32 i) (elemAt (k.vreg a.vs1) 32 i) (wantSecond k 32 a.v2 a.src i)
  else
    wantVInt f w (BitVec.ofNat w (elemAt (k.vreg a.vd) w i)) (BitVec.ofNat w (elemAt (k.vreg a.vs1) w i))
      (BitVec.ofNat w (wantSecond k w a.v2 a.src i))

end Sys2Proof.Machine

/-- The 27 integer functions of Table 4-4, for every element type, operand form, mask and active length: each active element of VD receives
the function's result, the elements that are not active keep their value or are zeroed, VFLAG.SAT is set where an active element saturates,
and nothing else changes. -/
def Obligations.VectorIntegerResults : Prop :=
  ∀ (s : State) (i : Issue) (f : VIntOp) (a : VArgs), VecReady s i.core → i.slot1 = true → a.ty < 4 → Holds s i (.vec (.int f a)) →
    ∃ t, exec (vIntRow f i a) s = .next t ∧ t = { s with cores := t.cores } ∧ RanVector s t i.core 1 ∧
      (∀ r, (core t i.core).sreg r = seenNext (core s i.core) r) ∧
      WroteElems (core s i.core) (core t i.core) (vIntWidth f a) a.km a.mz a.vd (fun j => (wantVIntAt (core s i.core) f a j).1) ∧
      FlagJoined (core s i.core) (core t i.core) R.VFLAG.SAT (fun j =>
        Active (core s i.core) (1024 / vIntWidth f a) a.km j ∧ (wantVIntAt (core s i.core) f a j).2 = true) ∧
      VflagBut (core s i.core) (core t i.core) [0]

/-- The 11 float functions of Table 4-4 for FP32, BF16 and FP16: each active element of VD receives the function's result, rounded once
(R107, R114), the elements that are not active keep their value or are zeroed, INVALID, OVERFLOW and UNDERFLOW are set by active elements
alone (R108), and nothing else changes. (The element functions are the model's; the estimates of FRCPE and FRSQE are free values.) -/
def Obligations.VectorFloatResults : Prop :=
  ∀ (s : State) (i : Issue) (f : VFltOp) (a : VArgs), VecReady s i.core → i.slot1 = true → 4 ≤ a.ty → a.ty < 7 →
    Holds s i (.vec (.flt f a)) →
    ∃ t, exec (vFltRow f i a) s = .next t ∧
      (let k := core s i.core
       let k' := core t i.core
       let w := if f = .fma ∧ a.ty ≠ 4 then 32 else tyWidth a.ty
       let g (j : Nat) : Nat × Flags :=
         if f = .fma ∧ a.ty ≠ 4 then pairFma k a j
         else
           vFltElem f (tyFmt a.ty) a.ty (elemAt (k.vreg a.vd) w j) (elemAt (k.vreg a.vs1) w j) (wantSecond k w a.v2 a.src j)
       t = { s with cores := t.cores } ∧ RanVector s t i.core 1 ∧ (∀ r, k'.sreg r = seenNext k r) ∧
         WroteElems k k' w a.km a.mz a.vd (fun j => (g j).1) ∧
         FlagJoined k k' R.VFLAG.INVALID (fun j => Active k (1024 / w) a.km j ∧ (g j).2.invalid = true) ∧
         FlagJoined k k' R.VFLAG.OVERFLOW (fun j => Active k (1024 / w) a.km j ∧ (g j).2.overflow = true) ∧
         FlagJoined k k' R.VFLAG.UNDERFLOW (fun j => Active k (1024 / w) a.km j ∧ (g j).2.underflow = true) ∧ VflagBut k k' [0, 1, 2, 3])

namespace Sys2Proof.Machine

/-! ### Vector memory accesses and the VX operations (R104, R116, R120 to R126) -/

/-- The address of element `j` of a VLD or VST, and whether a 4-bit one is the high nibble (R104, R122). -/
def wantStrided (k : Core) (base stride w j : Nat) : Nat × Bool :=
  ((BitVec.ofInt 32 ((k.sreg base).toNat + (if stride = 0 then ((j * w / 8 : Nat) : Int) else j * (k.sreg stride).toInt))).toNat, j % 2 = 1)

/-- The address of element `j` of a VGATHER or VSCATTER (R123). -/
def wantIndexed (k : Core) (base vi w j : Nat) : Nat × Bool :=
  let x := elemAt (k.vreg (vi + j / 32)) 32 (j % 32)
  if w = 4 then (((k.sreg base).toNat + x / 2) % 2 ^ 32, x % 2 = 1) else (((k.sreg base).toNat + x * (w / 8)) % 2 ^ 32, false)

/-- Every active element of an access lies in sound, own tile memory and is aligned, and no transfer of the core is outstanding. -/
def ElementsReach (s : State) (c w km : Nat) (place : Nat → Nat × Bool) : Prop :=
  (core s c).dmas = [] ∧ ∀ j, Active (core s c) (1024 / w) km j →
    (place j).1 < 0x180000 ∧ (place j).1 % max 1 (w / 8) = 0 ∧ ¬ s.marks.rows.contains (tileAddr c (place j).1 / 128) ∧
      poisoned s (tileAddr c (place j).1) (max 1 (w / 8)) = false

/-- The element that memory holds at a place. -/
def wantElement (s : State) (c w : Nat) (p : Nat × Bool) : Nat :=
  if w = 4 then (memRead s.mem (tileAddr c p.1)).toNat / (if p.2 then 16 else 1) % 16 else wantNumber s (tileAddr c p.1) (w / 8)

/-- Memory after one element has been stored. -/
def wantStored (c w : Nat) (p : Nat × Bool) (v : Nat) (m : Nat → Byte) (x : Nat) : Byte :=
  let loc := tileAddr c p.1
  if w = 4 then
    if x = loc then (if p.2 then BitVec.ofNat 8 ((m x).toNat % 16 + 16 * v) else BitVec.ofNat 8 ((m x).toNat / 16 * 16 + v)) else m x
  else if loc ≤ x ∧ x < loc + w / 8 then BitVec.ofNat 8 (v / 256 ^ (x - loc)) else m x

/-- The active elements of an access in rising order. -/
def activeList (k : Core) (count km : Nat) : List Nat :=
  (List.range (min (k.sysFld R.VL.COUNT) count)).filter (fun j => k.sysFld R.VSTART.INDEX ≤ j && (km = 0 || bitOf (k.kreg km) j))

/-- The cycles of a vector access beyond its bundle's: in precise mode it freezes Pilot (R130). -/
def accessCost (s : State) (c : Nat) : Nat := if (core s c).sysFlag R.VCTL.QUIET then 0 else Sys2Proof.Config.freezeCycles s.fresh

/-- A vector load has put memory's elements into `vd`. -/
def LoadedVector (s t : State) (c w km : Nat) (mz : Bool) (vd : Nat) (place : Nat → Nat × Bool) : Prop :=
  t = { s with cores := t.cores, fresh := if (core s c).sysFlag R.VCTL.QUIET then s.fresh else s.fresh + 1 } ∧
    RanVector s t c (1 + accessCost s c) ∧ (∀ r, (core t c).sreg r = seenNext (core s c) r) ∧
    WroteElems (core s c) (core t c) w km mz vd (fun j => wantElement s c w (place j)) ∧ VflagBut (core s c) (core t c) []

/-- A vector store has put the elements of `vs` into memory, the higher element last, and nowhere else. -/
def StoredVector (s t : State) (c w km vs : Nat) (place : Nat → Nat × Bool) : Prop :=
  t = { s with cores := t.cores, mem := t.mem, fresh := if (core s c).sysFlag R.VCTL.QUIET then s.fresh else s.fresh + 1 } ∧
    RanVector s t c (1 + accessCost s c) ∧ (∀ r, (core t c).sreg r = seenNext (core s c) r) ∧ (core t c).v = (core s c).v ∧
    (core t c).k = (core s c).k ∧ VflagBut (core s c) (core t c) [] ∧
    ∀ x, memRead t.mem x = (activeList (core s c) (1024 / w) km).foldl (fun m j => wantStored c w (place j) (elemAt ((core s c).vreg vs) w j) m)
      (memRead s.mem) x

/-- A vector instruction without a memory access has written V register `vd` alone, by `f` on its processed elements of width `w`; where `f`
gives nothing the element keeps its value. -/
def WroteSome (k k' : Core) (w vd : Nat) (f : Nat → Option Nat) : Prop :=
  (∀ r, r ≠ vd → k'.vreg r = k.vreg r) ∧ (∀ r, k'.kreg r = k.kreg r) ∧
    ∀ j, j < 1024 / w → elemAt (k'.vreg vd) w j = match f j with
      | some v => v % 2 ^ w
      | none => elemAt (k.vreg vd) w j

/-- It has written the mask register `kd` alone. -/
def WroteMask (k k' : Core) (kd : Nat) (v : Nat) : Prop :=
  (∀ r, k'.vreg r = k.vreg r) ∧ ∀ r, k'.kreg r = if r = kd then v % 2 ^ 256 else k.kreg r

/-- It has written the scalar register `rd` alone, for the next bundle (R130). -/
def WroteScalar (s t : State) (c rd : Nat) (v : W32) : Prop :=
  t = { s with cores := t.cores, fresh := s.fresh + 1 } ∧ RanVector s t c (1 + Sys2Proof.Config.freezeCycles s.fresh) ∧
    (∀ r, (core t c).vreg r = (core s c).vreg r) ∧ (∀ r, (core t c).kreg r = (core s c).kreg r) ∧
    ∀ r, (core t c).sreg r = if r = rd ∧ rd ≠ 0 then v else seenNext (core s c) r

/-- The state of a vector instruction that touches registers alone and freezes nothing. -/
def RanQuick (s t : State) (c : Nat) : Prop :=
  t = { s with cores := t.cores } ∧ RanVector s t c 1 ∧ (∀ r, (core t c).sreg r = seenNext (core s c) r)

end Sys2Proof.Machine

/-- VLD and VGATHER fill the active elements of VD from their addresses, VST and VSCATTER store the active elements of VS to theirs, the higher
element last, with the masks, active length and widths of R117, R118, R122 and R123; every other byte of memory and register stays. -/
def Obligations.VectorMemoryAccess : Prop :=
  ∀ (s : State) (i : Issue) (v base x ew km : Nat) (mz : Bool), VecReady s i.core → i.slot1 = true → inTileTask s i.core = false → ew < 4 →
    (Holds s i (.vec (.ld v base x ew km mz)) → ElementsReach s i.core (32 / 2 ^ ew) km (wantStrided (core s i.core) base x (32 / 2 ^ ew)) →
      ∃ t, exec (.vld i v base x ew km mz) s = .next t ∧
        LoadedVector s t i.core (32 / 2 ^ ew) km mz v (wantStrided (core s i.core) base x (32 / 2 ^ ew))) ∧
    (Holds s i (.vec (.gather v base x ew km mz)) →
      ElementsReach s i.core (32 / 2 ^ ew) km (wantIndexed (core s i.core) base x (32 / 2 ^ ew)) →
      ∃ t, exec (.vgather i v base x ew km mz) s = .next t ∧
        LoadedVector s t i.core (32 / 2 ^ ew) km mz v (wantIndexed (core s i.core) base x (32 / 2 ^ ew))) ∧
    (Holds s i (.vec (.st v base x ew km)) → ElementsReach s i.core (32 / 2 ^ ew) km (wantStrided (core s i.core) base x (32 / 2 ^ ew)) →
      ∃ t, exec (.vst i v base x ew km) s = .next t ∧
        StoredVector s t i.core (32 / 2 ^ ew) km v (wantStrided (core s i.core) base x (32 / 2 ^ ew))) ∧
    (Holds s i (.vec (.scatter v base x ew km)) →
      ElementsReach s i.core (32 / 2 ^ ew) km (wantIndexed (core s i.core) base x (32 / 2 ^ ew)) →
      ∃ t, exec (.vscatter i v base x ew km) s = .next t ∧
        StoredVector s t i.core (32 / 2 ^ ew) km v (wantIndexed (core s i.core) base x (32 / 2 ^ ew)))

/-- VCVT converts the N processed elements into the part of VD that R120 names and leaves the rest of VD; VCMP writes the bits of KD that its
processed elements decide and no other; BCAST, SLIDEUP, SLIDEDN and PERM fill the processed elements of VD from RS or from VS1 (R116). -/
def Obligations.ConversionsComparisonsPermutations : Prop :=
  ∀ (s : State) (i : Issue), VecReady s i.core → i.slot1 = true →
    (let k := core s i.core
     (∀ (vd vs1 srcf dstf part : Nat) (sat : Bool) (x y : NFmt), fmtCode srcf = some x → fmtCode dstf = some y →
        vcvtBad srcf dstf part = false → Holds s i (.vec (.cvt vd vs1 srcf dstf sat part)) →
        ∃ t, exec (.vcvt i vd vs1 srcf dstf sat part) s = .next t ∧ RanQuick s t i.core ∧
          (let n := 1024 / max x.width y.width
           let src (j : Nat) := if x.width < y.width then part * n + j else j
           let flt : Bool := match x with
             | .flt _ => true
             | .fix _ _ => false
           WroteSome k (core t i.core) y.width vd (fun e =>
             let j := if y.width < x.width then e - part * n else e
             if (y.width < x.width → part * n ≤ e) ∧ Processed k n j then
               some (nconvert y sat flt (ndecode x (elemAt (k.vreg vs1) x.width (src j)))).1
             else none))) ∧
     (∀ (kd vs1 v2 ty cond : Nat) (src : Bool), ty < 7 → Holds s i (.vec (.cmp kd vs1 v2 src ty cond)) →
        ∃ t, exec (.vcmp i kd vs1 v2 src ty cond) s = .next t ∧ RanQuick s t i.core ∧ (∀ r, (core t i.core).vreg r = k.vreg r) ∧
          (∀ r, r ≠ kd → (core t i.core).kreg r = k.kreg r) ∧
          ∀ j, j < 256 → bitOf ((core t i.core).kreg kd) j =
            if Processed k (1024 / tyWidth ty) j then
              vCompare ty cond (elemAt (k.vreg vs1) (tyWidth ty) j) (wantSecond k (tyWidth ty) v2 src j)
            else bitOf (k.kreg kd) j) ∧
     (∀ (vd vs1 r ew : Nat), ew < 4 →
        (let w := 32 / 2 ^ ew
         let n := (k.sreg r).toNat
         let some' (j : Nat) (v : Option Nat) : Option Nat := if Processed k (1024 / w) j then v else none
         (Holds s i (.vec (.perm .bcast vd 0 r ew)) → ∃ t, exec (.bcast i vd r ew) s = .next t ∧ RanQuick s t i.core ∧
           WroteSome k (core t i.core) w vd (fun j => some' j (some n))) ∧
         (Holds s i (.vec (.perm .slideup vd vs1 r ew)) → ∃ t, exec (.slideup i vd vs1 r ew) s = .next t ∧ RanQuick s t i.core ∧
           WroteSome k (core t i.core) w vd (fun j => some' j (if n ≤ j then some (elemAt (k.vreg vs1) w (j - n)) else none))) ∧
         (Holds s i (.vec (.perm .slidedn vd vs1 r ew)) → ∃ t, exec (.slidedn i vd vs1 r ew) s = .next t ∧ RanQuick s t i.core ∧
           WroteSome k (core t i.core) w vd (fun j => some' j (some (if j + n < 1024 / w then elemAt (k.vreg vs1) w (j + n) else 0)))) ∧
         (Holds s i (.vec (.perm .perm vd vs1 r ew)) → ∃ t, exec (.perm i vd vs1 r ew) s = .next t ∧ RanQuick s t i.core ∧
           WroteSome k (core t i.core) w vd (fun j =>
             some' j (some (elemAt (k.vreg vs1) w (elemAt (k.vreg r) w j % (1024 / w)))))))))

/-- KAND, KOR, KXOR, KANDN and STOK write KD over all 256 bits; KPOPC, KFIRST, KTOS and VMOVS with DIR 0 write an S register for the next bundle;
VMOVS with DIR 1 writes one element of V, whatever VL, VSTART and the masks hold.

VRED reduces the active elements of VS1 into RD, visible to the next bundle: SUM wraps at 32 bits, MIN, MAX, MINU and MAXU give the extreme
element, each with its identity where no element is active; a float reduction runs over the fixed tree of R116. -/
def Obligations.MasksMovesAndReductions : Prop :=
  (∀ (s : State) (i : Issue) (kd ka kb r part v idx ew : Nat), VecReady s i.core → i.slot1 = true → inTileTask s i.core = false → part < 8 →
    ew < 4 →
    (let k := core s i.core
     let w := 32 / 2 ^ ew
     let j := (k.sreg idx).toNat % (1024 / w)
     (Holds s i (.vec (.mask .kand kd ka kb 0 0)) → ∃ t, exec (.kand i kd ka kb) s = .next t ∧ RanQuick s t i.core ∧
       WroteMask k (core t i.core) kd (k.kreg ka &&& k.kreg kb)) ∧
     (Holds s i (.vec (.mask .kor kd ka kb 0 0)) → ∃ t, exec (.kor i kd ka kb) s = .next t ∧ RanQuick s t i.core ∧
       WroteMask k (core t i.core) kd (k.kreg ka ||| k.kreg kb)) ∧
     (Holds s i (.vec (.mask .kxor kd ka kb 0 0)) → ∃ t, exec (.kxor i kd ka kb) s = .next t ∧ RanQuick s t i.core ∧
       WroteMask k (core t i.core) kd (k.kreg ka ^^^ k.kreg kb)) ∧
     (Holds s i (.vec (.mask .kandn kd ka kb 0 0)) → ∃ t, exec (.kandn i kd ka kb) s = .next t ∧ RanQuick s t i.core ∧
       ∀ b, b < 256 → bitOf ((core t i.core).kreg kd) b = (bitOf (k.kreg ka) b && !bitOf (k.kreg kb) b)) ∧
     (Holds s i (.vec (.mask .stok kd 0 0 r part)) → ∃ t, exec (.stok i kd r part) s = .next t ∧ RanQuick s t i.core ∧
       ∀ b, b < 256 → bitOf ((core t i.core).kreg kd) b =
         if b / 32 = part then bitOf (k.sreg r).toNat (b % 32) else bitOf (k.kreg kd) b) ∧
     (Holds s i (.vec (.mask .kpopc 0 ka 0 r 0)) → ∃ t, exec (.kpopc i ka r) s = .next t ∧
       WroteScalar s t i.core r (BitVec.ofNat 32 (((List.range (min (k.sysFld R.VL.COUNT) 256)).filter (bitOf (k.kreg ka))).length))) ∧
     (Holds s i (.vec (.mask .kfirst 0 ka 0 r 0)) → ∃ t, exec (.kfirst i ka r) s = .next t ∧
       (∃ n : W32, WroteScalar s t i.core r n ∧
         ((n = -1 ∧ ∀ b, b < 256 → bitOf (k.kreg ka) b = false) ∨
           (n.toNat < 256 ∧ bitOf (k.kreg ka) n.toNat = true ∧ ∀ b, b < n.toNat → bitOf (k.kreg ka) b = false)))) ∧
     (Holds s i (.vec (.mask .ktos 0 ka 0 r part)) → ∃ t, exec (.ktos i ka r part) s = .next t ∧
       WroteScalar s t i.core r (BitVec.ofNat 32 (k.kreg ka / 2 ^ (32 * part)))) ∧
     (Holds s i (.vec (.movs v r idx ew false)) → ∃ t, exec (.vmovs i v r idx ew false) s = .next t ∧
       WroteScalar s t i.core r ((BitVec.ofNat w (elemAt (k.vreg v) w j)).signExtend 32)) ∧
     (Holds s i (.vec (.movs v r idx ew true)) → ∃ t, exec (.vmovs i v r idx ew true) s = .next t ∧ RanQuick s t i.core ∧
       WroteSome k (core t i.core) w v (fun e => if e = j then some (k.sreg r).toNat else none)))) ∧
  (∀ (s : State) (i : Issue) (rd vs1 km ty op : Nat), VecReady s i.core → i.slot1 = true → inTileTask s i.core = false →
    Holds s i (.vec (.red rd vs1 km ty op)) →
    ∃ t, exec (.vred i rd vs1 km ty op) s = .next t ∧
      (let k := core s i.core
       let w := tyWidth ty
       let act := activeList k (1024 / w) km
       let sx := act.map (fun j => signed w (elemAt (k.vreg vs1) w j))
       let zx := act.map (fun j => elemAt (k.vreg vs1) w j)
       let lo : Int := -(2 ^ (w - 1))
       let hi : Int := 2 ^ (w - 1) - 1
       (ty < 4 → op = 0 → WroteScalar s t i.core rd (BitVec.ofInt 32 sx.sum)) ∧
         (ty < 4 → op = 1 → WroteScalar s t i.core rd (BitVec.ofInt 32 (sx.foldl min hi))) ∧
         (ty < 4 → op = 2 → WroteScalar s t i.core rd (BitVec.ofInt 32 (sx.foldl max lo))) ∧
         (ty < 4 → op = 3 → WroteScalar s t i.core rd (BitVec.ofNat 32 (zx.foldl min (2 ^ w - 1)))) ∧
         (ty < 4 → op = 4 → WroteScalar s t i.core rd (BitVec.ofNat 32 (zx.foldl max 0))) ∧
         (4 ≤ ty → ty < 7 →
           (let l := ((List.range (min (k.sysFld R.VL.COUNT) (1024 / w))).filter (fun j => k.sysFld R.VSTART.INDEX ≤ j)).map (fun j =>
              if km = 0 || bitOf (k.kreg km) j then redElem ty op (elemAt (k.vreg vs1) w j) else redIdentity ty op)
            WroteScalar s t i.core rd (BitVec.ofNat 32 (redTree (redStep ty op) 9
              (l ++ List.replicate (powerUp l.length - l.length) (redIdentity ty op)) Flags.zero).1)))))

namespace Sys2Proof.Machine

/-! ### Engine-issue operations (R94, R140, R184, R224, R228, R239, R240) -/

/-- Core `c` has run an engine-issue operation: RD holds its status for the next bundle, and the core has gone on after a freeze. `base` is the
core before with what the operation has issued, and `l` lists further system registers that it changes. -/
def EngineDone (s t : State) (c rd status : Nat) (base : Core) (l : List Nat) : Prop :=
  (∀ d, d ≠ c → core t d = core s d) ∧ Like base (core t c) ∧ PcNext (core s c) (core t c) ∧
    Took (core s c) (core t c) (1 + Sys2Proof.Config.freezeCycles s.fresh) ∧ SysBut (R.CYCLE.val.off :: l) (core s c) (core t c) ∧
    (∀ r, (core t c).sreg r = if r = rd ∧ rd ≠ 0 then BitVec.ofNat 32 status else seenNext (core s c) r) ∧
    (core t c).delayed = stillDelayed (core s c)

/-- The 64 or 128 bytes at an address of the core's own tile memory, whole, sound and in no retired row. -/
def TileBlock (s : State) (c ea n : Nat) : Prop :=
  ea % n = 0 ∧ ea + n ≤ 0x180000 ∧ poisoned s (tileAddr c ea) n = false ∧ ¬ s.marks.rows.contains (tileAddr c ea / 128)

/-- Those bytes. -/
def tileBytes (s : State) (c ea n : Nat) : List Byte := (List.range n).map (fun j => memRead s.mem (tileAddr c ea + j))

/-- An object's value with one waiter's need met (R240). -/
def wantGrant (o : SyncObj) (n : Nat) : Option Nat :=
  if o.type = 0 then (if n ≤ o.value then some (o.value - n) else none)
  else if o.value = 0 then none else if o.type = 2 then some 0 else some o.value

end Sys2Proof.Machine

/-- LRPASS with a sound descriptor on a free row set copies it as the running pass, or as the pending one behind a running pass, with status
0 (ACCEPTED), and with both taken gives status 1; DMA and IMLOAD with a sound descriptor copy it as the youngest outstanding transfer with
status 0, and with 8 outstanding give status 1; a bad descriptor gives status 2 and changes nothing else (R140, R144, R184). -/
def Obligations.LanePassAndDmaIssue : Prop :=
  ∀ (s : State) (i : Issue) (row rs1 rs2 rd : Nat), Straight s i.core → i.slot1 = true → inTileTask s i.core = false →
    (let c := i.core
     let k := core s c
     let ea := (k.sreg rs1).toNat
     let tag := (k.sreg rs2).toNat
     let p : Pass := ⟨tileBytes s c ea 128, tag, 0, false, [], false⟩
     let d := tileBytes s c ea 64
     (k.dmas = [] → TileBlock s c ea 128 → row < 4 → Holds s i (.eng .lrpass row rs1 rs2 rd) → ∃ t, exec (.lrpass i row rs1 rs2 rd) s = .next t ∧
       t = { s with cores := t.cores, fresh := s.fresh + 1 } ∧
       (if p.bad then EngineDone s t c rd 2 k []
        else if p.rows.head? ≠ some row then EngineDone s t c rd 3 k []
        else if p.rows.any (fun r => k.sysFlag (R.LRSTAT.ABORTED r)) then EngineDone s t c rd 4 k []
        else if k.lanes.pending.isSome then EngineDone s t c rd 1 k []
        else if k.lanes.running.isSome then
          EngineDone s t c rd 0 { k with lanes := { k.lanes with pending := some p } } ((List.range 4).map (fun r => (R.LRSTAT.STATE r).off))
        else
          EngineDone s t c rd 0 { k with lanes := { k.lanes with running := some p } } ((List.range 4).map (fun r => (R.LRSTAT.STATE r).off)))) ∧
     (holdsOwn s c ea 64 = false → TileBlock s c ea 64 → Holds s i (.eng .dma 0 rs1 rs2 rd) → ∃ t, exec (.dma i rs1 rs2 rd) s = .next t ∧
       t = { s with cores := t.cores, fresh := s.fresh + 1 } ∧
       (if dmaBad s d false then EngineDone s t c rd 2 k []
        else if 8 ≤ k.dmas.length then EngineDone s t c rd 1 k []
        else EngineDone s t c rd 0 { k with dmas := k.dmas ++ [⟨d, tag % 2 ^ 16, false⟩] } [])) ∧
     (holdsOwn s c ea 64 = false → TileBlock s c ea 64 → Holds s i (.eng .imload 0 rs1 rs2 rd) → ∃ t, exec (.imload i rs1 rs2 rd) s = .next t ∧
       t = { s with cores := t.cores, fresh := s.fresh + 1 } ∧
       (if dmaBad s d true then EngineDone s t c rd 2 k []
        else if 8 ≤ k.dmas.length then EngineDone s t c rd 1 k []
        else EngineDone s t c rd 0 { k with dmas := k.dmas ++ [⟨d, tag % 2 ^ 16, true⟩] } [])))

/-- QSEND to a queue of the own chip hands the queue unit the 64 bytes at RS1 with status 0. QRECV on a queue that the core consumes and that is
empty gives status 1 with TIMEOUT 0, and otherwise blocks Pilot at its bundle. SSIG adds its count to a semaphore that nobody waits for.
SWAIT with TIMEOUT 0 takes a grant that can be given, with status 0, or gives status 3; with another TIMEOUT, where no grant can be given,
it queues behind the waiters and blocks Pilot (R224, R228, R239, R240). -/
def Obligations.QueueAndSyncOperations : Prop :=
  ∀ (s : State) (i : Issue) (rs1 rs2 rd : Nat), Straight s i.core → i.slot1 = true → inTileTask s i.core = false →
    (core s i.core).dmas = [] →
    (let c := i.core
     let k := core s c
     let a := (k.sreg rs1).toNat
     let b := (k.sreg rs2).toNat
     let q := b % 1024
     let o := syncObj s (a % 16384)
     let n := max 1 (b % 256)
     let same (t : State) : State := { s with cores := t.cores, fresh := s.fresh + 1 }
     (TileBlock s c a 64 → bitOf b 14 = true → bitOf b 15 = false → Holds s i (.eng .qsend 0 rs1 rs2 rd) →
       ∃ t, exec (.qsend i rs1 rs2 rd) s = .next t ∧
        t = { same t with queues := { s.queues with ringIn := s.queues.ringIn ++ [⟨chipId s, c, q, none, tileBytes s c a 64⟩] } } ∧
        EngineDone s t c rd 0 k []) ∧
     (TileBlock s c a 64 → k.sysFlag R.CLAIM.BORROWED = false → fld s (R.QCFG.CONSUMER q) = c → fld s (R.QCFG.MODE q) = 2 →
       fld s (R.QSTAT.COUNT q) = 0 → Holds s i (.eng .qrecv 0 rs1 rs2 rd) →
       (b / 2 ^ 16 = 0 → ∃ t, exec (.qrecv i rs1 rs2 rd) s = .next t ∧ t = same t ∧ EngineDone s t c rd 1 k []) ∧
         (b / 2 ^ 16 ≠ 0 → k.delayed = [] → ∃ t, exec (.qrecv i rs1 rs2 rd) s = .next t ∧ OnlyCore s t c ∧
           core t c = { k with run := .recv q a rd (if b / 2 ^ 16 = 0xFFFF then none else some ((nowNs s + 1000 * (b / 2 ^ 16)) % 2 ^ 32)) })) ∧
     (bitOf a 18 = true → o.en = true → o.type = 0 → o.waiters = [] → b < 2 ^ 32 → o.value + b ≤ 0xFFFFFFFF →
       Holds s i (.eng .ssig 0 rs1 rs2 rd) →
       ∃ t, exec (.ssig i rs1 rs2 rd) s = .next t ∧
         (∀ m, syncObj t m = if m = a % 16384 then { o with value := o.value + b } else syncObj s m) ∧
         t = { same t with syncs := t.syncs } ∧ EngineDone s t c rd 0 k []) ∧
     (bitOf a 18 = true → o.en = true → b / 2 ^ 16 = 0 → Holds s i (.eng .swait 0 rs1 rs2 rd) →
       ∃ t, exec (.swait i rs1 rs2 rd) s = .next t ∧ t = { same t with syncs := t.syncs } ∧
         (match o.waiters, wantGrant o n with
          | [], some v => EngineDone s t c rd 0 k [] ∧ ∀ m, syncObj t m = if m = a % 16384 then { o with value := v } else syncObj s m
          | _, _ => EngineDone s t c rd 3 k [] ∧ t.syncs = s.syncs)) ∧
     (bitOf a 18 = true → o.en = true → b / 2 ^ 16 ≠ 0 → bitOf b 8 = false → k.delayed = [] → o.waiters ≠ [] ∨ wantGrant o n = none →
       waiterCount s < 1024 → Holds s i (.eng .swait 0 rs1 rs2 rd) →
       ∃ t, exec (.swait i rs1 rs2 rd) s = .next t ∧ t = { s with cores := t.cores, syncs := t.syncs } ∧ (∀ d, d ≠ c → core t d = core s d) ∧
         core t c = { k with
           run := .wait (a % 16384) (chipId s) n rd (if b / 2 ^ 16 = 0xFFFF then none else some ((nowNs s + 1000 * (b / 2 ^ 16)) % 2 ^ 32)) } ∧
         ∀ m, syncObj t m = if m = a % 16384 then { o with waiters := o.waiters ++ [.pilot c n] } else syncObj s m))

namespace Sys2Proof.Machine

/-! ### Lane rows and DMA (R136 to R169, R186) -/

/-- Beside its lane rows and the system registers listed nothing of core `c` has changed, and no other core has. -/
def LanesOnly (s t : State) (c : Nat) (l : List Nat) : Prop :=
  (∀ d, d ≠ c → core t d = core s d) ∧ core t c = { core s c with lanes := (core t c).lanes, sys := (core t c).sys } ∧
    SysBut l (core s c) (core t c)

/-- The LRSTAT registers. -/
def lrstatRegs : List Nat := (List.range 4).map (fun r => (R.LRSTAT.STATE r).off)

/-- A range of the core's own tile memory that is whole, sound and in no retired row. -/
def TileRange (s : State) (c ea n : Nat) : Prop :=
  ea + n ≤ 0x180000 ∧ poisoned s (tileAddr c ea) n = false ∧
    ∀ r, r ∈ s.marks.rows → tileAddr c ea + n ≤ 128 * r ∨ 128 * r + 128 ≤ tileAddr c ea

end Sys2Proof.Machine

/-- WEIGHT_FILL: each row of the pass that is next to start receives its 8192 words of weights from tile memory in its shadow bank, and the
pass counts as filled (R147).

PASS_START: the rows of a filled pass swap their shadow banks for their active ones, clear their accumulators under ACC_CLEAR, and the pass
has started, while no emit holds the holding registers of its rows (R148, R149). -/
def Obligations.WeightsReachTheLanes : Prop :=
  (∀ (s : State) (c : Nat) (p : Pass), c < 96 → s.Inv → (core s c).lanes.running = some p → p.started = false → p.filled = [] →
    p.poisoned = false → (core s c).lanes.stop = false → (∀ r, r ∈ p.rows → TileRange s c (p.wtEa r) 32768) →
    ∃ t, exec (.weightFill c) s = .next t ∧ t = { s with cores := t.cores } ∧ LanesOnly s t c [] ∧
      (core t c).lanes = { (core s c).lanes with shadow := (core t c).lanes.shadow, running := some { p with filled := p.rows } } ∧
      ∀ r j, r ∈ p.rows → j < 8192 →
        tabGet (core t c).lanes.shadow (8192 * r + j) 0 = BitVec.ofNat 32 (wantNumber s (tileAddr c (p.wtEa r + 4 * j)) 4)) ∧
  (∀ (s : State) (c : Nat) (p : Pass), c < 96 → s.Inv → (core s c).lanes.running = some p → p.started = false → p.poisoned = false →
    (core s c).lanes.stop = false → (∀ r, r ∈ p.rows → r ∈ p.filled) →
    (∀ q, (core s c).lanes.drain = some q → q.accEmit = true → ∀ r, r ∈ p.rows → r ∉ q.rows) →
    ∃ t, exec (.passStart c) s = .next t ∧ t = { s with cores := t.cores } ∧ LanesOnly s t c lrstatRegs ∧
      (core t c).lanes.running = some { p with started := true } ∧
      (∀ r j, r ∈ p.rows → j < 8192 → tabFind (core t c).lanes.active (8192 * r + j) =
        (((core s c).lanes.shadow.filter (fun e => e.1 = 8192 * r + j)).getLast?).map Prod.snd) ∧
      (p.accClear = true → ∀ r j u, r ∈ p.rows → j < 64 → u < 16 → (core t c).lanes.accAt r j u = 0 ∧ (core t c).lanes.saAt r u = 0) ∧
      (p.accClear = false → (core t c).lanes.acc = (core s c).lanes.acc))

/-- AVENUE_ISSUE: every lane of the rows of the running pass takes the next activation word into its accumulator of the word's token, and the
pass counts the word (R136 to R138, R143).

ROW_STOP, with no pass on the rows: the rows stop and write a context each to bank 11 (R163 to R165).

PASS_COMPLETE: a pass that has left the Avenue puts the output of each of its rows at the row's output address (here of one row and one
token), LRTAG names it, and LANE_ROW is raised where the descriptor asks (R151, R153).

PASS_ABORT for a weight-parity error: both passes end, the rows of the running pass show ABORTED with CAUSE 1, LRTAG names it, LANE_ROW is
raised, the task will end ABORTED, and the error is counted and reported (R169). -/
def Obligations.LanesComputeAndPassesEnd : Prop :=
  (∀ (s : State) (c : Nat) (p : Pass), c < 96 → s.Inv → (core s c).lanes.running = some p → p.started = true → p.next + 1 < p.words →
    (core s c).lanes.stopped = false → ((core s c).lanes.stop = true → p.next % 64 ≠ 0) →
    (let ea := p.actEa + p.next % p.tokens * p.actStride + p.next / p.tokens * actBytes p.fmt
     TileRange s c ea (actBytes p.fmt) → (p.zpSub = true → p.corrEn = true → ∀ r, r ∈ p.rows → TileRange s c (p.corrEa r) 512) →
     ∃ t, exec (.avenueIssue c) s = .next t ∧ t = { s with cores := t.cores } ∧ LanesOnly s t c lrstatRegs ∧
       (core t c).lanes.running = some { p with next := p.next + 1 } ∧
       ∀ r j u, r < 4 → j < 64 → u < 16 → (core t c).lanes.accAt r j u =
         if r ∈ p.rows ∧ u = p.next % p.tokens then
           macWord p (corrEntry s c p r j).2 ((core s c).lanes.accAt r j u) (wantNumber s (tileAddr c ea) (actBytes p.fmt))
             (weightWord (core s c).lanes.active p.fmt r j (p.next / p.tokens)) % 2 ^ 32
         else (core s c).lanes.accAt r j u)) ∧
  (∀ (s : State) (c : Nat), c < 96 → s.Inv → (core s c).lanes.stop = true → (core s c).lanes.stopped = false →
    (core s c).lanes.running = none → (core s c).lanes.drain = none →
    ∃ t, exec (.rowStop c) s = .next t ∧ t = { s with cores := t.cores, mem := t.mem, marks := t.marks } ∧ LanesOnly s t c lrstatRegs ∧
      (core t c).lanes.stopped = true ∧ (∀ r, r < 4 → (core t c).sysFld (R.LRSTAT.STATE r) = 3) ∧
      (∀ r j, r < 4 → j < 0x114C → memRead t.mem (tileAddr c (0x160000 + 0x2000 * r + j)) = (rowContext (core s c).lanes r).getD j 0) ∧
      ∀ x, x < tileAddr c 0x160000 ∨ tileAddr c 0x168000 ≤ x → memRead t.mem x = memRead s.mem x) ∧
  (∀ (s : State) (c r : Nat) (p : Pass), c < 96 → s.Inv → (core s c).lanes.drain = some p → (core s c).lanes.running = none →
    p.rows = [r] → p.tokens = 1 → p.doneEn = false → p.tag < 2 ^ 16 →
    (let out := (emitToken s c p r 0).1
     (p.accEmit = true → emitErr s c p r = none ∧ p.outEa r + out.length ≤ 0x180000 ∧
       ∀ q, q ∈ s.marks.rows → tileAddr c (p.outEa r) + out.length ≤ 128 * q ∨ 128 * q + 128 ≤ tileAddr c (p.outEa r)) →
     ∃ t, exec (.passComplete c) s = .next t ∧ t = { s with cores := t.cores, mem := t.mem, marks := t.marks } ∧
       LanesOnly s t c (R.LRTAG.val.off :: R.IPEND.val.off :: lrstatRegs) ∧ (core t c).lanes.drain = none ∧
       (core t c).sysFld R.LRTAG.val = p.tag ∧
       bitOf ((core t c).sysWord 0 R.IPEND.val.off) 21 = (bitOf ((core s c).sysWord 0 R.IPEND.val.off) 21 || p.irq) ∧
       ∀ x, memRead t.mem x =
         if p.accEmit = true ∧ tileAddr c (p.outEa r) ≤ x ∧ x < tileAddr c (p.outEa r) + out.length then out.getD (x - tileAddr c (p.outEa r)) 0
         else memRead s.mem x)) ∧
  (∀ (s : State) (c row lane : Nat) (p : Pass), c < 96 → s.Inv → (core s c).lanes.running = some p → p.tag < 2 ^ 16 → s.events.length < 256 →
    ∃ t, exec (.passAbort c 1 row lane) s = .next t ∧
      t = { s with cores := t.cores, fresh := s.fresh + 1, events := t.events, regs := t.regs } ∧ RegsBut [R.INT_WPARITY.val.off] s t ∧
      (∀ d, d ≠ c → core t d = core s d) ∧ SysBut (R.LRTAG.val.off :: R.IPEND.val.off :: lrstatRegs) (core s c) (core t c) ∧
      (core t c).lanes.running = none ∧ (core t c).lanes.pending = none ∧ (core t c).lanes.drain = none ∧
      (core t c).sysFld R.LRTAG.val = p.tag ∧ bitOf ((core t c).sysWord 0 R.IPEND.val.off) 21 = true ∧
      (∀ r, r ∈ p.rows → (core t c).sysFlag (R.LRSTAT.ABORTED r) = true ∧ (core t c).sysFld (R.LRSTAT.CAUSE r) = 1) ∧
      (core t c).abortCause = some ((core s c).abortCause.getD 33) ∧
      t.events.map (fun e => (e.code, e.agent, e.args)) = s.events.map (fun e => (e.code, e.agent, e.args)) ++ [(0x0207, c, [c, row, lane, p.tag])])

/-- DMA_COMPLETE: the oldest transfer of a core, here of one row inside its own tile memory, moves its bytes and is no longer outstanding; every
other byte stays (R185, R186). -/
def Obligations.DmaCompleteMovesBytes : Prop :=
  ∀ (s : State) (c src dst n : Nat) (o : DmaOp), c < 96 → s.Inv → (core s c).dmas.head? = some o → dmaKind o.desc = 0 → dmaRows o.desc = 1 →
    dmaRowBytes o.desc = n → dmaSrc s o.desc = ownGa s (tileAddr c src) → dmaDst s o.desc = ownGa s (tileAddr c dst) →
    TileRange s c src n → dst + n ≤ 0x180000 →
    (∀ r, r ∈ s.marks.rows → tileAddr c dst + n ≤ 128 * r ∨ 128 * r + 128 ≤ tileAddr c dst) → (src + n ≤ dst ∨ dst + n ≤ src) →
    df o.desc 0x20 2 15 15 = 0 →
    ∃ t, exec (.dmaComplete c 0) s = .next t ∧ t = { s with cores := t.cores, mem := t.mem, marks := t.marks } ∧
      (∀ d, d ≠ c → core t d = core s d) ∧ core t c = { core s c with dmas := (core s c).dmas.tail } ∧
      ∀ x, memRead t.mem x =
        if tileAddr c dst ≤ x ∧ x < tileAddr c dst + n then memRead s.mem (tileAddr c src + (x - tileAddr c dst)) else memRead s.mem x

namespace Sys2Proof.Machine

/-! ### Coherence (R198 to R206, R421, R425) -/

/-- What of a packet the sender decides: destination, type, agent, address, inline bytes and data. -/
def pktView (p : Packet) : Nat × Nat × Nat × Nat × List Byte × List Byte := (p.dst, p.ptype, p.agent, p.ga, p.inl, p.data)

/-- These packets, in this order, have joined the packets that wait to leave the chip; the rest of the fabric stays but for the numbers
that packets take. -/
def Sent (s t : State) (l : List (Nat × Nat × Nat × Nat × List Byte × List Byte)) : Prop :=
  t.fabric = { s.fabric with waiting := t.fabric.waiting, nextSeq := t.fabric.nextSeq } ∧
    t.fabric.waiting.map pktView = s.fabric.waiting.map pktView ++ l

/-- An event has been reported (R554). -/
def Reported (s t : State) (code agent : Nat) (args : List Nat) : Prop := t.events = s.events ++ [⟨code, agent, args, extTime s⟩]

/-- The row of a request at the home. -/
def requestRow (kind : Sys2Proof.ReqKind) (line chip agent : Nat) (data : List Byte) : Instr :=
  match kind with
  | .rdX => .rdX line chip agent none
  | .upg => .upg line chip agent none
  | .wrl => .wrl line chip agent data none
  | _ => .rdS line chip agent none

/-- The 128 bytes of a home line. -/
def lineBytes (s : State) (line : Nat) : List Byte := (List.range 128).map (fun j => memRead s.mem (128 * line + j))

/-- No request for the line is being served or waits. -/
def LineFree (s : State) (line : Nat) : Prop :=
  tabFind s.coh.serving line = none ∧ s.coh.queue.any (fun q => q.line = line) = false

/-- The line is usable LP5X, in no retired page. -/
def LineOpen (s : State) (line : Nat) : Prop := 128 * line < lp5xEnd ∧ s.marks.pages.contains (line / 32) = false

/-- The snoops that a request must wait for: every other sharer is invalidated before a write; the chip that holds the line exclusively
forwards it, or gives it up for a whole-line write. -/
def wantSnoops (s : State) (line chip : Nat) (kind : Sys2Proof.ReqKind) : List (Nat × Nat) :=
  match tabFind s.coh.dir line with
  | none => []
  | some (.shared l) => if kind = .rdS then [] else (l.filter (· ≠ chip)).map (fun c => (c, 0x10))
  | some (.excl o) => if o = chip then [] else [(o, if kind = .rdS then 0x11 else if kind = .wrl then 0x10 else 0x12)]

/-- The directory entry that a granted read leaves, and the message that carries its data: a line that is shared is shared with one more
chip (DATA_S); a line that is not shared goes to its first reader in E (DATA_E), and to one that asks for ownership in M (DATA_M). -/
def wantEntry (s : State) (line chip : Nat) (kind : Sys2Proof.ReqKind) : DirEnt × Nat :=
  match kind, tabFind s.coh.dir line with
  | .rdS, some (.shared l) => (.shared (setAdd l chip), 0x20)
  | .rdS, _ => (.excl chip, 0x21)
  | _, _ => (.excl chip, 0x22)

/-- Memory after 128 bytes have been written to a home line. -/
def LineWritten (s t : State) (line : Nat) (data : List Byte) : Prop :=
  ∀ x, memRead t.mem x = if 128 * line ≤ x ∧ x < 128 * line + 128 then data.getD (x - 128 * line) 0 else memRead s.mem x

/-- The row of a snoop. -/
def snoopRow : Snoop → Instr
  | .inv line home => .snpInv line home
  | .fwdS line home dest => .snpFwdS line home dest
  | .fwdX line home dest => .snpFwdX line home dest

/-- The row that brings line data. -/
def dataRowOf (st : LineSt) (line : Nat) (data : List Byte) (poison : Bool) : Instr :=
  match st with
  | .s => .dataS line data poison
  | .e => .dataE line data poison
  | .m => .dataM line data poison

end Sys2Proof.Machine

/-- RD_S, RD_X, UPG and WRL of another chip at the home (R199, R200, R202 to R204). Where no other chip's copy conflicts, a read is granted with
the line's data and its directory entry, and a whole-line write is performed, acknowledged with WB_ACK, and leaves no entry. Where copies
conflict, each is snooped and the request is served once they have answered. Behind a request for the same line it waits, and where 32 wait for
the line it is refused with RETRY, which is counted, and its requester is marked as starving. That a first reader receives E is the model's
choice (log entry 56). -/
def Obligations.HomeServesRequests : Prop :=
  ∀ (s : State) (kind : Sys2Proof.ReqKind) (line chip agent : Nat) (data : List Byte), s.Inv → LineOpen s line → chip ≠ chipId s →
    (kind = .rdS ∨ kind = .rdX ∨ kind = .upg ∨ kind = .wrl) → data.length = 128 →
    (let row := requestRow kind line chip agent data
     let r : HomeReq := ⟨kind, line, chip, agent, if kind = .wrl then data else []⟩
     let won := tabSet s.coh.lastWin (sliceOf line) (128 * chip + agent)
     let ga := 128 * (chipId s * 2 ^ 37 + line)
     let free := LineFree s line ∧ (s.coh.dir.length < 262144 ∨ (tabFind s.coh.dir line).isSome)
     let snoops := wantSnoops s line chip kind
     (free → snoops = [] → kind ≠ .wrl → ∃ t, exec row s = .next t ∧ t = { s with coh := t.coh, fabric := t.fabric } ∧
       t.coh = { s.coh with dir := tabSet s.coh.dir line (wantEntry s line chip kind).1, lastWin := won } ∧
       Sent s t [(chip, (wantEntry s line chip kind).2, agent, ga, [BitVec.ofNat 8 (num (poisoned s (128 * line) 128))], lineBytes s line)]) ∧
     (free → snoops = [] → kind = .wrl → ∃ t, exec row s = .next t ∧
       t = { s with coh := t.coh, fabric := t.fabric, mem := t.mem, marks := t.marks } ∧ LineWritten s t line data ∧
       t.marks = { s.marks with poisonLines := s.marks.poisonLines.filter (· ≠ line) } ∧
       t.coh = { s.coh with dir := tabErase s.coh.dir line, lastWin := won } ∧ Sent s t [(chip, 0x25, agent, ga, [], [])]) ∧
     (free → snoops ≠ [] → ∃ t, exec row s = .next t ∧ t = { s with coh := t.coh, fabric := t.fabric } ∧
       t.coh = { s.coh with serving := tabSet s.coh.serving line ⟨r, snoops.map Prod.fst⟩, lastWin := won } ∧
       Sent s t (snoops.map (fun p => (p.1, p.2, agent, ga, [BitVec.ofNat 8 chip], [])))) ∧
     (¬ LineFree s line → (s.coh.queue.filter (fun q => q.line = line)).length < 32 →
       (s.coh.queue.filter (fun q => sliceOf q.line = sliceOf line)).length < 64 → s.coh.starving = [] →
       ∃ t, exec row s = .next t ∧ t = { s with coh := { s.coh with queue := s.coh.queue ++ [r], lastWin := won } }) ∧
     (¬ LineFree s line → 32 ≤ (s.coh.queue.filter (fun q => q.line = line)).length → s.coh.starving = [] →
       ∃ t, exec row s = .next t ∧ t = { s with coh := t.coh, fabric := t.fabric, regs := t.regs } ∧
         t.coh = { s.coh with starving := [(sliceOf line, 128 * chip + agent)], lastWin := won } ∧
         RegsBut [R.HOME_RETRY_COUNT.val.off] s t ∧
         fld t R.HOME_RETRY_COUNT.val = (fld s R.HOME_RETRY_COUNT.val + 1) % 2 ^ 32 ∧ Sent s t [(chip, 0x27, agent, ga, [], [])]))

/-- WB and EVICT_E end an exclusive entry, WB with its data and poison in LP5X and WB_ACK to the sender; INV_ACK takes a chip out of those a
request waits for and, as the last, lets the home grant it with its own data, which an M copy has brought with its poison; FWD_ACK, as the last, leaves the
entry that the forward made; WB_PENDING keeps the chip among those awaited (R198, R199, R203, R206). -/
def Obligations.HomeLearnsOfCopies : Prop :=
  ∀ (s : State) (line chip : Nat) (data : List Byte) (poison : Bool), s.Inv → s.posted = [] → 128 * line < lp5xEnd → data.length = 128 →
    (let ga := 128 * (chipId s * 2 ^ 37 + line)
     let marked (t : State) : Prop := t.marks = { s.marks with poisonLines := t.marks.poisonLines }
     (tabFind s.coh.serving line = none → tabFind s.coh.dir line = some (.excl chip) →
       (∃ t, exec (.wb line chip data poison) s = .next t ∧
         t = { s with coh := t.coh, fabric := t.fabric, mem := t.mem, marks := t.marks } ∧ LineWritten s t line data ∧
         marked t ∧ (∀ l, l ∈ t.marks.poisonLines ↔ if l = line then poison = true else l ∈ s.marks.poisonLines) ∧
         t.coh = { s.coh with dir := tabErase s.coh.dir line } ∧ Sent s t [(chip, 0x25, 96, ga, [], [])]) ∧
       (∃ t, exec (.evictE line chip) s = .next t ∧ t = { s with coh := { s.coh with dir := tabErase s.coh.dir line } })) ∧
     exec (.wbPending line chip) s = .next s ∧
     (∀ x d, tabFind s.coh.serving line = some x → chip ∈ x.await → d ∈ x.await → d ≠ chip →
       ∃ t, exec (.invAck line chip none poison) s = .next t ∧
         t = { s with coh := { s.coh with serving := tabSet s.coh.serving line { x with await := x.await.filter (· ≠ chip) } } }) ∧
     (∀ x r agent, tabFind s.coh.serving line = some x → x.await = [chip] → s.coh.queue = [] → r ≠ chipId s →
       (x.req = ⟨.rdX, line, r, agent, []⟩ ∨ x.req = ⟨.upg, line, r, agent, []⟩) →
       (∃ t, exec (.invAck line chip (some data) poison) s = .next t ∧
         t = { s with coh := t.coh, fabric := t.fabric, mem := t.mem, marks := t.marks } ∧ LineWritten s t line data ∧ marked t ∧
         t.coh = { s.coh with serving := tabErase s.coh.serving line, dir := tabSet s.coh.dir line (.excl r) } ∧
         Sent s t [(r, 0x22, agent, ga, [BitVec.ofNat 8 (num poison)], data)]) ∧
       (∃ t, exec (.fwdAck line chip none poison) s = .next t ∧
         t = { s with coh := { s.coh with serving := tabErase s.coh.serving line, dir := tabSet s.coh.dir line (.excl r) } })) ∧
     (∀ x r agent, tabFind s.coh.serving line = some x → x.await = [chip] → s.coh.queue = [] → r ≠ chipId s →
       x.req = ⟨.rdS, line, r, agent, []⟩ →
       ∃ t, exec (.fwdAck line chip (some data) poison) s = .next t ∧ t = { s with coh := t.coh, mem := t.mem, marks := t.marks } ∧
         LineWritten s t line data ∧ marked t ∧
         t.coh = { s.coh with
           serving := tabErase s.coh.serving line, dir := tabSet s.coh.dir line (.shared (setAdd [chip] r)) }))

/-- DATA_S, DATA_E and DATA_M put a remote line in the Square cache in that state, with its poison, and end the requests for it. SNP_INV,
SNP_FWD_S and SNP_FWD_X are answered from the cache: the line's data goes to the requester of a forward, data of an M copy also to the home
where the home is to hold it; a snoop of a line on its way waits, and one of a line in writeback is answered WB_PENDING. WB_ACK ends a
writeback. RETRY sends the refused requests again (R198, R200, R204, R206). -/
def Obligations.SquareCacheAnswers : Prop :=
  ∀ (s : State), s.Inv →
    (∀ st line data poison, s.posted = [] → homeOf line ≠ chipId s →
      ((s.coh.lines.map Prod.fst).filter (fun l => Sys2Proof.Machine.setOf l = Sys2Proof.Machine.setOf line ∧ l ≠ line)).length < max 1 (min 16 (remoteWays s)) →
      ∃ t, exec (dataRowOf st line data poison) s = .next t ∧
        t = { s with coh := { s.coh with
          await := s.coh.await.filter (fun r => r.line ≠ line), lines := tabSet s.coh.lines line ⟨st, data, poison⟩ } }) ∧
    (∀ sn, (tabFind s.coh.wbOut sn.line).isSome → ∃ t, exec (snoopRow sn) s = .next t ∧ t = { s with fabric := t.fabric } ∧
      Sent s t [(sn.home, 0x26, 96, 128 * sn.line, [], [])]) ∧
    (∀ sn, tabFind s.coh.wbOut sn.line = none → tabFind s.coh.lines sn.line = none → s.coh.await.any (fun r => r.line = sn.line) = true →
      ∃ t, exec (snoopRow sn) s = .next t ∧ t = { s with coh := { s.coh with held := s.coh.held ++ [sn] } }) ∧
    (∀ sn, tabFind s.coh.wbOut sn.line = none → tabFind s.coh.lines sn.line = none → s.coh.await.any (fun r => r.line = sn.line) = false →
      ∃ t, exec (snoopRow sn) s = .next t ∧ t = { s with fabric := t.fabric } ∧
        Sent s t [(sn.home, (match sn with | .inv .. => 0x23 | _ => 0x26), 96, 128 * sn.line, [], [])]) ∧
    (∀ line home dest x, tabFind s.coh.wbOut line = none → tabFind s.coh.lines line = some x →
      (let p : List Byte := [BitVec.ofNat 8 (num x.poison)]
       let dirty := if x.st = .m then x.data else []
       (∃ t, exec (.snpInv line home) s = .next t ∧
         t = { s with coh := { s.coh with lines := tabErase s.coh.lines line }, fabric := t.fabric } ∧
         Sent s t [(home, 0x23, 96, 128 * line, p, dirty)]) ∧
       (∃ t, exec (.snpFwdS line home dest) s = .next t ∧
         t = { s with coh := { s.coh with lines := tabSet s.coh.lines line { x with st := .s } }, fabric := t.fabric } ∧
         Sent s t [(dest, 0x20, 96, 128 * line, p, x.data), (home, 0x24, 96, 128 * line, p, dirty)]) ∧
       (∃ t, exec (.snpFwdX line home dest) s = .next t ∧
         t = { s with coh := { s.coh with lines := tabErase s.coh.lines line }, fabric := t.fabric } ∧
         Sent s t [(dest, 0x22, 96, 128 * line, p, x.data), (home, 0x24, 96, 128 * line, [], [])]))) ∧
    (∀ line, ∃ t, exec (.wbAck line) s = .next t ∧
      t = { s with coh := { s.coh with
        wbOut := tabErase s.coh.wbOut line, await := s.coh.await.filter (fun r => !(r.line = line ∧ r.kind = .wrl)) } }) ∧
    (∀ line agent, ∃ t, exec (.retry line agent) s = .next t ∧ t = { s with fabric := t.fabric } ∧
      Sent s t ((s.coh.await.filter (fun r => r.line = line ∧ r.agent = agent)).map (fun r =>
        (homeOf line, reqPtype r.kind, agent, 128 * line, [], r.data))))

/-- UC_RD and UC_WR of another chip reach sync objects and doorbell pages: a read returns the register in UC_DATA, a write of SIGNAL acts, a
message written whole to a SEND window is committed, and both are acknowledged with UC_ACK; an access to LP5X is answered with ERR and reported.
UC_DATA, UC_ACK and ERR end the access that waits for them (R29, R221, R238, R421, R425). -/
def Obligations.UncachedAccesses : Prop :=
  ∀ (s : State) (chip agent obj q k a : Nat) (d : List Byte), s.Inv → chip < 16 → obj < 16384 → q < 1024 →
    (let o := syncObj s obj
     let sig := ownGa s (0x90000000000 + 64 * obj)
     let bell := ownGa s (0x90010000000 + 0x4000 * q)
     (∃ t, exec (.ucRd chip agent sig 4) s = .next t ∧ t = { s with fabric := t.fabric } ∧
       Sent s t [(chip, 0x29, agent, sig, [], bytesLE 4 o.value)]) ∧
     (∃ t, exec (.ucRd chip agent (bell + 0x40) 4) s = .next t ∧ t = { s with fabric := t.fabric } ∧
       Sent s t [(chip, 0x29, agent, bell + 0x40, [], bytesLE 4 (fld s (R.QSTAT.COUNT q)))]) ∧
     (a < lp5xEnd → s.events.length < 256 → ∃ t, exec (.ucRd chip agent (ownGa s a) 4) s = .next t ∧
       t = { s with fabric := t.fabric, events := t.events } ∧ Sent s t [(chip, 0x28, agent, ownGa s a, [], [])] ∧
       Reported s t 0x0107 agent [ownGa s a, 1, num (s.marks.pages.contains (a / 4096))]) ∧
     (o.en = true → o.type = 0 → o.waiters = [] → k < 2 ^ 32 → o.value + k < 2 ^ 32 →
       ∃ t, exec (.ucWr chip agent (sig + 8) (bytesLE 4 k)) s = .next t ∧ t = { s with fabric := t.fabric, syncs := t.syncs } ∧
         (∀ m, syncObj t m = if m = obj then { o with value := o.value + k } else syncObj s m) ∧
         Sent s t [(chip, 0x2A, agent, sig + 8, [], [])]) ∧
     (d.length = 64 → tabFind s.queues.staging (1024 * (16 + 128 * chip + agent) + 1023) = none →
       ∃ t, exec (.ucWr chip agent bell d) s = .next t ∧ t = { s with fabric := t.fabric, queues := t.queues } ∧
         t.queues = { s.queues with
           staging := tabErase s.queues.staging (1024 * (16 + 128 * chip + agent) + 1023)
           adrIn := s.queues.adrIn ++ [⟨chip, agent, q, none, d⟩] } ∧
         Sent s t [(chip, 0x2A, agent, bell, [], [])]) ∧
     ((a, agent) ∈ s.coh.ucOut →
       (∃ t, exec (.ucData a agent d) s = .next t ∧
         t = { s with coh := { s.coh with ucOut := s.coh.ucOut.erase (a, agent), ucGot := s.coh.ucGot ++ [((a, agent), some d)] } }) ∧
       (∃ t, exec (.ucAck a agent) s = .next t ∧
         t = { s with coh := { s.coh with ucOut := s.coh.ucOut.erase (a, agent), ucGot := s.coh.ucGot ++ [((a, agent), some [])] } }) ∧
       (∃ t, exec (.err a agent) s = .next t ∧
         t = { s with coh := { s.coh with ucOut := s.coh.ucOut.erase (a, agent), ucGot := s.coh.ucGot ++ [((a, agent), none)] } })) ∧
     ((a, agent) ∉ s.coh.ucOut → s.posted = [] → s.coh.await.any (fun r => r.line = a / 128 ∧ r.agent = agent) = true →
       ∃ t, exec (.err a agent) s = .next t ∧
         t = { s with coh := { s.coh with
           await := s.coh.await.filter (fun r => !(r.line = a / 128 ∧ r.agent = agent)), errs := setAdd s.coh.errs (128 * (a / 128)) } }))

namespace Sys2Proof.Machine

/-! ### The patrol, queues and sync objects (R181, R207 to R209, R218 to R243) -/

/-- No READY pair takes notices of a class (R474, R492). -/
def Unheard (s : State) (cls : Nat) : Prop :=
  ∀ k, k ∈ noticeKeys s → bitOf (mail s k).nclass cls = false ∨ pairReady s (pairOf k) = false

/-- A message as its queue stores it (Table 7-1, R219): payload, TAG and USER are the sender's. -/
def wantMsg (d : List Byte) (chip agent seq : Nat) (mc : Bool) : List Byte :=
  d.take 0x3A ++ bytesLE 2 (chip + 16 * agent + 2048 * num mc) ++ bytesLE 2 seq ++ d.drop 0x3E

/-- A sync object after a signal that finds no waiter (R239, R243). -/
def wantSignal (o : SyncObj) (k : Nat) : SyncObj :=
  if k = 0 then o
  else if o.type = 0 then { o with value := min (o.value + k) 0xFFFFFFFF, ovf := o.ovf || decide (0xFFFFFFFF < o.value + k) }
  else { o with value := 1 }

/-- One object has changed, and no other. -/
def ObjectIs (s t : State) (n : Nat) (o : SyncObj) : Prop := ∀ m, syncObj t m = if m = n then o else syncObj s m

/-- One core has changed, and no other. -/
def CoreIs (s t : State) (c : Nat) (k : Core) : Prop := ∀ d, core t d = if d = c then k else core s d

/-- The members of a multicast channel: queue and chip. -/
def mcMembers (s : State) (ch : Nat) : List (Nat × Nat) :=
  ((List.range 128).filter (fun j => flag s (R.MC_MEMBER.VALID ch j))).map (fun j =>
    (fld s (R.MC_MEMBER.QUEUE ch j), fld s (R.MC_MEMBER.CHIP ch j)))

/-- Bits of a word that have changed to the values given; every other bit stays. -/
def BitsAre (w w' : Nat) (l : List (Nat × Bool)) : Prop :=
  (∀ p, p ∈ l → bitOf w' p.1 = p.2) ∧ ∀ b, b < 32 → b ∉ l.map Prod.fst → bitOf w' b = bitOf w b

end Sys2Proof.Machine

/-- PATROL_READ moves the patrol on by one granule and changes nothing else where it meets no error; a corrected error is counted and
reported, an uncorrectable one also poisons its line. KENNEL_ENTRY retires a page whose owner has released it: the page joins the list,
KENNEL_STAT counts it, and every access to it is unmapped from then on (R179, R181, R207 to R209, R214). -/
def Obligations.PatrolAndKennel : Prop :=
  ∀ (s : State), s.Inv →
    (patrolOn s = true →
      (let a := s.marks.patrol
       let next := (a + 64) % lp5xEnd
       (∃ t, exec (.patrolRead 0) s = .next t ∧ t = { s with marks := { s.marks with patrol := next } }) ∧
       (s.events.length < 256 → s.marks.corrected = [] → ∃ t, exec (.patrolRead 1) s = .next t ∧
         t = { s with marks := t.marks, regs := t.regs, events := t.events } ∧
         t.marks = { s.marks with patrol := next, corrected := [(a / 4096, extTime s)] } ∧ RegsBut [R.LP5X_CE_COUNT.val.off] s t ∧
         fld t R.LP5X_CE_COUNT.val = (fld s R.LP5X_CE_COUNT.val + 1) % 2 ^ 32 ∧ Reported s t 0x0101 0x7F [a]) ∧
       (s.events.length < 256 → a < lp5xEnd → s.marks.pages.contains (a / 4096) = true → ∃ t, exec (.patrolRead 2) s = .next t ∧
         t = { s with marks := t.marks, regs := t.regs, events := t.events } ∧
         t.marks = { s.marks with patrol := next, poisonLines := t.marks.poisonLines } ∧
         (∀ l, l ∈ t.marks.poisonLines ↔ l = a / 128 ∨ l ∈ s.marks.poisonLines) ∧ RegsBut [R.LP5X_UE_COUNT.val.off] s t ∧
         fld t R.LP5X_UE_COUNT.val = (fld s R.LP5X_UE_COUNT.val + 1) % 2 ^ 32 ∧ Reported s t 0x0102 0x7F [a]))) ∧
    (∀ n, n < lp5xEnd / 4096 → s.marks.candidates.contains (n, true) = true → s.wdn.candidates.contains n = true →
      s.marks.pages.contains n = false → s.marks.pages.length < 512 → Unheard s 5 →
      ∃ t, exec (.kennelEntry n true false) s = .next t ∧ t = { s with marks := t.marks, regs := t.regs, wdn := t.wdn } ∧
        t.marks = { s.marks with pages := setAdd s.marks.pages n, candidates := s.marks.candidates.filter (· ≠ (n, true)) } ∧
        RegsBut [R.KENNEL_STAT.PAGES.off] s t ∧ fld t R.KENNEL_STAT.PAGES = s.marks.pages.length + 1 ∧
        fld t R.KENNEL_STAT.ROWS = s.marks.rows.length % 2 ^ 9 ∧
        ∀ a w, 4096 * n ≤ a → a < 4096 * n + 4096 → localTarget t w a = .unmapped)

/-- SEND stages bytes and commits a whole message; QMSG brings one from another chip; QUEUE_ACCEPT stores a waiting message as the newest entry
of its queue's ring, with its source and SEQ, and drops and counts one for a MODE 0 queue; CONSUME retires messages of a MODE 3 queue and
raises the vector again where some are left; MC_DELIVER sends a copy to each member with the channel's next SEQ, and drops a message to a disabled
channel; QRECV_TIMEOUT ends a timed QRECV whose deadline is reached with TIMEOUT (R218 to R224, R228, R229, R231, R233, R234). -/
def Obligations.QueueUnitMovesMessages : Prop :=
  ∀ (s : State) (w : Sys2Proof.Who) (q c ch k : Nat) (d : List Byte) (m : Commit), s.Inv → q < 1024 → c < 96 → ch < 64 →
    (let key := 1024 * 0 + stageSrc s w
     let depth := 2 ^ fld s (R.QCFG.DEPTH_LOG2 q)
     let count := fld s (R.QSTAT.COUNT q)
     let tail := fld s (R.QPTR.TAIL q)
     let at_ := 64 * fld s (R.QRING_LO.RING_BASE q) + 2 ^ 32 * fld s (R.QRING_HI.RING_BASE q) + 64 * tail
     let e := wantMsg m.data m.chip m.agent (tabGet s.queues.seq q 0) false
     let seq := fld s (R.MC_SEQ.val ch)
     let vec := fld s (R.QCFG.CONSUMER q)
     let sound := 2 ≤ fld s (R.QCFG.DEPTH_LOG2 q) ∧ fld s (R.QCFG.DEPTH_LOG2 q) ≤ 12
     (tabFind s.queues.staging key = none → d.length = 64 →
       (∃ t, exec (.send w q 0 d) s = .next t ∧ t = { s with queues := { s.queues with
         staging := tabErase s.queues.staging key, ringIn := s.queues.ringIn ++ [⟨chipId s, w.agent, q, none, d⟩] } }) ∧
       (∃ t, exec (.send w q 8 (d.take 16)) s = .next t ∧ t = { s with queues := { s.queues with
         staging := tabSet s.queues.staging key (List.replicate 8 0 ++ d.take 16 ++ List.replicate 40 0) } })) ∧
     (∃ t, exec (.qmsg m.chip m.agent q 0 d) s = .next t ∧
       t = { s with queues := { s.queues with adrIn := s.queues.adrIn ++ [⟨m.chip, m.agent, q, none, d⟩] } }) ∧
     (∃ t, exec (.qmsg m.chip m.agent ch 1 d) s = .next t ∧
       t = { s with queues := { s.queues with chanIn := s.queues.chanIn ++ [⟨m.chip, m.agent, ch, none, d⟩] } }) ∧
     (m.dest = q → m.mc = none → m.data.length = 64 → m.chip < 16 → m.agent < 128 → s.queues.adrIn = [m] → sound → count < depth →
       fld s (R.QCFG.MODE q) = 1 → fld s (R.QCFG.QUOTA q) = 0 → at_ + 64 ≤ lp5xEnd → s.marks.pages.contains (at_ / 4096) = false →
       s.coh.dir = [] → tabFind s.coh.serving (at_ / 128) = none → s.posted = [] →
       ∃ t, exec (.queueAccept true) s = .next t ∧ t = { s with queues := t.queues, regs := t.regs, mem := t.mem, marks := t.marks } ∧
         t.queues = { s.queues with
           adrIn := [], lastAdr := 128 * m.chip + m.agent, seq := tabSet s.queues.seq q ((tabGet s.queues.seq q 0 + 1) % 2 ^ 16) } ∧
         RegsBut [(R.QSTAT.COUNT q).off, (R.QPTR.TAIL q).off] s t ∧ fld t (R.QSTAT.COUNT q) = count + 1 ∧
         fld t (R.QPTR.TAIL q) = (tail + 1) % depth ∧ fld t (R.QPTR.HEAD q) = fld s (R.QPTR.HEAD q) ∧
         ∀ x, memRead t.mem x = if at_ ≤ x ∧ x < at_ + 64 then e.getD (x - at_) 0 else memRead s.mem x) ∧
     (m.dest = q → s.queues.ringIn = [m] → fld s (R.QCFG.MODE q) = 0 → flag s (R.QSYNC.OVF_EN q) = false →
       ∃ t, exec (.queueAccept false) s = .next t ∧ t = { s with queues := t.queues, regs := t.regs } ∧
         t.queues = { s.queues with
           ringIn := [], lastRing := 128 * m.chip + m.agent, slotOvf := tabSet s.queues.slotOvf q (tabGet s.queues.slotOvf q 0 + 1) } ∧
         RegsBut [(R.QSTAT.COUNT q).off, (R.QOVF_COUNT.val q).off] s t ∧ flag t (R.QSTAT.OVF q) = true ∧
         fld t (R.QSTAT.COUNT q) = count ∧ fld t (R.QOVF_COUNT.val q) = (fld s (R.QOVF_COUNT.val q) + 1) % 2 ^ 32) ∧
     (sound → fld s (R.QCFG.MODE q) = 3 → flag s (R.QSYNC.CREDIT_EN q) = false → flag s (R.MSIX.MASK vec) = false →
       ∃ t, exec (.consume w q k true) s = .next t ∧ t = { s with regs := t.regs, out := t.out } ∧
         RegsBut [(R.QSTAT.COUNT q).off, (R.QPTR.HEAD q).off] s t ∧ fld t (R.QSTAT.COUNT q) = count - min k count ∧
         fld t (R.QPTR.HEAD q) = (fld s (R.QPTR.HEAD q) + min k count) % depth ∧ fld t (R.QPTR.TAIL q) = tail ∧
         t.out = if k < count then
           ⟨.msix, [vec, fld s (R.MSIX.ADDR_LO vec) + 2 ^ 32 * fld s (R.MSIX.ADDR_HI vec), fld s (R.MSIX.DATA vec)], []⟩ :: s.out else s.out) ∧
     (fld s (R.QCFG.MODE q) ≠ 3 → s.events.length < 256 → ∃ t, exec (.consume w q k true) s = .next t ∧ t = { s with events := t.events } ∧
       Reported s t 0x0802 w.agent [0x90010000000 + 0x4000 * q + 0x44]) ∧
     (s.queues.chanIn = [m] → m.dest = ch → flag s (R.MC_CTL.EN ch) = true → m.data.length = 64 → m.chip < 16 → m.agent < 128 →
       (∀ p, p ∈ mcMembers s ch → p.2 = chipId s ∨ (isMember s p.2 = true ∧ featOn s 1 = true)) →
       ∃ t, exec (.mcDeliver ch) s = .next t ∧ t = { s with queues := t.queues, regs := t.regs, fabric := t.fabric } ∧
         RegsBut [(R.MC_SEQ.val ch).off] s t ∧ fld t (R.MC_SEQ.val ch) = (seq + 1) % 2 ^ 16 ∧
         t.queues = { s.queues with
           chanIn := []
           ringIn := s.queues.ringIn ++ ((mcMembers s ch).filter (fun p => p.2 = chipId s)).map (fun p => ⟨m.chip, m.agent, p.1, some seq, m.data⟩) } ∧
         Sent s t (((mcMembers s ch).filter (fun p => p.2 ≠ chipId s)).map (fun p =>
           (p.2, 0x30, m.agent, p.2 * 2 ^ 44 + 0x90010000000 + 0x4000 * p.1 + 2, (wantMsg m.data m.chip m.agent seq true).take 16,
             (wantMsg m.data m.chip m.agent seq true).drop 16)))) ∧
     (s.queues.chanIn = [m] → m.dest = ch → flag s (R.MC_CTL.EN ch) = false → s.events.length < 256 →
       ∃ t, exec (.mcDeliver ch) s = .next t ∧ t = { s with queues := { s.queues with chanIn := [] }, events := t.events } ∧
         Reported s t 0x0301 m.agent [2 ^ 10 + ch, 1]) ∧
     (∀ after ea rd dl, (core s c).run = .recv q ea rd (some dl) → due (advance s after) dl = true →
       ∃ t, exec (.qrecvTimeout after c) s = .next t ∧ t = { advance s after with cores := t.cores } ∧
         CoreIs s t c { core s c with run := .woken 2 }))

/-- SIGNAL and SYNC_SIG add to a semaphore that nobody waits for, or set an event; a semaphore that would pass 0xFFFF_FFFF stays there, its OVF
is set and the overflow is reported; a waiter whose need is met is granted; a signal of a disabled object is reported and has no other effect.
SYNC_RESET gives a semaphore its value, and clears an event, whose waiters end with LOST (R239, R240, R243, R251). -/
def Obligations.SignalsAndResets : Prop :=
  ∀ (s : State) (w : Sys2Proof.Who) (chip agent obj k : Nat), s.Inv → obj < 16384 → (∀ c, w = .pilot c → (syncObj s obj).owner = 0xF) →
    s.events.length < 256 →
    (let o := syncObj s obj
     (∀ row, (row = .signal w obj k ∨ row = .syncSig chip agent obj k) →
       (o.en = true → o.waiters = [] → ∃ t, exec row s = .next t ∧ t = { s with syncs := t.syncs, events := t.events } ∧
         ObjectIs s t obj (wantSignal o k) ∧
         (if o.type = 0 ∧ 0xFFFFFFFF < o.value + k ∧ k ≠ 0 then Reported s t 0x0302 0x7F [obj] else t.events = s.events)) ∧
       (∀ c n rd dl, o.en = true → o.type = 0 → o.waiters = [.pilot c n] → (core s c).run = .wait obj (chipId s) n rd dl → k ≠ 0 →
         n ≤ o.value + k → o.value + k ≤ 0xFFFFFFFF → ∃ t, exec row s = .next t ∧ t = { s with syncs := t.syncs, cores := t.cores } ∧
         ObjectIs s t obj { o with value := o.value + k - n, waiters := [] } ∧ CoreIs s t c { core s c with run := .woken 0 })) ∧
     (o.en = false → (∃ t, exec (.signal w obj k) s = .next t ∧ t = { s with events := t.events } ∧
         Reported s t 0x0308 w.agent [obj, chipId s, w.agent]) ∧
       (∃ t, exec (.syncSig chip agent obj k) s = .next t ∧ t = { s with events := t.events } ∧
         Reported s t 0x0308 agent [obj, chip, agent])) ∧
     (o.waiters = [] → ∃ t, exec (.syncReset obj k) s = .next t ∧ t = { s with syncs := t.syncs } ∧
       ObjectIs s t obj { o with value := if o.type = 0 then k % 2 ^ 32 else 0 }) ∧
     (∀ c n rd dl, o.type ≠ 0 → o.waiters = [.pilot c n] → (core s c).run = .wait obj (chipId s) n rd dl →
       ∃ t, exec (.syncReset obj k) s = .next t ∧ t = { s with syncs := t.syncs, cores := t.cores } ∧
         ObjectIs s t obj { o with value := 0, waiters := [] } ∧ CoreIs s t c { core s c with run := .woken 7 }))

/-- SYNC_WAIT at the home: a wait that can be met takes its grant, which returns in SYNC_GRANT; another queues; a poll is answered NOT_READY.
SYNC_GRANT ends the wait that it names with its status, and a grant that nobody waits for any more goes back as a signal. SYNC_WITHDRAW takes a
waiter away. SWAIT_TIMEOUT ends a timed wait whose deadline is reached: a blocking one with TIMEOUT, an async slot with DONE and TIMED_OUT
(R240 to R242, R248). -/
def Obligations.WaitsAcrossChips : Prop :=
  ∀ (s : State) (chip token obj n c : Nat), s.Inv → obj < 16384 → c < 96 → 1 ≤ n →
    (let o := syncObj s obj
     let home := chipId s * 2 ^ 44 + 0x90000000000 + 64 * obj
     let grant (st : Nat) := [(chip, 0x33, 100, home, bytesLE 2 token ++ bytesLE 1 st ++ bytesLE 4 n ++ bytesLE 1 o.type, ([] : List Byte))]
     (∀ v, o.en = true → o.waiters = [] → wantGrant o n = some v → ∃ t, exec (.syncWait chip token obj n) s = .next t ∧
       t = { s with syncs := t.syncs, fabric := t.fabric } ∧ ObjectIs s t obj { o with value := v } ∧ Sent s t (grant 0)) ∧
     (o.en = true → (o.waiters ≠ [] ∨ wantGrant o n = none) → token % 8 ≠ 5 → waiterCount s < 1024 →
       ∃ t, exec (.syncWait chip token obj n) s = .next t ∧ t = { s with syncs := t.syncs } ∧
         ObjectIs s t obj { o with waiters := o.waiters ++ [.remote chip token n] }) ∧
     (o.en = true → (o.waiters ≠ [] ∨ wantGrant o n = none) → token % 8 = 5 →
       ∃ t, exec (.syncWait chip token obj n) s = .next t ∧ t = { s with fabric := t.fabric } ∧ Sent s t (grant 3)) ∧
     (∀ st type rd dl, (core s c).run = .wait obj chip n rd dl → ∃ t, exec (.syncGrant chip obj (8 * c) st n type) s = .next t ∧
       t = { s with cores := t.cores } ∧ CoreIs s t c { core s c with run := .woken st }) ∧
     ((core s c).run = .running → chip ≠ chipId s → ∃ t, exec (.syncGrant chip obj (8 * c) 0 n 0) s = .next t ∧ t = { s with fabric := t.fabric } ∧
       Sent s t [(chip, 0x31, c, chip * 2 ^ 44 + 0x90000000000 + 64 * obj, bytesLE 4 n, [])]) ∧
     (o.waiters = [.remote chip token n] → ∃ t, exec (.syncWithdraw chip token obj) s = .next t ∧ t = { s with syncs := t.syncs } ∧
       ObjectIs s t obj { o with waiters := [] }) ∧
     (∀ after rd dl, (core s c).run = .wait obj (chipId s) n rd (some dl) → o.waiters = [.pilot c n] → due (advance s after) dl = true →
       ∃ t, exec (.swaitTimeout after c none) s = .next t ∧ t = { advance s after with cores := t.cores, syncs := t.syncs } ∧
         ObjectIs s t obj { o with waiters := [] } ∧ CoreIs s t c { core s c with run := .woken 2 }) ∧
     (∀ after j dl, j < 4 → (core s c).asyncs = [⟨j, obj, chipId s, n, some dl⟩] → (core s c).held = none → o.waiters = [.async c j n] →
       due (advance s after) dl = true →
       ∃ t, exec (.swaitTimeout after c (some j)) s = .next t ∧ t = { advance s after with cores := t.cores, syncs := t.syncs } ∧
         ObjectIs s t obj { o with waiters := [] } ∧ (∀ d, d ≠ c → core t d = core s d) ∧
         core t c = { core s c with sys := (core t c).sys, asyncs := [] } ∧ SysBut [R.SASTAT.DONE.off] (core s c) (core t c) ∧
         BitsAre ((core s c).sysWord 0 R.SASTAT.DONE.off) ((core t c).sysWord 0 R.SASTAT.DONE.off)
           [(j, true), (4 + j, false), (8 + j, true)]))

namespace Sys2Proof.Machine

/-! ### Schedulers, leashes, claims (R256 to R275) -/

/-- No wait at this chip's objects is core `c`'s, and none can be granted: every object has settled. -/
def NoneWaits (s : State) (c : Nat) : Prop :=
  ∀ p, p ∈ s.syncs → (∀ w, w ∈ p.2.waiters → (∀ n, w ≠ .pilot c n) ∧ ∀ j n, w ≠ .async c j n) ∧
    ∀ w, p.2.waiters.head? = some w → wantGrant p.2 w.count = none

/-- The task goes first among the ready tasks of its partition that satisfy `ok` (R258). -/
def GoesFirst (s : State) (p : Nat) (t : Task) (ok : Task → Prop) : Prop :=
  t ∈ s.sched.tasks ∧ t.part = p ∧ t.st = .ready ∧ ok t ∧
    ∀ u, u ∈ s.sched.tasks → u.part = p → u.st = .ready → ok u → u ≠ t → before s t u = true ∧ before s u t = false

/-- A core as a dispatch starts it (R101, R259, R267, R531): every register at its reset value but S_1 to S_3, TASK and the leash; the rescale
table, the weight banks, outstanding DMA and a claim stay. `l` lists further system registers that the dispatch sets. -/
def StartsTask (s : State) (k k' : Core) (x : Task) (pc : Nat) (l : List Nat) : Prop :=
  k' = { Core.reset with
    s := k'.s, sys := k'.sys, pc := pc, run := .running, task := some x.num, rescale := k.rescale, dmas := k.dmas, claim := k'.claim
    held := k'.held, lanes := { Lanes.reset with active := k.lanes.active, shadow := k.lanes.shadow } } ∧
    (∀ r, k'.sreg r = if 1 ≤ r ∧ r ≤ 3 then BitVec.ofNat 32 (x.args.getD (r - 1) 0) else 0) ∧
    SysBut (R.TASK.ID.off :: R.LEASH_DL.val.off :: R.LEASH_CTL.EN.off :: l) Core.reset k' ∧
    k'.sysFld R.TASK.ID = x.id % 2 ^ 16 ∧ k'.sysFld R.TASK.CLASS = x.cls % 4 ∧ k'.sysFlag R.LEASH_CTL.EN = x.leashEn ∧
    (x.leashEn = true → k'.sysFld R.LEASH_DL.val = (if x.leashRel then slotStart s x.slot + x.leash else x.leash) % 2 ^ 32)

/-- The tasks with one of them started on a core. -/
def startedTasks (s : State) (n c : Nat) (x : Task) : List Task :=
  s.sched.tasks.map (fun y => if y.num = n then { x with st := .running c, startedAt := nowNs s } else y)

/-- A whole range of usable LP5X that can be read and written at once. -/
def Lp5xFree (s : State) (a n : Nat) : Prop :=
  a + n ≤ lp5xEnd ∧ (∀ x, a ≤ x → x < a + n → s.marks.pages.contains (x / 4096) = false) ∧ s.coh.dir = [] ∧ s.coh.serving = [] ∧
    s.posted = []

/-- The status and CAUSE with which a task ends when its Pilot writes TASK.END (R31, R169, R259, R268). -/
def wantStatus (k : Core) : Nat × Nat :=
  match k.abortCause with
  | none => (0, 0)
  | some 17 => (2, 0)
  | some c => (1, c)

end Sys2Proof.Machine

/-- TASK_SUBMIT enters a sound descriptor with its fields, ready or held as a plain task, and counts it; a refused one is reported. TASK_DISPATCH
starts the task that goes first on the lowest free core. TASK_END frees the core, writes the status record and takes the task off its
scheduler's list. LEASH_EXPIRY sets EXPIRED, raises LEASH and lets the task end LATE (R256 to R259, R261, R267, R268). -/
def Obligations.SchedulersRunTasks : Prop :=
  ∀ (s : State) (p c : Nat), s.Inv → p < 12 → c < 96 →
    (∀ d, d.length = 64 → tabFind s.queues.staging (1024 + 100) = none →
      (let x := parseTask s.sched.nextNum p d
       let staged : Queues := { s.queues with staging := tabErase s.queues.staging (1024 + 100) }
       (taskCheck s x = none → fld s (R.PART_STAT.TASKS p) < 256 → s.sched.fell = [] → x.waitEn = false →
         ∃ t, exec (.taskSubmit .warden p 0 d) s = .next t ∧
           t = { s with queues := staged, regs := t.regs, sched := { s.sched with
             tasks := s.sched.tasks ++ [{ x with st := if x.plain then .heldPlain else .ready }], nextNum := s.sched.nextNum + 1 } } ∧
           RegsBut [(R.PART_STAT.TASKS p).off] s t ∧ fld t (R.PART_STAT.TASKS p) = fld s (R.PART_STAT.TASKS p) + 1 ∧
           x.id = fieldLE d 0 2 ∧ x.entry = fieldLE d 4 4 ∧ x.slot = fieldLE d 0x12 2 ∧ x.leash = fieldLE d 0x1C 4 ∧
           x.args = [fieldLE d 0x28 4, fieldLE d 0x2C 4, fieldLE d 0x30 4] ∧ x.statusGa = fieldLE d 0x38 6) ∧
       (x.statusGa = 0 → x.cls = 3 → s.events.length < 256 → ∃ t, exec (.taskSubmit .warden p 0 d) s = .next t ∧
         t = { s with queues := staged, events := t.events } ∧ Reported s t 0x0306 0x7F [p, x.id, 1]))) ∧
    (∀ x, GoesFirst s p x (fun _ => True) → coreFree s p c = true → (∀ d, d < c → coreFree s p d = false) → NoneWaits s c →
      (core s c).asyncs = [] →
      ∃ t, exec (.taskDispatch p) s = .next t ∧ t = { s with cores := t.cores, sched := t.sched, queues := t.queues } ∧
        (∀ d, d ≠ c → core t d = core s d) ∧ StartsTask s (core s c) (core t c) x x.entry [] ∧
        (core t c).claim = none ∧ (core t c).held = (core s c).held ∧
        t.sched = { s.sched with tasks := startedTasks s x.num c x } ∧
        t.queues = { s.queues with staging := s.queues.staging.filter (fun e => e.1 % 1024 ≠ c) }) ∧
    (∀ x a, (core s c).task = some x.num → taskNum s x.num = some x → (core s c).claim = none → x.cls ≠ 0 → x.doneEn = false → x.part < 12 →
      x.statusGa = ownGa s a → x.statusGa ≠ 0 → a % 8 = 0 → Lp5xFree s a 8 →
      ∃ t, exec (.taskEnd c) s = .next t ∧
        t = { s with cores := t.cores, sched := t.sched, regs := t.regs, mem := t.mem, marks := t.marks } ∧
        CoreIs s t c { core s c with
          task := none, run := .idle
          lanes := { (core s c).lanes with running := none, pending := none, drain := none, stop := false, stopped := false } } ∧
        t.sched = { s.sched with tasks := s.sched.tasks.filter (fun y => y.num ≠ x.num), notDone := t.sched.notDone } ∧
        RegsBut [(R.PART_STAT.TASKS x.part).off] s t ∧ fld t (R.PART_STAT.TASKS x.part) = fld s (R.PART_STAT.TASKS x.part) - 1 ∧
        ∀ y, memRead t.mem y =
          if a ≤ y ∧ y < a + 8 then
            (bytesLE 8 ((wantStatus (core s c)).1 + 2 ^ 8 * (wantStatus (core s c)).2 + 2 ^ 16 * x.id + 2 ^ 32 * nowNs s)).getD (y - a) 0
          else memRead s.mem y) ∧
    (∀ after, (let s' := advance s after
      let k := core s c
      k.sysFlag R.LEASH_CTL.EN = true → k.sysFlag R.LEASH_CTL.EXPIRED = false → k.run = .running → due s' (k.sysFld R.LEASH_DL.val) = true →
      ∃ t, exec (.leashExpiry after c) s = .next t ∧ t = { s' with cores := t.cores } ∧ (∀ d, d ≠ c → core t d = core s d) ∧
        core t c = { k with sys := (core t c).sys, abortCause := some (k.abortCause.getD 17) } ∧
        SysBut [R.LEASH_CTL.EN.off, R.IPEND.val.off] k (core t c) ∧
        BitsAre (k.sysWord 0 R.LEASH_CTL.EN.off) ((core t c).sysWord 0 R.LEASH_CTL.EN.off) [(1, true)] ∧
        BitsAre (k.sysWord 0 R.IPEND.val.off) ((core t c).sysWord 0 R.IPEND.val.off) [(17, true)]))

/-- DECISION_INSTANT claims, for the one stage of the ledger, the fewest borrowable cores in rising order with which the stage is not predicted
to miss, once N − LEAD has come, and nothing where it is not predicted to miss; where it misses with every borrowable core the stage falls
back. CLAIM_YIELD halts the Pilot and records CLAIM_RPC. CLAIM_IMAGE_LOADED loads the radio image into the IMEM borrow region, sets BORROWED and
starts the radio task at 0x1_8000 with VBASE there (R262 to R266, R270). -/
def Obligations.ClaimsBorrowCores : Prop :=
  ∀ (s : State) (c : Nat), s.Inv → c < 96 →
    (∀ after d b p stage slot, (let s' := advance s after
      let l := stageTasks s' p stage slot
      let may := borrowable s' p
      let missesWith (n : Nat) : Bool := misses s' p stage slot (ownCores s' p ++ (may.take n).map (fun e => ((12000 : Int), coreShare s' e)))
      ledgerEntries s' = [(d, b, p, stage, slot)] → p < 12 →
      (missesWith 0 = false → exec (.decisionInstant after) s = .next s') ∧
      (∀ n, 0 < n → n ≤ may.length → (∀ m, m < n → missesWith m = true) → missesWith n = false →
        stageStart s' l ≤ 1000 * (fld s' (R.PART_LEDGER.LEAD p) : Int) →
        ∃ t, exec (.decisionInstant after) s = .next t ∧ t = { s' with cores := t.cores, regs := t.regs } ∧
          RegsBut ((List.range 12).map (fun q => (R.PART_STAT.LENT q).off)) s' t ∧
          (∀ e, e ∉ may.take n → core t e = core s e) ∧
          ∀ e, e ∈ may.take n → (let k := core s e
            core t e = { k with
              sys := (core t e).sys, claim := some ⟨p, nowNs s', (l.head?.map (fun x => x.num)).getD 0, k.task.isNone, false⟩
              lanes := { k.lanes with stop := true }, run := if k.task.isNone then .yielded else k.run } ∧
            SysBut [R.CLAIM.CLAIMED.off, R.IPEND.val.off] k (core t e) ∧ (core t e).sysFlag R.CLAIM.CLAIMED = true ∧
            bitOf ((core t e).sysWord 0 R.IPEND.val.off) 16 = (bitOf (k.sysWord 0 R.IPEND.val.off) 16 || k.task.isSome))) ∧
      (∀ x, (∀ n, n ≤ may.length → missesWith n = true) → s'.sched.tasks = [x] → x.part = p → x.cls = 0 → x.stage = stage → x.slot = slot →
        x.plain = false → x.plainEn = false → x.st = .ready → x.statusGa = 0 → s'.sched.fell = [] →
        ∃ t, exec (.decisionInstant after) s = .next t ∧ t = { s' with sched := t.sched, regs := t.regs } ∧
          t.sched = { s'.sched with tasks := [], fell := [((p, stage, slot), some (leashAt s' x % 2 ^ 32))], notDone := (p, stage, slot) :: s'.sched.notDone } ∧
          RegsBut [(R.PART_STAT.TASKS p).off, (R.PART_EVT.FALLBACKS p).off] s' t ∧
          fld t (R.PART_STAT.TASKS p) = fld s' (R.PART_STAT.TASKS p) - 1 ∧
          fld t (R.PART_EVT.FALLBACKS p) = (fld s' (R.PART_EVT.FALLBACKS p) + 1) % 2 ^ 16))) ∧
    (∀ cl, (core s c).claim = some cl → flag s R.PWR_STATE.SHED = false → (core s c).pc + 8 < 2 ^ 32 →
      ∃ t, exec (.claimYield c) s = .next t ∧ OnlyCore s t c ∧
        core t c = { core s c with sys := (core t c).sys, run := .yielded, claim := some { cl with yielded := true } } ∧
        SysBut [R.CLAIM_RPC.val.off] (core s c) (core t c) ∧ (core t c).sysFld R.CLAIM_RPC.val = (core s c).pc + 8) ∧
    (∀ cl x a, (core s c).claim = some cl → cl.yielded = true → (core s c).held = none → (core s c).lanes.stopped = true → cl.part < 12 →
      GoesFirst s cl.part x (fun y => y.cls = 0) → x.imageGa = ownGa s a → a % 128 = 0 → x.imageUnits ≤ 256 →
      Lp5xFree s a (128 * x.imageUnits) →
      ∃ t, exec (.claimImageLoaded c) s = .next t ∧ t = { s with cores := t.cores, sched := t.sched, regs := t.regs, mem := t.mem } ∧
        (∀ d, d ≠ c → core t d = core s d) ∧ t.sched = { s.sched with tasks := startedTasks s x.num c x } ∧
        StartsTask s (core s c) (core t c) x 0x18000 [R.VBASE.val.off, R.CLAIM.CLAIMED.off, R.CLAIM_RPC.val.off] ∧
        (core t c).claim = some cl ∧ (core t c).held = some (holdAside (core s c) c) ∧
        (core t c).sysFld R.VBASE.val * 2 ^ 10 = 0x18000 ∧ (core t c).sysFlag R.CLAIM.CLAIMED = true ∧
        (core t c).sysFlag R.CLAIM.BORROWED = true ∧ (core t c).sysWord 0 R.CLAIM_RPC.val.off = (core s c).sysWord 0 R.CLAIM_RPC.val.off ∧
        RegsBut [(R.PART_STAT.BORROWED cl.part).off] s t ∧
        fld t (R.PART_STAT.BORROWED cl.part) = (fld s (R.PART_STAT.BORROWED cl.part) + 1) % 2 ^ 7 ∧
        ∀ y, memRead t.mem y =
          if imemAddr c 0x18000 ≤ y ∧ y < imemAddr c 0x18000 + 128 * x.imageUnits then memRead s.mem (a + (y - imemAddr c 0x18000))
          else memRead s.mem y)

namespace Sys2Proof.Machine

/-! ### The embedding pool (R287 to R314) -/

/-- Bytes of memory. -/
def memBytes (s : State) (a n : Nat) : List Byte := (List.range n).map (fun j => memRead s.mem (a + j))

/-- Memory with bytes written at an address, and every other byte as before. -/
def MemIs (s t : State) (a : Nat) (d : List Byte) : Prop :=
  ∀ x, memRead t.mem x = if a ≤ x ∧ x < a + d.length then d.getD (x - a) 0 else memRead s.mem x

/-- The directory entry of a row (Table 9-3). -/
def dirEntry (s : State) (tb r : Nat) : Entry := entryOf (memBytes s (dirAddr s tb r) 16)

/-- A whole range of usable LP5X, free of poison, that can be read and written at once. -/
def Lp5xSound (s : State) (a n : Nat) : Prop := Lp5xFree s a n ∧ poisoned s a n = false

/-- A descriptor's DONE_SYNC takes a signal of 1 (R300), where it is asked for, as a semaphore that nobody waits for. -/
def DoneSignal (s t : State) (en : Bool) (n : Nat) : Prop := ObjectIs s t n (if en then wantSignal (syncObj s n) 1 else syncObj s n)

/-- A semaphore that can take a signal, where one is asked for. -/
def CanSignal (s : State) (en : Bool) (n : Nat) : Prop :=
  en = true → (syncObj s n).en = true ∧ (syncObj s n).type = 0 ∧ (syncObj s n).waiters = [] ∧ (syncObj s n).value < 2 ^ 32 - 1

end Sys2Proof.Machine

/-- BIND sets the slot's GEN to POOL_GEN and returns it in the record, UNBIND sets it to 0, and both signal DONE_SYNC. A LOOKUP of one row that
this chip owns, in RAW, writes the version that its generation selects to OUT_GA. LKUP_REQ returns the selected version in packets of 128 bytes
(log entry 24). LKUP_DATA writes the output of its position. LOOKUP_DONE writes the record, counts the failed rows and signals DONE_SYNC
(R293 to R295, R297, R298, R300). -/
def Obligations.LookupsAndBindings : Prop :=
  ∀ (s : State) (p tb r k : Nat), s.Inv → p < 12 → tb < 64 → (s.pool.batches.length ≤ 1) →
    (let rb := tdRowBytes s tb
     let e := dirEntry s tb r
     let row := memBytes s (slotAddr s tb k) rb
     let held (g : Nat) : Prop := r < tdRows s tb ∧ s.pool.unavail.contains (256 * tb + shardOf s tb r) = false ∧
       Lp5xSound s (dirAddr s tb r) 16 ∧ e.role = 1 ∧ e.select g = some k ∧ Lp5xSound s (slotAddr s tb k) rb ∧
       flag s (R.TD_CTL.WATCH tb) = false ∧ s.pool.sample < 15
     (∀ a slot sync en, slot < 64 → flag s (R.BIND_CFG.EN slot) = true → fld s (R.BIND_CFG.PART slot) = p → a % 16 = 0 → Lp5xFree s a 16 →
       sync < 16384 → CanSignal s en sync →
       (∃ t, exec (.bind p slot sync (ownGa s a) en) s = .next t ∧ t = { s with regs := t.regs, mem := t.mem, marks := t.marks, syncs := t.syncs } ∧
         RegsBut [(R.BIND.GEN slot).off] s t ∧ fld t (R.BIND.GEN slot) = fld s R.POOL_GEN.val ∧
         MemIs s t a (bytesLE 16 (2 ^ 32 * fld s R.POOL_GEN.val)) ∧ DoneSignal s t en sync) ∧
       (∃ t, exec (.unbind p slot sync (ownGa s a) en) s = .next t ∧ t = { s with regs := t.regs, mem := t.mem, marks := t.marks, syncs := t.syncs } ∧
         RegsBut [(R.BIND.GEN slot).off] s t ∧ fld t (R.BIND.GEN slot) = 0 ∧ MemIs s t a (List.replicate 16 0) ∧ DoneSignal s t en sync)) ∧
     (∀ d ia oa, d.length = 64 → tabFind s.queues.staging (1024 * 2 + 100) = none →
       (let b : Batch := ⟨s.pool.next, p, d, none, [], [], [], [], none⟩
        s.pool.batches = [] → b.op = 0 → b.refusal s = none → b.count = 1 → b.fmt = 0 → b.table = tb → b.idxGa = ownGa s ia → Lp5xSound s ia 4 →
        numLE (memBytes s ia 4) = r → held b.gen → b.outGa 0 = ownGa s oa → Lp5xFree s oa rb →
        ∃ t, exec (.lookup .warden p 0 d) s = .next t ∧
          t = { s with queues := { s.queues with staging := tabErase s.queues.staging (1024 * 2 + 100) }, mem := t.mem, marks := t.marks, pool := { s.pool with
            batches := [{ b with idx := some [r] }], next := s.pool.next + 1, sample := s.pool.sample + 1 } } ∧ MemIs s t oa row)) ∧
     (∀ chip token gen pos, s.pool.later = [] → held gen → ∃ t, exec (.lkupReq chip token tb r gen pos 0) s = .next t ∧
       t = { s with fabric := t.fabric, pool := { s.pool with sample := s.pool.sample + 1 } } ∧
       Sent s t ((List.range (ceilDiv rb 128)).map (fun i => (chip, 0x3A, 96, chip * 2 ^ 44,
         bytesLE 4 token ++ bytesLE 2 pos ++ [0] ++ bytesLE 2 rb, (row.drop (128 * i)).take 128)))) ∧
     (∀ b pos oa d, s.pool.batches = [b] → b.sent.contains pos = true → tabFind b.got pos = none → b.fmt = 0 → b.outGa pos = ownGa s oa →
       0 < d.length → Lp5xFree s oa d.length → ∃ t, exec (.lkupData b.num pos 0 d.length d) s = .next t ∧
         t = { s with mem := t.mem, marks := t.marks, pool := { s.pool with
           batches := [{ b with sent := b.sent.filter (· ≠ pos), got := tabErase b.got pos }] } } ∧ MemIs s t oa d) ∧
     (∀ b l i st a, s.pool.batches = [b] → s.pool.later = [] → b.idx = some l → b.todo = [] → b.sent = [] → b.whole = none →
       ((b.failed = [] ∧ i = 0 ∧ st = 0) ∨ ((i, st) ∈ b.failed ∧ ∀ y, y ∈ b.failed → y ≠ (i, st) → i < y.1)) →
       b.statusGa = ownGa s a → a % 16 = 0 → Lp5xFree s a 16 → CanSignal s b.doneEn b.doneSync →
       ∃ t, exec (.lookupDone b.num) s = .next t ∧
         t = { s with mem := t.mem, marks := t.marks, regs := t.regs, syncs := t.syncs, pool := { s.pool with batches := [] } } ∧
         RegsBut [R.LOOKUP_ERR.val.off] s t ∧ fld t R.LOOKUP_ERR.val = (fld s R.LOOKUP_ERR.val + b.failed.length) % 2 ^ 32 ∧
         MemIs s t a (bytesLE 16 (st + 2 ^ 16 * b.failed.length + 2 ^ 32 * i)) ∧ DoneSignal s t b.doneEn b.doneSync))

/-- SKEW_WINDOW gives every counter of a watched table its window and opens a new one; SKEW_COUNTER_READ returns TOTAL and clears PEAK and TOTAL.
SKEW_EVALUATION decides to replicate exactly the rows with the shares of R307, and at the fifth overload in a row to move the first shard of the most
loaded chip to the least loaded one. SHARD_MOVE freezes, switches, releases and resumes. PREV_RECLAIM clears PREV_VALID of the rows whose
CUR_GEN is at or below the floor and frees their slots. REPLICA_SCRUB leaves an equal replica alone, counts a difference in non-canonical bits,
and drops a replica that differs in a used bit (R302, R305, R307 to R310). -/
def Obligations.PoolIsKept : Prop :=
  ∀ (s : State) (tb r : Nat), s.Inv → tb < 64 →
    (let e := dirEntry s tb r
     let at_ := dirAddr s tb r
     (∃ t, exec .skewWindow s = .next t ∧ t = { s with regs := t.regs, pool := { s.pool with win := [] } } ∧
       (∀ off, off < 0x430000 ∨ 0x434000 ≤ off → reg t off = reg s off) ∧
       ∀ k, k < 2048 → (let n := tabGet s.pool.win k 0
         let watched := (List.range 64).any (fun u => flag s (R.TD_CTL.EN u) && flag s (R.TD_CTL.WATCH u) && fld s (R.TD_CTL.WSLOT u) = k / 256)
         fld t (R.SKEW.LAST k) = (if watched then min n 65535 else fld s (R.SKEW.LAST k)) ∧
         fld t (R.SKEW.PEAK k) = (if watched then max (fld s (R.SKEW.PEAK k)) (min n 65535) else fld s (R.SKEW.PEAK k)) ∧
         fld t (R.SKEW.TOTAL k) = (if watched then (fld s (R.SKEW.TOTAL k) + n) % 2 ^ 32 else fld s (R.SKEW.TOTAL k)))) ∧
     (∀ w k, k < 2048 → ∃ t, exec (.skewCounterRead w k) s = .next t ∧ t = { s with regs := t.regs, out := t.out } ∧
       RegsBut [(R.SKEW.PEAK k).off, (R.SKEW.TOTAL k).off] s t ∧ fld t (R.SKEW.PEAK k) = 0 ∧ fld t (R.SKEW.TOTAL k) = 0 ∧
       fld t (R.SKEW.LAST k) = fld s (R.SKEW.LAST k) ∧ t.out = ⟨.response, [w.agent, fld s (R.SKEW.TOTAL k)], []⟩ :: s.out) ∧
     (∀ peers, s.pool.overload = [] → (∀ u, u < 64 → flag s (R.TD_CTL.EN u) = true → skewOff s u 2 = true) →
       (let l := s.pool.seen ++ peers
        ∃ t, exec (.skewEvaluation peers [] []) s = .next t ∧ t = { s with pool := { s.pool with acts := t.pool.acts, seen := [] } } ∧
          ∀ x, x ∈ t.pool.acts ↔ ∃ y, y ∈ l ∧ x = .replicate y.table y.row y.chip ∧ skewOff s y.table 0 = false ∧
            samplesOf l y.table y.row none ≤ 4 * samplesOf l y.table y.row (some y.chip) ∧
            samplesTable l y.table ≤ 100 * samplesOf l y.table y.row none)) ∧
     (∀ a b x y sh, (∀ u, u < 64 → (flag s (R.TD_CTL.EN u) = true ↔ u = tb)) → s.pool.overload = [(tb, 4)] → s.pool.seen = [] →
       skewOff s tb 1 = false → skewOff s tb 2 = true → 5 * (x + y) < 8 * x → sh < 256 → shardOwner s tb sh = a →
       (∀ z, z < sh → shardOwner s tb z ≠ a) →
       ∃ t, exec (.skewEvaluation [] [(tb, a, x), (tb, b, y)] []) s = .next t ∧
         t = { s with pool := { s.pool with acts := [.moveShard tb sh a b], overload := [] } }) ∧
     (∀ a b, (∃ t, exec (.shardMove tb r false a b .freeze) s = .next t ∧
         t = { s with pool := { s.pool with frozen := (tb, r, false) :: s.pool.frozen } }) ∧
       (∃ t, exec (.shardMove tb r false a b .resume) s = .next t ∧
         t = { s with pool := { s.pool with frozen := s.pool.frozen.filter (fun x => x ≠ (tb, r, false)) } }) ∧
       (r < 256 → b < 16 → chipId s ≠ a → s.coh.dir = [] → s.coh.serving = [] → dirAddr s tb 0 + 16 * tdRows s tb ≤ lp5xEnd →
         ∃ t, exec (.shardMove tb r false a b .switch) s = .next t ∧ t = { s with regs := t.regs } ∧
         RegsBut [(R.SHARD_MAP.OWNERS tb (r / 8)).off] s t ∧ ∀ z, z < 256 → shardOwner t tb z = if z = r then b else shardOwner s tb z) ∧
       (featOn s 3 = true → chipId s ≠ a → chipId s ≠ b → b < 16 → Lp5xSound s at_ 16 →
         ∃ t, exec (.shardMove tb r true a b .switch) s = .next t ∧ t = { s with mem := t.mem, marks := t.marks } ∧
         MemIs s t at_ (Entry.bytes ⟨b, false, false, 3, false, 0, 0, 0⟩)) ∧
       (featOn s 3 = true → chipId s = a → b < 16 → Lp5xSound s at_ 16 → e.former = true → e.curValid = true → e.prevValid = false →
         e.curGen ≤ lowGen s → ∃ t, exec (.shardMove tb r true a b (.release [])) s = .next t ∧
         t = { s with mem := t.mem, marks := t.marks, pool := { s.pool with used := setDel s.pool.used (2 ^ 24 * tb + e.curSlot) } } ∧
         MemIs s t at_ (Entry.bytes ⟨b, false, false, 3, false, 0, 0, 0⟩))) ∧
     (∀ lows, (∀ u, u < 64 → (flag s (R.TD_CTL.EN u) = true ↔ u = tb)) → Lp5xSound s (dirAddr s tb 0) (16 * tdRows s tb) →
       (let floor := lows.foldl min (lowGen s)
        let goes (x : Entry) : Bool := x.prevValid && x.curValid && x.curGen ≤ floor && x.role ≠ 3
        ∃ t, exec (.prevReclaim lows) s = .next t ∧
          t = { s with mem := t.mem, marks := t.marks, pool := { s.pool with used := t.pool.used } } ∧
          (∀ q, q < tdRows s tb → dirEntry t tb q = if goes (dirEntry s tb q) then { dirEntry s tb q with prevValid := false } else dirEntry s tb q) ∧
          (∀ x, x < dirAddr s tb 0 ∨ dirAddr s tb 0 + 16 * tdRows s tb ≤ x → memRead t.mem x = memRead s.mem x) ∧
          ∀ x, x ∈ t.pool.used ↔ x ∈ s.pool.used ∧
            ∀ q, q < tdRows s tb → goes (dirEntry s tb q) = true → x ≠ 2 ^ 24 * tb + (dirEntry s tb q).prevSlot)) ∧
     (∀ v : Sys2Proof.RowVer, s.pool.repl = [] → s.pool.recopy = [] → fld s (R.TD_STATE.STATE tb) ≠ 2 → Lp5xSound s at_ 16 → e.role = 2 → e.curValid = true →
       e.prevValid = false → v.gen = e.curGen → Lp5xFree s (slotAddr s tb e.curSlot) (tdRowBytes s tb) → s.events.length < 256 →
       (let row := exec (.replicaScrub [⟨tb, r, some v, none, false⟩]) s
        let d := memBytes s (slotAddr s tb e.curSlot) (tdRowBytes s tb)
        (d = v.data → row = .next s) ∧
        (d ≠ v.data → canonRow s tb d = canonRow s tb v.data → ∃ t, row = .next t ∧ t = { s with regs := t.regs } ∧
          RegsBut [R.BENIGN_DIVERGENCE.val.off] s t ∧ fld t R.BENIGN_DIVERGENCE.val = (fld s R.BENIGN_DIVERGENCE.val + 1) % 2 ^ 32) ∧
        (canonRow s tb d ≠ canonRow s tb v.data → ∃ t, row = .next t ∧
          t = { s with regs := t.regs, mem := t.mem, marks := t.marks, events := t.events, pool := { s.pool with recopy := [(tb, r)] } } ∧
          RegsBut [R.REPLICA_MISMATCH.val.off] s t ∧ fld t R.REPLICA_MISMATCH.val = (fld s R.REPLICA_MISMATCH.val + 1) % 2 ^ 32 ∧
          MemIs s t at_ (Entry.bytes { e with role := 0 }) ∧ Reported s t 0x0507 0x7F [tb, r]))))

namespace Sys2Proof.Machine

/-! ### The radio (R317 to R343) -/

/-- Nothing waits for the next slot boundary but the pending maps: no command, job, removal, plan, radio task or domain change. -/
structure QuietBoundary (s : State) : Prop where
  ovf : s.queues.slotOvf = []
  accepted : s.wdn.accepted = []
  jobs : s.wdn.jobs = []
  repl : s.pool.repl = []
  removals : s.wdn.removals = []
  candidates : s.wdn.candidates = []
  power : s.wdn.power.overrun = false ∧ s.wdn.power.wakeUp = false ∧ s.wdn.power.entering = none
  adjust : s.radio.adjust = []
  drain : ∀ q, q < 12 → flag s (R.QCLK.DRAINING q) = false
  radio : ∀ p, p < 12 → flag s (R.PART_CFG.RADIO p) = false
  tasks : ∀ x, x ∈ s.sched.tasks → x.part < 12
  planes : ∀ w, w < 2 → fld s (R.WV_PSTAT.VALID w) = 0
  domain : s.domain.block = none ∧ s.domain.pend = [] ∧ fld s R.ADR_CHIP.SELF_STATE = 0
  fell : s.sched.fell = [] ∧ s.sched.begun = []

/-- A semaphore that nobody waits for, and that can take a signal. -/
def FreeSemaphore (s : State) (n : Nat) : Prop :=
  (syncObj s n).en = true ∧ (syncObj s n).type = 0 ∧ (syncObj s n).waiters = [] ∧ (syncObj s n).value < 2 ^ 32 - 1

/-- The object's value has changed by the signal or grant given. -/
def ValuesAre (s t : State) (f : Nat → Nat) : Prop := ∀ m, syncObj t m = { syncObj s m with value := f m }

/-- The bytes lie at the address. -/
def BytesAt (t : State) (a : Nat) (d : List Byte) : Prop := ∀ j, j < d.length → memRead t.mem (a + j) = d.getD j 0

end Sys2Proof.Machine

/-- LANE_LOCK and LANE_LOCK_LOSS set and clear a lane's lock, and a loss takes an UP link down and is reported. LINK_UP comes once every lane of the
mode has locked. MULTIBLOCK counts a failed one and remembers its samples. SYMBOL_LAND takes a unit of FREE_SYNC, lands the header and the antenna
blocks in the next buffer and signals SYM_SYNC, or drops the symbol. SYMBOL_LAUNCH sends the buffer that names the symbol, or zeros. ARM arms one
SYSREF pulse (R317 to R320, R322 to R325). -/
def Obligations.RadioLinksAndSymbols : Prop :=
  ∀ (s : State) (lane slot j : Nat), s.Inv → lane < 8 → j < 14 →
    (let bw := fld s R.KCTL.BW
     let n := fftSize bw + cpLen bw j
     let size := 4 * n
     let held := linkHeld s 2 0
     let m := jmode (fld s R.JRX_CTL.MODE)
     let locks := bitOf (fld s R.JRX_STAT.LANE_LOCK)
     let stat := R.JRX_STAT.LANE_LOCK.off
     (held = false → flag s R.JRX_CTL.EN = true → lane < m.lanes → ∃ t, exec (.laneLock lane) s = .next t ∧ t = { s with regs := t.regs } ∧
       RegsBut [stat] s t ∧ BitsAre (reg s stat) (reg t stat) [(lane, true)]) ∧
     (locks lane = true → flag s R.JRX_STAT.LINK_UP = true → s.events.length < 256 → ∃ t, exec (.laneLockLoss lane) s = .next t ∧
       t = { s with regs := t.regs, events := t.events } ∧ RegsBut [stat] s t ∧
       BitsAre (reg s stat) (reg t stat) [(lane, false), (8, false), (9, false)] ∧ Reported s t 0x0405 101 [2 ^ lane]) ∧
     (flag s R.JRX_CTL.EN = true → 0 < m.lanes → (∀ i, i < m.lanes → locks i = true) → ∃ t, exec .linkUp s = .next t ∧
       t = { s with regs := t.regs, radio := { s.radio with lemcMoved := false } } ∧ RegsBut [stat] s t ∧
       BitsAre (reg s stat) (reg t stat) [(8, true), (9, true)]) ∧
     (∀ parts, flag s R.JRX_STAT.LINK_UP = true → (∃ t, exec (.multiblock lane false parts) s = .next t ∧
         t = { s with regs := t.regs, radio := { s.radio with
           bad := s.radio.bad ++ parts, crcSec := tabSet s.radio.crcSec lane (tabGet s.radio.crcSec lane 0 + 1) } } ∧
         RegsBut [R.JRX_CRC_ERR.val.off] s t ∧ fld t R.JRX_CRC_ERR.val = (fld s R.JRX_CRC_ERR.val + 1) % 2 ^ 32) ∧
       exec (.multiblock lane true parts) s = .next s) ∧
     (∃ t, exec .arm s = .next t ∧ t = { s with regs := t.regs } ∧ RegsBut [R.JSYSREF.ARM.off] s t ∧
       BitsAre (reg s R.JSYSREF.ARM.off) (reg t R.JSYSREF.ARM.off) [(1, true), (2, false)]) ∧
     (∀ samples ga, (let ants := m.ants
       let free := fld s R.RXB_SYNC.FREE_SYNC
       let done := fld s R.RXB_SYNC.SYM_SYNC
       flag s R.KCTL.RX_EN = true → flag s R.JRX_CTL.EN = true → flag s R.JRX_STAT.LINK_UP = true → s.radio.bad = [] → FreeSemaphore s free →
       (0 < (syncObj s free).value → FreeSemaphore s done → free ≠ done → rxBuf s s.radio.rxNext = ownGa s ga → ga % 128 = 0 →
         Lp5xFree s ga (128 + ants * blkBytes bw) → (∀ a, a < ants → (samples.getD a []).length = size) →
         ∃ t, exec (.symbolLand slot j samples) s = .next t ∧ t = { s with mem := t.mem, marks := t.marks, syncs := t.syncs, radio := t.radio } ∧
           t.radio = { s.radio with
             seq := s.radio.seq + 1, rxNext := if fld s R.RXB_CFG.NBUF ≤ s.radio.rxNext then 0 else s.radio.rxNext + 1 } ∧
           ValuesAre s t (fun o => (syncObj s o).value + (if o = done then 1 else 0) - (if o = free then 1 else 0)) ∧
           BytesAt t ga (bytesLE 4 slot ++ bytesLE 4 (j + 2 ^ 4 * ants + 2 ^ 8 * boundMap s slot 0) ++ bytesLE 4 (correctedNow s) ++
             bytesLE 4 (n + 2 ^ 16 * cpLen bw j) ++ bytesLE 4 0 ++ bytesLE 4 s.radio.seq ++ List.replicate 104 0) ∧
           (∀ a, a < ants → BytesAt t (ga + 128 + a * blkBytes bw) (samples.getD a [])) ∧
           ∀ x, x < ga ∨ ga + 128 + ants * blkBytes bw ≤ x → memRead t.mem x = memRead s.mem x) ∧
       ((syncObj s free).value = 0 → ∃ t, exec (.symbolLand slot j samples) s = .next t ∧
         t = { s with regs := t.regs, radio := { s.radio with seq := s.radio.seq + 1 } } ∧
         RegsBut [R.JRX_OVERRUN.val.off] s t ∧ fld t R.JRX_OVERRUN.val = (fld s R.JRX_OVERRUN.val + 1) % 2 ^ 32))) ∧
     (∀ ga, (let ants := (jmode (fld s R.JTX_CTL.MODE)).ants
       let ready := fld s R.TXB_SYNC.READY_SYNC
       let free := fld s R.TXB_SYNC.FREE_SYNC
       flag s R.KCTL.TX_EN = true → flag s R.JTX_CTL.EN = true → 2 < fld s R.JRX_CTL.MODE →
       ((syncObj s ready).value = 0 → ∃ t, exec (.symbolLaunch slot j) s = .next t ∧ t = { s with regs := t.regs, out := ⟨.symbol, [slot, j, 0], []⟩ :: s.out } ∧
         RegsBut [R.JTX_UNDERRUN.val.off] s t ∧ fld t R.JTX_UNDERRUN.val = (fld s R.JTX_UNDERRUN.val + 1) % 2 ^ 32) ∧
       (0 < (syncObj s ready).value → FreeSemaphore s ready → FreeSemaphore s free → free ≠ ready → txBuf s s.radio.txNext = ownGa s ga →
         ga % 128 = 0 → Lp5xSound s ga (128 + ants * blkBytes bw) → numLE (memBytes s ga 4) = slot → slot < 2 ^ 32 →
         numLE (memBytes s (ga + 4) 4) % 16 = j →
         ∃ t, exec (.symbolLaunch slot j) s = .next t ∧ t = { s with syncs := t.syncs, out := t.out, radio := t.radio } ∧
           t.radio = { s.radio with txNext := if fld s R.TXB_CFG.NBUF ≤ s.radio.txNext then 0 else s.radio.txNext + 1 } ∧
           t.out = ⟨.symbol, [slot, j, 1], (List.range ants).flatMap (fun a => memBytes s (ga + 128 + a * blkBytes bw) size)⟩ :: s.out ∧
           ValuesAre s t (fun o => (syncObj s o).value + (if o = free then 1 else 0) - (if o = ready then 1 else 0))))))

/-- KSLOT_PHASE is written while the radio is off, and where the new boundary does not lie ahead whole slots are skipped; while an enable is set
the write is ignored and reported. SLOT_BOUNDARY, once KSLOT_PHASE has come, adds 500 000 to it and 1 to KSLOT_NUM, sends SYSREF where it is periodic,
makes a pending map whose target this is and whose CRC32C matches current, and binds the new slot to the current maps; before, only time
passes (R317, R333, R338). -/
def Obligations.SlotBoundariesAdvance : Prop :=
  ∀ (s : State), s.Inv →
    (∀ v : BitVec 32, (let p' := (nowNs s + 2 ^ 32 - v.toNat) % 2 ^ 32
      let k := if p' < 2 ^ 31 then p' / 500000 + 1 else 0
      (flag s R.KCTL.RX_EN = false → flag s R.KCTL.TX_EN = false → ∃ t, exec (.kslotPhase v) s = .next t ∧
        t = { s with regs := t.regs, radio := { s.radio with lemcMoved := t.radio.lemcMoved } } ∧
        RegsBut [R.KSLOT_PHASE.val.off, R.KSLOT_NUM.val.off] s t ∧
        fld t R.KSLOT_PHASE.val = (v.toNat + 500000 * k) % 2 ^ 32 ∧ fld t R.KSLOT_NUM.val = (fld s R.KSLOT_NUM.val + k) % 2 ^ 32) ∧
      (flag s R.KCTL.RX_EN = true ∨ flag s R.KCTL.TX_EN = true → s.events.length < 256 → ∃ t, exec (.kslotPhase v) s = .next t ∧
        t = { s with events := t.events } ∧ Reported s t 0x0802 100 [0x510004]))) ∧
    (∀ after, (let s' := advance s after
      let phase := fld s' R.KSLOT_PHASE.val
      let n := (fld s' R.KSLOT_NUM.val + 1) % 2 ^ 32
      let id := fld s' (R.KMAP_PEND.ID 0)
      let goes := flag s' (R.KMAP_PEND.VALID 0) = true ∧ n % 20 = 0 ∧ n / 20 % 2 ^ 23 = fld s' (R.KMAP_PEND.TARGET 0)
      (due s' phase = false → exec (.slotBoundary after) s = .next s') ∧
      (s.time.running = true → due s' phase = true → QuietBoundary s' → flag s' (R.KMAP_PEND.VALID 1) = false →
        (goes → id ≠ 0 → Lp5xSound s' (mapAddr s' id) 256 ∧ mapCrcOk (memBytes s' (mapAddr s' id) 256) = true) →
        ∃ t, exec (.slotBoundary after) s = .next t ∧ t = { s' with regs := t.regs, radio := t.radio, out := t.out } ∧
          RegsBut [R.KSLOT_PHASE.val.off, R.KSLOT_NUM.val.off, R.KMAP_CUR.UL.off, (R.KMAP_PEND.ID 0).off, R.JSYSREF.ARM.off,
            R.JRX_STAT.SYSREF_ERR.off] s' t ∧
          fld t R.KSLOT_PHASE.val = (phase + 500000) % 2 ^ 32 ∧ fld t R.KSLOT_NUM.val = n ∧
          fld t R.KMAP_CUR.DL = fld s' R.KMAP_CUR.DL ∧
          (goes → fld t R.KMAP_CUR.UL = id ∧ flag t (R.KMAP_PEND.VALID 0) = false) ∧
          (¬ goes → fld t R.KMAP_CUR.UL = fld s' R.KMAP_CUR.UL ∧ reg t (R.KMAP_PEND.ID 0).off = reg s' (R.KMAP_PEND.ID 0).off) ∧
          t.radio.bound.head? = some (n, fld t R.KMAP_CUR.UL, fld t R.KMAP_CUR.DL) ∧
          (flag s' R.JSYSREF.PERIODIC = true → t.out = ⟨.sysref, [phase], []⟩ :: s'.out))))

/-- KMAP_REGISTER and KMAP_SELECT start an operation with BUSY; KMAP_OPERATION_END ends it with BAD_ID for ID 0, IN_USE for a map in use, OK and the verified bit for a sound
map, BAD_MAP for another, UNVERIFIED or LATE for a SELECT that cannot be met, and OK with the pending map for one that can. WFALSE counts a
false alarm. WHISPER_WINDOW declares a detection at the H-th hit in a row within one bin, and starts again at a miss. WADJ_ADJUST moves each threshold by
its false alarms of the last ten minutes (R334, R336 to R338, R340 to R343). -/
def Obligations.MapsAndWhispers : Prop :=
  ∀ (s : State), s.Inv →
    (∀ (w : Who) (v : BitVec 32), radioPageOpen s w = true → flag s R.KMAP_RESULT.BUSY = false →
      (let x := v.toNat
       let id := x % 256
       let dir := x / 256 % 2
       (∃ t, exec (.kmapRegister w v) s = .next t ∧ t = { s with regs := t.regs, radio := { s.radio with op := some (.register id) } } ∧
         RegsBut [R.KMAP_RESULT.ID.off, (R.KMAP_VERIFIED.val (id / 32)).off] s t ∧ flag t R.KMAP_RESULT.BUSY = true ∧ fld t R.KMAP_RESULT.ID = id ∧
         (id ≠ 0 → mapVerified t id = (mapInUse s id && mapVerified s id))) ∧
       (∃ t, exec (.kmapSelect w v) s = .next t ∧
         t = { s with regs := t.regs, radio := { s.radio with op := some (.select id dir (x / 2 ^ 9)) } } ∧
         RegsBut [R.KMAP_RESULT.ID.off] s t ∧ flag t R.KMAP_RESULT.BUSY = true ∧ fld t R.KMAP_RESULT.ID = id ∧ fld t R.KMAP_RESULT.DIR = dir) ∧
       (∃ t, exec (.wfalse w v) s = .next t ∧ t = { s with regs := t.regs, radio := { s.radio with
           falses := (x % 16, 2 ^ 32 * epochEff s + nowNs s) :: s.radio.falses } } ∧
         RegsBut [(R.WFCNT.val (x % 16)).off] s t ∧ fld t (R.WFCNT.val (x % 16)) = (fld s (R.WFCNT.val (x % 16)) + 1) % 2 ^ 32))) ∧
    (∀ id, s.radio.op = some (.register id) → id < 256 →
      (let map := memBytes s (mapAddr s id) 256
       id = 0 ∨ mapInUse s id = true ∨ Lp5xSound s (mapAddr s id) 256 →
       ∃ t, exec .kmapOperationEnd s = .next t ∧ t = { s with regs := t.regs, radio := { s.radio with op := none } } ∧
         RegsBut [R.KMAP_RESULT.ID.off, (R.KMAP_VERIFIED.val (id / 32)).off] s t ∧ flag t R.KMAP_RESULT.BUSY = false ∧
         fld t R.KMAP_RESULT.STATUS = (if id = 0 then 1 else if mapInUse s id = true then 3 else if mapGood s id map then 0 else 2) ∧
         (id ≠ 0 → mapVerified t id = if mapInUse s id = true then mapVerified s id else mapGood s id map))) ∧
    (∀ id dir target, s.radio.op = some (.select id dir target) → id < 256 → dir < 2 → target < 2 ^ 23 →
      (let cur := fld s R.KSLOT_NUM.val / 20
       let ahead := (target + 2 ^ 23 - (cur + 1) % 2 ^ 23) % 2 ^ 23 + 1
       let slots := 20 * (cur + ahead) - fld s R.KSLOT_NUM.val - 1
       let wait : Int := signed 32 (fld s R.KSLOT_PHASE.val + 2 ^ 32 - nowNs s) + 500000 * slots
       ∃ t, exec .kmapOperationEnd s = .next t ∧ t = { s with regs := t.regs, radio := { s.radio with op := none } } ∧
         RegsBut [R.KMAP_RESULT.ID.off, (R.KMAP_PEND.ID dir).off] s t ∧ flag t R.KMAP_RESULT.BUSY = false ∧
         (if mapVerified s id = false then fld t R.KMAP_RESULT.STATUS = 5 ∧ reg t (R.KMAP_PEND.ID dir).off = reg s (R.KMAP_PEND.ID dir).off
          else if wait < 50000 ∨ 255 < ahead then
            fld t R.KMAP_RESULT.STATUS = 4 ∧ reg t (R.KMAP_PEND.ID dir).off = reg s (R.KMAP_PEND.ID dir).off
          else fld t R.KMAP_RESULT.STATUS = 0 ∧ fld t (R.KMAP_PEND.ID dir) = id ∧ fld t (R.KMAP_PEND.TARGET dir) = target ∧
            flag t (R.KMAP_PEND.VALID dir) = true))) ∧
    (∀ c sf first time samples power x, c < 16 → 6 ≤ sf → sf ≤ 13 → flag s R.WCTL.EN = true → flag s R.JRX_STAT.LINK_UP = true →
      flag s (R.WCH.EN c) = true → bitOf (fld s (R.WCH.SFMASK c)) (sf - 6) = true → outOfBand s c = false → fld s R.PWR_STATE.STATE = 3 →
      tabFind s.radio.search (16 * c + sf) = some x → x.ignore = 0 → s.events.length < 256 →
      (let thr := fld s (R.WTHR.val (sf - 6)) + fld s (R.WADJ.val c)
       let row := exec (.whisperWindow c sf first time samples power) s
       let put (y : Search) : RadioSt := { s.radio with search := tabSet s.radio.search (16 * c + sf) y }
       (isHit power thr = false → row = .next { s with radio := put { x with run := 0 } }) ∧
       (isHit power thr = true → x.run + 1 < fld s R.WCTL.H → x.run ≠ 0 → nearBin power.length (peakBin power) x.last = true →
         row = .next { s with radio := put { x with run := x.run + 1, last := peakBin power } }) ∧
       (isHit power thr = true → fld s R.WCTL.H ≤ x.run + 1 → x.run ≠ 0 → nearBin power.length (peakBin power) x.last = true →
         ∃ t, row = .next t ∧ t = { s with regs := t.regs, events := t.events, radio := put ⟨0, 0, 0, 0, 0, 16⟩ } ∧
           RegsBut [(R.WCNT.val c).off] s t ∧ fld t (R.WCNT.val c) = (fld s (R.WCNT.val c) + 1) % 2 ^ 32 ∧
           Reported s t 0x0404 101 ((bytesLE 4 (c + 2 ^ 4 * (sf - 6) + 2 ^ 8) ++ bytesLE 4 (x.bin + 2 ^ 16 * lambdaDb power) ++ bytesLE 4 x.time ++
             bytesLE 4 0).map (fun b => b.toNat))))) ∧
    (let recent := s.radio.falses.filter (fun f => 2 ^ 32 * epochEff s + nowNs s < f.2 + 600000000000)
     let target := fld s R.WFA_TARGET.val
     let rate (c : Nat) := 6 * (recent.filter (fun f => f.1 = c)).length
     let w (c : Nat) := fld s (R.WADJ.val c)
     exec .wadjAdjust s = .next { s with radio := { s.radio with falses := recent, adjust := (List.range 16).map (fun c =>
       (c, if 3 * target < 2 * rate c then (if w c < 48 then min (w c + 4) 48 else w c) else if 2 * rate c < target then w c - 2 else w c)) } })

namespace Sys2Proof.Machine

/-! ### The Weave fabric (R361, R369 to R377) -/

/-- Weave instance `w` is as given, WV_FIFO shows the descriptors it holds, the other instance and every register not listed are as before. -/
def WeaveIs (s t : State) (w : Nat) (x : Weave) (l : List Nat) : Prop :=
  weave t w = x ∧ (∀ v, v ≠ w → weave t v = weave s v) ∧ RegsBut ((R.WV_FIFO.val w).off :: l) s t ∧
    fld t (R.WV_FIFO.val w) = x.fifo.length % 2 ^ 9

/-- The blocks with a status applied to one of them. -/
def flagged (v : Weave) (n st : Nat) : List WBlock := v.blocks.map (fun b => if b.num = n then { b with flags := st :: b.flags } else b)

/-- The blocks with a decoded segment added to one of them, and the statuses given. -/
def withSegment (v : Weave) (n : Nat) (seg : List Byte) (iters : Nat) (st : List Nat) : List WBlock :=
  v.blocks.map (fun b => if b.num = n then
    { b with segs := b.segs ++ [seg], maxIter := max b.maxIter iters, total := b.total + iters, flags := st ++ b.flags } else b)

/-- The record of a block of one codeword (Table 11-9). -/
def wantRecord (status iters : Nat) (crcOk : Bool) (tag now : Nat) : List Byte :=
  bytesLE 16 (status + 2 ^ 8 + 2 ^ 12 * iters + 2 ^ 25 * num crcOk + 2 ^ 32 * tag + 2 ^ 64 * now + 2 ^ 96 * iters)

end Sys2Proof.Machine

/-- The message of an edge is the product of the signs of the other edges times min(127, (W × m + 8) >> 4), m the smallest magnitude of the
others; and a codeword converges exactly when its bits satisfy every used check, after ITER_MAX iterations otherwise (R371, R372). -/
def Obligations.DecoderMessagesAndConvergence : Prop :=
  (∀ (w : List Nat) (q : List Int) (e : Nat), 2 ≤ q.length → w.length = q.length → (∀ x, x ∈ q → x.natAbs ≤ 127) → e < q.length →
    (checkMsgs w q).getD e 0 = ((q.eraseIdx e).map (fun x => if x < 0 then (-1 : Int) else 1)).prod *
      ((min 127 ((w.getD e 0 * ((q.eraseIdx e).map Int.natAbs).foldl min 127 + 8) / 16) : Nat) : Int)) ∧
  ∀ (c : List Byte) (f : Nat) (llr : List Byte),
    (let d := ldpcRun c f llr none
     d.conv = syndromeOk c d.l ∧ 1 ≤ d.iters ∧ d.iters ≤ cfgIter c ∧ (d.conv = false → d.iters = cfgIter c))

/-- CODEWORD_DESCRIPTOR stages bytes; with byte 0x3F it commits a descriptor, which starts a block or joins the one being committed, and is
dropped and counted where 256 are held. CODEWORD_DECODE starts the codeword at the front with its LLRs, or passes it over: LATE at its deadline,
POISON for poisoned LLRs, the status of a descriptor that cannot be decoded. CODEWORD_END writes the segment, and for the last codeword the record of
Table 11-9, and signals. DECODE_DEADLINE stops the codeword in progress with its current bits and passes over those not started. WEAVE_SCRUB counts a
benign divergence, and repairs and reports another and marks records SUSPECT (R361, R369, R371, R372, R374, R375, R377). -/
def Obligations.WeaveServesCodewords : Prop :=
  ∀ (s : State) (w : Nat), s.Inv → w < 2 →
    (let v := weave s w
     (∀ (by_ : Who) (d : List Byte), (let key := 1024 * (3 + 2 * w) + stageSrc s by_
       let x : CwItem := ⟨by_.core?.bind (activePart s), d, v.next⟩
       let staged : Queues := { s.queues with staging := tabErase s.queues.staging key }
       weavePageOpen s by_ = true → weavePowered s w = true → tabFind s.queues.staging key = none → d.length = 64 →
       (∃ t, exec (.codewordDescriptor by_ w 8 (d.take 16)) s = .next t ∧ t = { s with queues := { s.queues with
         staging := tabSet s.queues.staging key (List.replicate 8 0 ++ d.take 16 ++ List.replicate 40 0) } }) ∧
       (v.ctx = none → x.cw = 0 → x.c ≤ 16 → (∀ b, b ∈ v.blocks → b.num ≠ v.next) → v.fifo.length < 256 →
         ∃ t, exec (.codewordDescriptor by_ w 0 d) s = .next t ∧ t = { s with queues := staged, weave := t.weave, regs := t.regs } ∧
           WeaveIs s t w { v with
             next := v.next + 1, blocks := v.blocks ++ [⟨v.next, x.c, x.slot, 1, [], false, 0, 0, false, []⟩], fifo := v.fifo ++ [x]
             ctx := if x.c = 1 then none else some v.next } []) ∧
       (v.ctx = none → x.cw = 0 → 2 ≤ x.c → x.c ≤ 16 → (∀ b, b ∈ v.blocks → b.num ≠ v.next) → 256 ≤ v.fifo.length → s.events.length < 256 →
         ∃ t, exec (.codewordDescriptor by_ w 0 d) s = .next t ∧
           t = { s with queues := staged, weave := t.weave, regs := t.regs, events := t.events } ∧
           WeaveIs s t w { v with
             next := v.next + 1, blocks := v.blocks ++ [⟨v.next, x.c, x.slot, 1, [5], false, 0, 0, false, []⟩], ctx := some v.next }
             [(R.WV_DROPPED.val w).off] ∧
           fld t (R.WV_DROPPED.val w) = (fld s (R.WV_DROPPED.val w) + 1) % 2 ^ 32 ∧ Reported s t 0x0605 (98 + w) [1, w]) ∧
       (∀ n b, v.ctx = some n → weaveBlock s w n = some b → b.c = x.c → b.next = x.cw → b.slot = x.slot → x.cw < x.c → x.c ≤ 16 → v.fifo.length < 256 →
         ∃ t, exec (.codewordDescriptor by_ w 0 d) s = .next t ∧ t = { s with queues := staged, weave := t.weave, regs := t.regs } ∧
           WeaveIs s t w { v with
             blocks := v.blocks.map (fun y => if y.num = n then { y with next := x.cw + 1 } else y), fifo := v.fifo ++ [{ x with block := n }]
             ctx := if x.c = x.cw + 1 then none else some n } []))) ∧
     (∀ x rest a, v.cur = none → v.fifo = x :: rest → flag s (R.WV_CTL.EN w) = true → weavePowered s w = true → flag s R.PWR_STATE.SHED = false →
       (weaveBlock s w x.block).any (fun b => b.skip) = false → x.llrGa = ownGa s a →
       (let passed (st : Nat) : Prop := ∃ t, exec (.codewordDecode w) s = .next t ∧ t = { s with weave := t.weave, regs := t.regs } ∧
          WeaveIs s t w { v with fifo := rest, blocks := flagged v x.block st } []
        (∀ pl c, codewordCheck s w x = .inr (pl, c) → due s (x.deadline s) = false → Lp5xSound s a x.e →
          ∃ t, exec (.codewordDecode w) s = .next t ∧ t = { s with weave := t.weave, regs := t.regs } ∧
            WeaveIs s t w { v with cur := some ⟨x, pl, c, memBytes s a x.e⟩ } []) ∧
        (x.cw + 1 ≠ x.c → (∀ st, codewordCheck s w x = .inl st → due s (x.deadline s) = false → passed st) ∧
          (slotPlane s w x.slot = none → due s (x.deadline s) = true → passed 3) ∧
          ∀ p, codewordCheck s w x = .inr p → (due s (x.deadline s) = true → passed 3) ∧
            (due s (x.deadline s) = false → Lp5xFree s a x.e → poisoned s a x.e = true → passed 7)))) ∧
     (∀ x pl c llr a, v.cur = some ⟨x, pl, c, llr⟩ → bitOf (fld s (R.WV_PSTAT.FAILED w)) pl = false → x.outGa = ownGa s a →
       (let d := ldpcRun c x.fill llr none
        let seg := packBits d.l ((cfgK c - x.fill) / 8)
        let ok := decide (3 ≤ seg.length) && decide (crc24 seg = 0)
        let counts (t : State) : Prop := fld t (R.WV_CW_COUNT.val w) = (fld s (R.WV_CW_COUNT.val w) + 1) % 2 ^ 32 ∧
          fld t (R.WV_ITER_TOTAL.val w) = (fld s (R.WV_ITER_TOTAL.val w) + d.iters) % 2 ^ 32
        Lp5xFree s a seg.length →
        (x.cw + 1 ≠ x.c → ∃ t, exec (.codewordEnd w) s = .next t ∧
          t = { s with weave := t.weave, regs := t.regs, mem := t.mem, marks := t.marks } ∧ MemIs s t a seg ∧ counts t ∧
          WeaveIs s t w { v with
            fifo := v.fifo.drop 1, cur := none, blocks := withSegment v x.block seg d.iters (if d.conv then [] else [2]) }
            [(R.WV_CW_COUNT.val w).off, (R.WV_ITER_TOTAL.val w).off]) ∧
        (∀ b r, x.cw = 0 → x.c = 1 → weaveBlock s w x.block = some b → b.c = 1 → b.segs = [] → b.flags = [] → b.maxIter = 0 → b.total = 0 →
          b.suspect = false → x.recGa = ownGa s r → r % 16 = 0 → Lp5xFree s r 16 → CanSignal s x.doneEn x.doneSync →
          ∃ t, exec (.codewordEnd w) s = .next t ∧
            t = { s with weave := t.weave, regs := t.regs, mem := t.mem, marks := t.marks, syncs := t.syncs } ∧ counts t ∧
            DoneSignal s t x.doneEn x.doneSync ∧
            (∀ y, memRead t.mem y =
              if r ≤ y ∧ y < r + 16 then
                (wantRecord (if d.conv = false then 2 else if ok then 0 else 1) d.iters ok x.tag (nowNs s)).getD (y - r) 0
              else if a ≤ y ∧ y < a + seg.length then seg.getD (y - a) 0 else memRead s.mem y) ∧
            WeaveIs s t w { v with
              fifo := v.fifo.drop 1, cur := none, blocks := v.blocks.filter (fun y => y.num ≠ x.block), recs := (pl, x.recGa) :: v.recs }
              [(R.WV_CW_COUNT.val w).off, (R.WV_ITER_TOTAL.val w).off]))) ∧
     (∀ after rows, (let s' := advance s after
       (∀ x, v.cur = none → v.fifo = [x] → x.cw + 1 ≠ x.c → due s' (x.deadline s') = true →
         (weaveBlock s' w x.block).any (fun b => b.skip) = false → (slotPlane s' w x.slot = none ∨ ∃ p, codewordCheck s' w x = .inr p) →
         ∃ t, exec (.decodeDeadline after w rows) s = .next t ∧ t = { s' with weave := t.weave, regs := t.regs } ∧
           WeaveIs s' t w { v with fifo := [], blocks := flagged v x.block 3 } []) ∧
       (∀ r, v.cur = some r → due s' (r.item.deadline s') = false → exec (.decodeDeadline after w rows) s = .next s') ∧
       (∀ x pl c llr a, v.cur = some ⟨x, pl, c, llr⟩ → v.fifo.length ≤ 1 → due s' (x.deadline s') = true → x.cw + 1 ≠ x.c → x.outGa = ownGa s' a →
         (let d := ldpcRun c x.fill llr (some rows)
          let seg := packBits d.l ((cfgK c - x.fill) / 8)
          Lp5xFree s' a seg.length →
          ∃ t, exec (.decodeDeadline after w rows) s = .next t ∧
            t = { s' with weave := t.weave, regs := t.regs, mem := t.mem, marks := t.marks } ∧ MemIs s' t a seg ∧
            fld t (R.WV_LATE.val w) = (fld s' (R.WV_LATE.val w) + 1) % 2 ^ 32 ∧
            WeaveIs s' t w { v with fifo := [], cur := none, blocks := withSegment v x.block seg d.iters [3] }
              [(R.WV_LATE.val w).off, (R.WV_ITER_TOTAL.val w).off])))) ∧
     (∀ r p a, weavePowered s w = true → tabFind v.planes r.plane = some p →
       (let g := cellFrame p.frames r.cell
        (flag s (R.WV_CTL.SCRUB_EN w) = false → exec (.weaveScrub w [r]) s = .next s) ∧
        (flag s (R.WV_CTL.SCRUB_EN w) = true → g ≠ r.data → canonFrame g = canonFrame r.data →
          ∃ t, exec (.weaveScrub w [r]) s = .next t ∧ t = { s with weave := t.weave, regs := t.regs } ∧
            WeaveIs s t w { v with recs := [] } [(R.WV_BENIGN.val w).off] ∧
            fld t (R.WV_BENIGN.val w) = (fld s (R.WV_BENIGN.val w) + 1) % 2 ^ 32) ∧
        (flag s (R.WV_CTL.SCRUB_EN w) = true → canonFrame g ≠ canonFrame r.data → v.recs = [(r.plane, ownGa s a)] → Lp5xSound s (a + 3) 1 →
          s.events.length < 256 → ∃ t, exec (.weaveScrub w [r]) s = .next t ∧
            t = { s with weave := t.weave, regs := t.regs, events := t.events, mem := t.mem, marks := t.marks } ∧
            Reported s t 0x0403 (98 + w) [w, r.plane, r.cell] ∧ MemIs s t (a + 3) [memRead s.mem (a + 3) ||| 1] ∧
            fld t (R.WV_SCRUB_FIX.val w) = (fld s (R.WV_SCRUB_FIX.val w) + 1) % 2 ^ 32 ∧
            WeaveIs s t w { v with recs := [], blocks := v.blocks.map (fun b =>
              if b.segs ≠ [] ∧ v.bound.contains (b.slot, r.plane) then { b with suspect := true } else b) } [(R.WV_SCRUB_FIX.val w).off]))))

namespace Sys2Proof.Machine

/-! ### Time (R379 to R404) -/

/-- A time of a source's deadline, moved by a step. -/
def movedBy (d : Int) (x : Option Nat) : Option Nat := x.map (fun y => wrapTo 32 ((y : Int) + d))

/-- Every armed leash deadline and the deadline of every timed QRECV and SWAIT of a core have moved by D (R390). -/
def DeadlinesMoved (k k' : Core) (d : Int) : Prop :=
  k' = { k with sys := k'.sys, run := k'.run, asyncs := k'.asyncs, held := k'.held } ∧ SysBut [R.LEASH_DL.val.off] k k' ∧
    k'.sysFld R.LEASH_DL.val = (if k.sysFlag R.LEASH_CTL.EN = true then wrapTo 32 ((k.sysFld R.LEASH_DL.val : Int) + d) else k.sysFld R.LEASH_DL.val) ∧
    k'.run = (match k.run with
      | .recv q ea rd x => .recv q ea rd (movedBy d x)
      | .wait o c n rd x => .wait o c n rd (movedBy d x)
      | r => r) ∧
    k'.asyncs = k.asyncs.map (fun a => { a with deadline := movedBy d a.deadline }) ∧ (k.held = none → k'.held = none)

/-- TIME_STAT. -/
def timeStat : Nat := R.TIME_STAT.HALF.off

/-- The extended time has moved by D at one tick, STEP_SEQ counts the step, deadlines have moved, and the slot phase lies ahead: by skipped slots
after a forward step, within one slot after a backward one (R387, R389, R390). -/
def Stepped (s t : State) (d : Int) : Prop :=
  extTime t = wrapTo 64 ((extTime s : Int) + d) ∧ fld t R.TIME_STAT.STEP_SEQ = (fld s R.TIME_STAT.STEP_SEQ + 1) % 2 ^ 8 ∧
    fld t R.TIME_STEP.val = 0 ∧ (∀ c, DeadlinesMoved (core s c) (core t c) d) ∧
    (0 ≤ d → due t (fld t R.KSLOT_PHASE.val) = false ∧ ∃ k, fld t R.KSLOT_PHASE.val = (fld s R.KSLOT_PHASE.val + 500000 * k) % 2 ^ 32 ∧
      fld t R.KSLOT_NUM.val = (fld s R.KSLOT_NUM.val + k) % 2 ^ 32) ∧
    (d < 0 → signed 32 (fld t R.KSLOT_PHASE.val + 2 ^ 32 - nowNs t) ≤ 500000 ∧ fld t R.KSLOT_NUM.val = fld s R.KSLOT_NUM.val ∧
      ∃ k : Nat, fld t R.KSLOT_PHASE.val = wrapTo 32 ((fld s R.KSLOT_PHASE.val : Int) - 500000 * k))

/-- The remaining slew after `v` ns have been added to it, saturating at ±(2^31 − 1) ns, in units of 2^-24 ns (R387, R403). -/
def wantSlew (s : State) (v : BitVec 32) : Int := max (-((2 ^ 31 - 1) * 2 ^ 24)) (min ((2 ^ 31 - 1) * 2 ^ 24) (s.time.slew + v.toInt * 2 ^ 24))

end Sys2Proof.Machine

/-- TIME_WRAP runs the counter to its wrap: WRAP_PENDING is set, Warden is interrupted and EPOCH_EFF counts one more. TIME_EPOCH_LATE runs it to the rise
of HALF with WRAP_PENDING still set: EPOCH counts, the event is reported, and EPOCH_EFF stays. TIME_EPOCH sets EPOCH and clears
WRAP_PENDING. TIME_NS latches EPOCH_EFF and FRAC for its source. TIME_INC, TIME_SLEW and TIME_STEP act, are held while the radio runs, and are ignored
and reported out of range; HELD_APPLY applies what is held; REF_TUNE is never held (R380 to R384, R387 to R390, R403). -/
def Obligations.ClockIsDisciplined : Prop :=
  ∀ (s : State), s.Inv → s.time.frac < 2 ^ 24 → s.events.length < 256 →
    (s.time.running = true → s.time.slew = 0 → 0x0410AAAB ≤ s.time.inc → s.time.inc ≤ 0x0412AAAB →
      (let ran (t : State) (irq : Bool) : Prop :=
         t = { s with regs := t.regs, time := t.time, events := t.events } ∧
           t.time = { s.time with frac := t.time.frac, tuned := t.time.tuned, wrapIrq := irq } ∧
           RegsBut [R.TIME_NS.NS.off, R.TIME_SLEW.val.off, R.TIME_EPOCH.EPOCH.off, timeStat] s t
       (flag s R.TIME_STAT.WRAP_PENDING = false →
         ∃ t, exec .timeWrap s = .next t ∧ ran t true ∧ t.events = s.events ∧ counter t < s.time.inc ∧ flag t R.TIME_STAT.WRAP_PENDING = true ∧
           fld t R.TIME_EPOCH.EPOCH = fld s R.TIME_EPOCH.EPOCH ∧ epochEff t = (epochEff s + 1) % 2 ^ 32) ∧
       (flag s R.TIME_STAT.WRAP_PENDING = true → counter s < 2 ^ 55 →
         ∃ t, exec .timeEpochLate s = .next t ∧ ran t s.time.wrapIrq ∧ 2 ^ 55 ≤ counter t ∧ counter t < 2 ^ 55 + s.time.inc ∧
           flag t R.TIME_STAT.WRAP_PENDING = false ∧ flag t R.TIME_STAT.EPOCH_LATE = true ∧ flag t R.TIME_STAT.HALF = true ∧
           fld t R.TIME_EPOCH.EPOCH = (fld s R.TIME_EPOCH.EPOCH + 1) % 2 ^ 32 ∧ epochEff t = epochEff s ∧
           t.events = s.events ++ [⟨0x0505, 0x7F, [fld t R.TIME_EPOCH.EPOCH], extTime t⟩]))) ∧
    (∀ v : BitVec 32, ∃ t, exec (.timeEpoch v) s = .next t ∧ t = { s with regs := t.regs, time := { s.time with wrapIrq := false } } ∧
      RegsBut [R.TIME_EPOCH.EPOCH.off, timeStat] s t ∧ fld t R.TIME_EPOCH.EPOCH = v.toNat ∧ BitsAre (reg s timeStat) (reg t timeStat) [(0, false)]) ∧
    (∀ w : Who, (timeReader w = true → ∃ t, exec (.timeNs w) s = .next t ∧
        t = { s with time := t.time, out := ⟨.response, [w.agent, nowNs s], []⟩ :: s.out } ∧
        t.time = { s.time with latchHi := t.time.latchHi, latchFrac := t.time.latchFrac } ∧
        ∀ u, latchedHi t u = (if latchKey u = latchKey w then epochEff s else latchedHi s u) ∧
          latchedFrac t u = (if latchKey u = latchKey w then s.time.frac else latchedFrac s u)) ∧
      (timeReader w = false → s.flash.refused = none → ∃ t k, exec (.timeNs w) s = .next t ∧ t = { s with events := t.events } ∧
        Reported s t 0x0107 w.agent [ownGa s 0xA0000560000, 1, k])) ∧
    (∀ v : BitVec 32,
      (let inRange := 0x0410AAAB ≤ v.toNat ∧ v.toNat ≤ 0x0412AAAB
       (¬ inRange → ∃ t, exec (.timeInc v) s = .next t ∧ t = { s with events := t.events } ∧ Reported s t 0x0802 100 [0x560010]) ∧
       (inRange → radioOff s = true → ∃ t, exec (.timeInc v) s = .next t ∧ t = { s with regs := t.regs, time := { s.time with inc := v.toNat } } ∧
         RegsBut [0x560010] s t ∧ fld t R.TIME_INC.INC = v.toNat) ∧
       (inRange → radioOff s = false → ∃ t, exec (.timeInc v) s = .next t ∧
         t = { s with regs := t.regs, time := { s.time with heldInc := some v.toNat } } ∧
         RegsBut [0x560010, timeStat] s t ∧ fld t R.TIME_INC.INC = v.toNat ∧
         BitsAre (reg s timeStat) (reg t timeStat) [(7, true), (2, s.time.heldStep.isSome)])) ∧
      (radioOff s = true → ∃ t, exec (.timeSlew v) s = .next t ∧ t = { s with regs := t.regs, time := { s.time with slew := wantSlew s v } } ∧
        RegsBut [0x560014, timeStat] s t ∧ fld t R.TIME_SLEW.val = wrapTo 32 (divHalfEven (wantSlew s v) (2 ^ 24)) ∧
        BitsAre (reg s timeStat) (reg t timeStat) [(3, decide (wantSlew s v ≠ 0))]) ∧
      (radioOff s = false → s.time.heldSlew = none → ∃ t, exec (.timeSlew v) s = .next t ∧
        t = { s with regs := t.regs, time := { s.time with heldSlew := some v.toNat } } ∧
        RegsBut [0x560014, timeStat] s t ∧ fld t R.TIME_SLEW.val = v.toNat ∧
        BitsAre (reg s timeStat) (reg t timeStat) [(7, true), (2, s.time.heldStep.isSome)]) ∧
      (v = 0x80000000 → ∃ t, exec (.timeStep v) s = .next t ∧ t = { s with events := t.events } ∧ Reported s t 0x0802 100 [0x560018]) ∧
      (v ≠ 0x80000000 → radioOff s = true → ∃ t, exec (.timeStep v) s = .next t ∧
        t = { s with
          cores := t.cores, regs := t.regs, events := t.events, radio := { s.radio with lemcMoved := t.radio.lemcMoved }
          time := { s.time with wrapIrq := t.time.wrapIrq } } ∧
        RegsBut [R.TIME_NS.NS.off, R.TIME_EPOCH.EPOCH.off, 0x560018, timeStat, R.KSLOT_PHASE.val.off, R.KSLOT_NUM.val.off] s t ∧
        (flag s R.TIME_STAT.WRAP_PENDING = false → t.events = s.events) ∧ Stepped s t v.toInt) ∧
      (v ≠ 0x80000000 → radioOff s = false → ∃ t, exec (.timeStep v) s = .next t ∧
        t = { s with regs := t.regs, time := { s.time with heldStep := some v.toNat } } ∧
        RegsBut [0x560018, timeStat] s t ∧ fld t R.TIME_STEP.val = v.toNat ∧
        BitsAre (reg s timeStat) (reg t timeStat) [(7, true), (2, true)]) ∧
      (radioOff s = false → exec .heldApply s = .next s) ∧
      (∀ i, radioOff s = true → s.time.heldInc = some i → i < 2 ^ 32 → s.time.heldStep = none → s.time.heldSlew = some v.toNat →
        ∃ t, exec .heldApply s = .next t ∧ t = { s with regs := t.regs, time := { s.time with
          inc := i, slew := wantSlew s v, heldInc := none, heldSlew := none } } ∧
        RegsBut [0x560010, 0x560014, timeStat] s t ∧ fld t R.TIME_INC.INC = i ∧
        BitsAre (reg s timeStat) (reg t timeStat) [(7, false), (2, false), (3, decide (wantSlew s v ≠ 0))]) ∧
      (radioOff s = true → s.time.heldInc = none → s.time.heldStep = some v.toNat → s.time.heldSlew = none →
        ∃ t, exec .heldApply s = .next t ∧ Stepped s t v.toInt ∧ flag t R.TIME_STAT.HELD = false ∧ flag t R.TIME_STAT.STEP_PEND = false ∧
          t.time = { s.time with heldStep := none, wrapIrq := t.time.wrapIrq })) ∧
    (∀ v : BitVec 16, ∃ t, exec (.refTune v) s = .next t ∧ t = { s with regs := t.regs } ∧ RegsBut [R.REF_TUNE.val.off] s t ∧
      fld t R.REF_TUNE.val = v.toNat)

/-- PPS_OUT, at PPS_OUT_NEXT, rises for WIDTH µs and moves PPS_OUT_NEXT by whole periods until it lies ahead. PPS_IN records an edge of the selected
direction that is 1 ms or more after the last; PPS_LOST comes after 1.5 periods without one. TIME_CHECK_SEND sends the leader a check; TCHK is answered
with its times; TCHK_RESP sets TCHK_OFFSET to ((t4 − t3) − (t2 − t1)) / 2, and TIME_SUSPECT after 3 checks beyond 1000 ns, and clears it after 16
within 500 ns, with a report to both Wardens; a check that spans a step is discarded. CHECK_LOST comes after 10 ms without one (R396 to R399, R404). -/
def Obligations.ClockIsChecked : Prop :=
  ∀ (s : State), s.Inv → s.events.length < 256 →
    (∀ after, (let s' := advance s after
      let next := fld s' R.PPS_OUT_NEXT.val
      let per := fld s' R.PPS_OUT_PERIOD.PERIOD
      let k := (nowNs s' + 2 ^ 32 - next) % 2 ^ 32 / per + 1
      let edge := s'.time.lastEdge.getD 0
      let l := fld s' R.ADR_LEADER.LEADER
      (flag s' R.PPS_OUT_CTL.EN = false ∨ due s' next = false → exec (.ppsOut after) s = .next s') ∧
      (flag s' R.PPS_OUT_CTL.EN = true → due s' next = true → 1000000 ≤ per → per < 2 ^ 31 → ∃ t, exec (.ppsOut after) s = .next t ∧
        t = { s' with
          regs := t.regs, out := ⟨.pulse, [nowNs s', 1000 * fld s' R.PPS_OUT_CTL.WIDTH], []⟩ :: s'.out
          time := { s'.time with pulseEnd := some ((nowNs s' + 1000 * fld s' R.PPS_OUT_CTL.WIDTH) % 2 ^ 32) } } ∧
        RegsBut [R.PPS_OUT_NEXT.val.off] s' t ∧ fld t R.PPS_OUT_NEXT.val = (next + per * k) % 2 ^ 32 ∧
        due t (fld t R.PPS_OUT_NEXT.val) = false) ∧
      (flag s' R.PPS_IN_CTL.EN = true → flag s' R.PPS_IN_CTL.LOST = false → s'.events.length < 256 →
        3000000 * fld s' R.PPS_IN_CTL.PERIOD_MS ≤ 2 * (extTime s' - edge) → ∃ t, exec (.ppsLost after) s = .next t ∧
        t = { s' with regs := t.regs, events := t.events } ∧ RegsBut [R.PPS_IN_CTL.EN.off] s' t ∧
        BitsAre (reg s' R.PPS_IN_CTL.EN.off) (reg t R.PPS_IN_CTL.EN.off) [(2, true)] ∧ Reported s' t 0x0506 0x7F [fld s' R.PPS_IN_COUNT.val]) ∧
      (flag s' R.TCHK_CTL.EN = true → selfState s' = 2 ∨ s'.domain.admitted = true → isLeader s' = false → flag s' R.ADR_LEADER.LEADER_VALID = true →
        ∃ t, exec (.timeCheckSend after) s = .next t ∧ t = { s' with fabric := t.fabric, time := { s'.time with
          nextCheck := (s'.time.nextCheck + 1) % 2 ^ 16
          sent := s'.time.sent ++ [(s'.time.nextCheck, nowNs s', fld s' R.TIME_STAT.STEP_SEQ)] } } ∧
        Sent s' t [(l, 0x37, 100, l * 2 ^ 44, bytesLE 4 0 ++ bytesLE 2 s'.time.nextCheck ++ bytesLE 4 (nowNs s'), [])]) ∧
      (isLeader s' = true → exec (.timeCheckSend after) s = .next s') ∧
      (flag s' R.TCHK_CTL.EN = true → selfState s' = 2 ∨ s'.domain.admitted = true → isLeader s' = false → s'.time.lastCheck + 10000000 ≤ extTime s' →
        (let lost := (fld s' R.TCHK_COUNT.LOST + s'.time.sent.length) % 2 ^ 16
         let ended : TimeSt := { s'.time with sent := [], goodRun := 0 }
         (flag s' R.TIME_STAT.TIME_SUSPECT = true → ∃ t, exec (.checkLost after) s = .next t ∧ t = { s' with regs := t.regs, time := ended } ∧
           RegsBut [timeStat, R.TCHK_COUNT.LOST.off] s' t ∧ fld t R.TCHK_COUNT.LOST = lost ∧
           fld t R.TCHK_COUNT.DONE = fld s' R.TCHK_COUNT.DONE ∧ BitsAre (reg s' timeStat) (reg t timeStat) [(6, true)]) ∧
         (flag s' R.TIME_STAT.TIME_SUSPECT = false → flag s' R.ADR_LEADER.LEADER_VALID = true → s'.events.length < 256 →
           ∃ t, exec (.checkLost after) s = .next t ∧ t = { s' with regs := t.regs, time := ended, events := t.events, fabric := t.fabric } ∧
           RegsBut [timeStat, R.TCHK_COUNT.LOST.off] s' t ∧ fld t R.TCHK_COUNT.LOST = lost ∧
           fld t R.TCHK_COUNT.DONE = fld s' R.TCHK_COUNT.DONE ∧ BitsAre (reg s' timeStat) (reg t timeStat) [(5, true), (6, true)] ∧
           Reported s' t 0x0504 0x7F [chipId s', 1, fld s' R.TCHK_OFFSET.val] ∧
           Sent s' t [(l, 0x3C, 100, l * 2 ^ 44, [9, 1] ++ bytesLE 4 (fld s' R.TCHK_OFFSET.val), [])]))))) ∧
    (∀ falling onStep,
      (flag s R.PPS_IN_CTL.EN = true → flag s R.PPS_IN_CTL.FALLING = falling → (∀ x, s.time.lastEdge = some x → x + 1000000 ≤ extTime s) →
        ∃ t, exec (.ppsIn falling onStep) s = .next t ∧
          t = { s with regs := t.regs, time := { s.time with lastEdge := some (extTime s), edgeIrq := true } } ∧
          RegsBut [R.PPS_IN_TS.val.off, R.PPS_IN_HI.val.off, R.PPS_IN_COUNT.val.off, R.PPS_IN_CTL.EN.off] s t ∧
          fld t R.PPS_IN_TS.val = nowNs s ∧ fld t R.PPS_IN_HI.val = epochEff s ∧
          fld t R.PPS_IN_COUNT.val = (fld s R.PPS_IN_COUNT.val + 1) % 2 ^ 32 ∧
          BitsAre (reg s R.PPS_IN_CTL.EN.off) (reg t R.PPS_IN_CTL.EN.off) [(2, false), (3, onStep)]) ∧
      (flag s R.PPS_IN_CTL.FALLING ≠ falling ∨ (∃ x, s.time.lastEdge = some x ∧ extTime s < x + 1000000) →
        exec (.ppsIn falling onStep) s = .next s)) ∧
    (∀ chip check corr, chip < 16 → isLeader s = true → corr < 2 ^ 32 → ∃ t, exec (.tchk chip check corr) s = .next t ∧ t = { s with fabric := t.fabric } ∧
      Sent s t [(chip, 0x38, 100, chip * 2 ^ 44, bytesLE 4 0 ++ bytesLE 2 check ++ bytesLE 4 ((nowNs s + 2 ^ 32 - corr) % 2 ^ 32) ++
        bytesLE 4 (nowNs s) ++ bytesLE 1 (fld s R.TIME_STAT.STEP_SEQ), [])]) ∧
    (∀ (check t1 seq t2 t3 corr : Nat) (stepped : Bool), s.time.sent.find? (fun x => x.1 = check) = some (check, t1, seq) →
      (let left := s.time.sent.filter (fun x => x.1 ≠ check)
       let up := signed 32 (t2 + 2 ^ 32 - t1)
       let down := signed 32 (nowNs s + 2 ^ 32 - t3) - corr
       let theta := divHalfEven (down - up) 2
       let bad := if 1000 < theta.natAbs then s.time.badRun + 1 else 0
       let good := if theta.natAbs ≤ 500 then s.time.goodRun + 1 else 0
       let l := fld s R.ADR_LEADER.LEADER
       let ended (t : State) : Prop := t.time = { s.time with
           sent := left, lastCheck := extTime s, sinceAdmit := s.time.sinceAdmit + 1, badRun := bad, goodRun := good } ∧
         RegsBut [R.TCHK_OFFSET.val.off, R.TCHK_RTT.val.off, R.TCHK_COUNT.DONE.off, timeStat] s t ∧
         fld t R.TCHK_OFFSET.val = wrapTo 32 theta ∧ fld t R.TCHK_RTT.val = wrapTo 32 (up + down) ∧
         fld t R.TCHK_COUNT.DONE = (fld s R.TCHK_COUNT.DONE + 1) % 2 ^ 16 ∧ fld t R.TCHK_COUNT.LOST = fld s R.TCHK_COUNT.LOST
       let turns (b : Bool) : Prop := ∃ t, exec (.tchkResp check t2 t3 corr stepped) s = .next t ∧
         t = { s with regs := t.regs, time := t.time, events := t.events, fabric := t.fabric } ∧ ended t ∧
         BitsAre (reg s timeStat) (reg t timeStat) [(5, b), (6, false)] ∧ Reported s t 0x0504 0x7F [chipId s, num b, wrapTo 32 theta] ∧
         Sent s t [(l, 0x3C, 100, l * 2 ^ 44, [9, BitVec.ofNat 8 (num b)] ++ bytesLE 4 (wrapTo 32 theta), [])]
       (stepped = true ∨ seq ≠ fld s R.TIME_STAT.STEP_SEQ →
         exec (.tchkResp check t2 t3 corr stepped) s = .next { s with time := { s.time with sent := left } }) ∧
       (stepped = false → seq = fld s R.TIME_STAT.STEP_SEQ →
         (bad < 3 → ¬ (16 ≤ good ∧ 16 ≤ s.time.sinceAdmit + 1) → ∃ t, exec (.tchkResp check t2 t3 corr stepped) s = .next t ∧
           t = { s with regs := t.regs, time := t.time } ∧ ended t ∧ BitsAre (reg s timeStat) (reg t timeStat) [(6, false)]) ∧
         (3 ≤ bad → isLeader s = false → flag s R.ADR_LEADER.LEADER_VALID = true → flag s R.TIME_STAT.TIME_SUSPECT = false → turns true) ∧
         (16 ≤ good → 16 ≤ s.time.sinceAdmit + 1 → flag s R.ADR_LEADER.LEADER_VALID = true → flag s R.TIME_STAT.TIME_SUSPECT = true → turns false))))

namespace Sys2Proof.Machine

/-! ### Adruoth links (R408 to R424) -/

/-- Only port `p` has changed among the ports. -/
def PortIs (s t : State) (p : Nat) (x : Port) : Prop := port t p = x ∧ ∀ q, q ≠ p → port t q = port s q

/-- A flit with its ACK_SEQ and its CRC (Table 13-2, R413). -/
def flitOf (ack seq payload vc fk : Nat) : Nat :=
  payload % 2 ^ 224 + 2 ^ 224 * ack + 2 ^ 236 * vc + 2 ^ 238 * fk +
    2 ^ 240 * flitCrc seq (payload % 2 ^ 224 + 2 ^ 224 * ack + 2 ^ 236 * vc + 2 ^ 238 * fk)

/-- A flit that a port sends now: ACK_SEQ names the last sequenced flit received good. -/
def wantFlit (s : State) (p seq payload vc fk : Nat) : Nat := flitOf (((port s p).rxNext + 255) % 256) seq payload vc fk

/-- Flits of the replay buffer as they are sent again, oldest first. -/
def resentFlits (s : State) (p : Nat) (l : List (Nat × Nat)) : List Out :=
  l.map (fun f => ⟨.flit, [p, wantFlit s p f.1 f.2 (bitsOf f.2 237 236) (bitsOf f.2 239 238)], []⟩)

/-- The width that training reaches, x4, x2 or x1, whose lanes all locked (R409). -/
def wantWidth (lanes max : Nat) : Option Nat :=
  if max = 0 ∧ bitOf lanes 0 ∧ bitOf lanes 1 ∧ bitOf lanes 2 ∧ bitOf lanes 3 then some 0
  else if max ≤ 1 ∧ bitOf lanes 0 ∧ bitOf lanes 1 then some 1
  else if max ≤ 2 ∧ bitOf lanes 0 then some 2
  else none

/-- The registers of the routes. -/
def routeRegs : List Nat := (List.range 16).map (fun d => (R.ADR_ROUTE.MIN_PORTS d).off)

/-- The port is out of every route (R422). -/
def Unrouted (s t : State) (p : Nat) : Prop :=
  ∀ d, d < 16 → (∀ q, q < 8 → bitOf (fld t (R.ADR_ROUTE.MIN_PORTS d)) q = (bitOf (fld s (R.ADR_ROUTE.MIN_PORTS d)) q && decide (q ≠ p))) ∧
    fld t (R.ADR_ROUTE.ESC_PORT d) = fld s (R.ADR_ROUTE.ESC_PORT d) ∧
    flag t (R.ADR_ROUTE.ESC_VALID d) = (flag s (R.ADR_ROUTE.ESC_VALID d) && decide (fld s (R.ADR_ROUTE.ESC_PORT d) ≠ p))

/-- The port has entered a state; routes are due at the next boundary. -/
def PortEntered (s t : State) (p st : Nat) : Prop :=
  portState t p = st ∧ fld t (R.ADR_PSTAT.WIDTH p) = fld s (R.ADR_PSTAT.WIDTH p) ∧ t.domain = { s.domain with routesDue := true }

end Sys2Proof.Machine

/-- BLOCK_LOCK records a lane, and with the fourth the port takes its width and sends HELLO. TRAINING_TIMEOUT trains at the widest width whose lanes
locked, or starts again with none. HELLO takes the port UP where the peer is the configured one, and to QUARANTINE with a report otherwise; a port that
retrained resends its replay buffer. RETRAIN takes it to RETRAIN with its buffer kept and out of every route. RETRAIN_TIMEOUT, 1 ms later, takes it DOWN, and
its unacknowledged packets are routed again. DOWN_RETRY starts training again (R408, R409, R416, R417, R422, R429). -/
def Obligations.LinksTrain : Prop :=
  ∀ (s : State) (p : Nat), s.Inv → p < 8 → s.events.length < 256 →
    (let x := port s p
     let st := portState s p
     let stat := (R.ADR_PSTAT.STATE p).off
     let cnt := (R.ADR_RETRAIN.RETRAINS p).off
     let width (lanes : Nat) := wantWidth lanes (fld s (R.ADR_PCTL.WIDTH_MAX p))
     let trained (t : State) (lanes w : Nat) : Prop := t = { s with ports := t.ports, regs := t.regs, out := t.out } ∧
       PortIs s t p { x with lanes := lanes } ∧ RegsBut [stat] s t ∧ fld t (R.ADR_PSTAT.WIDTH p) = w ∧ portState t p = st ∧
       t.out = ⟨.flit, [p, wantFlit s p 0 (helloPayload s p) 0 3], []⟩ :: s.out
     let again (t : State) : Prop := t = { s with ports := t.ports } ∧ PortIs s t p { x with lanes := 0 }
     (st = 1 ∨ st = 3 →
       (∀ lane, lane < 4 → (let lanes := putBits x.lanes lane lane 1
         (lanes ≠ 15 → ∃ t, exec (.blockLock p lane) s = .next t ∧ t = { s with ports := t.ports } ∧ PortIs s t p { x with lanes := lanes }) ∧
         (∀ w, lanes = 15 → width lanes = some w → ∃ t, exec (.blockLock p lane) s = .next t ∧ trained t lanes w))) ∧
       (width x.lanes = none → ∃ t, exec (.trainingTimeout p) s = .next t ∧ again t) ∧
       (∀ w, width x.lanes = some w → ∃ t, exec (.trainingTimeout p) s = .next t ∧ trained t x.lanes w)) ∧
     (∀ b die chip pp, s.domain.block = some b → chip < 16 → pp < 8 →
       (let good := blockPort b s.domain.own p = (chip, pp, true) ∧ blockDie b chip = die
        let met (t : State) : Prop := fld t (R.ADR_PSTAT.PEER_CHIP p) = chip ∧ fld t (R.ADR_PSTAT.PEER_PORT p) = pp ∧
          flag t (R.ADR_PSTAT.PEER_VALID p) = true ∧ RegsBut [stat] s t
        (¬ good → st = 1 ∨ st = 3 ∨ st = 4 → ∃ t, exec (.hello p die chip pp) s = .next t ∧
          t = { s with ports := t.ports, regs := t.regs, domain := t.domain, events := t.events } ∧ met t ∧ PortEntered s t p 4 ∧
          PortIs s t p { x with since := extTime s } ∧ Reported s t 0x0503 100 [chip, 1]) ∧
        (good → st = 1 ∨ st = 4 → ∃ t, exec (.hello p die chip pp) s = .next t ∧
          t = { s with ports := t.ports, regs := t.regs, domain := t.domain, fabric := t.fabric } ∧ met t ∧ PortEntered s t p 2 ∧
          t.fabric = { s.fabric with waiting := s.fabric.waiting ++ x.sent.map (fun q => { q.2 with port := none }) } ∧
          PortIs s t p { Port.reset with lanes := x.lanes, since := extTime s }) ∧
        (good → st = 3 → x.txq = [] → (∀ f, f ∈ x.replay → bitsOf f.2 239 236 * 2 ^ 236 + bitsOf f.2 223 0 = f.2) → ∃ t, exec (.hello p die chip pp) s = .next t ∧
          t = { s with ports := t.ports, regs := t.regs, domain := t.domain, events := t.events, out := t.out } ∧ met t ∧ PortEntered s t p 2 ∧
          PortIs s t p { x with since := extTime s } ∧ Reported s t 0x0501 100 [p, fld s (R.ADR_PSTAT.WIDTH p)] ∧
          t.out = (resentFlits s p x.replay).reverse ++ s.out))) ∧
     (st = 2 ∨ st = 4 → ∃ t, exec (.retrain p) s = .next t ∧ t = { s with ports := t.ports, regs := t.regs, domain := t.domain } ∧
       PortEntered s t p 3 ∧ PortIs s t p { x with lanes := 0, resends := 0, since := extTime s } ∧ RegsBut (stat :: cnt :: routeRegs) s t ∧
       fld t (R.ADR_RETRAIN.RETRAINS p) = (fld s (R.ADR_RETRAIN.RETRAINS p) + 1) % 2 ^ 16 ∧
       fld t (R.ADR_RETRAIN.DOWNS p) = fld s (R.ADR_RETRAIN.DOWNS p) ∧ Unrouted s t p) ∧
     (∀ after, (let s' := advance s after
       st = 3 →
       (extTime s' < x.since + 1000000 → exec (.retrainTimeout after p) s = .next s') ∧
       (x.since + 1000000 ≤ extTime s' → ∃ t, exec (.retrainTimeout after p) s = .next t ∧
         t = { s' with ports := t.ports, regs := t.regs, domain := t.domain, fabric := t.fabric } ∧ PortEntered s' t p 0 ∧
         PortIs s' t p { Port.reset with since := extTime s' } ∧ RegsBut (stat :: cnt :: routeRegs) s' t ∧
         fld t (R.ADR_RETRAIN.DOWNS p) = (fld s' (R.ADR_RETRAIN.DOWNS p) + 1) % 2 ^ 16 ∧ Unrouted s' t p ∧
         t.fabric = { s'.fabric with waiting := s'.fabric.waiting ++ x.sent.map (fun q => { q.2 with port := none }) }))) ∧
     (st = 0 → flag s (R.ADR_PCTL.EN p) = true → linkHeld s 4 p = false → ∃ t, exec (.downRetry p) s = .next t ∧
       t = { s with ports := t.ports, regs := t.regs, domain := t.domain } ∧ PortEntered s t p 1 ∧ RegsBut [stat] s t ∧
       PortIs s t p { x with lanes := 0, part := [], since := extTime s }) ∧
     (st = 0 → flag s (R.ADR_PCTL.EN p) = false → exec (.downRetry p) s = .next s))

/-- IDLE frees the flits up to its ACK_SEQ. SEQUENCED_FLIT with a bad CRC is discarded, counted and answered with NAK; a good HEAD of a packet without DATA
puts the packet among those that wait, and is acknowledged. NAK frees the flits up to the one it names and REPLAY_TIMEOUT none; both resend
the others, and after eight resends without an advance RETRAIN goes out in place of the next. CREDIT adds its counts. PACKET_FORWARD delivers a packet of this chip in
order and returns its credits, discards one already delivered, sends another on the port of its route, lets it wait where credits are short and where a response,
a packet that has waited 256 flit times or a snoop goes before it, and drops and counts one without
a route. E2E_ACK frees acknowledged packets and E2E_ACK_TIMEOUT sends an acknowledgement (R412, R413, R415, R416, R418, R420, R421, R423, R424, R437). -/
def Obligations.LinksDeliverPackets : Prop :=
  ∀ (s : State) (p : Nat), s.Inv → p < 8 →
    (let x := port s p
     let st := portState s p
     let acked (n : Nat) : Port := { x with
       replay := x.replay.drop n, resends := 0, freed := x.freed + n, sent := x.sent.filter (fun q => x.freed + n < q.1) }
     let whole : Prop := ∀ f, f ∈ x.replay → bitsOf f.2 239 236 * 2 ^ 236 + bitsOf f.2 223 0 = f.2
     let up := st = 2 ∨ st = 4
     (∀ f b l ack, x.replay = (f, b) :: l → x.txq = [] → (let n := (ack + 256 - f) % 256 + 1
       (x.replay.length < n → exec (.idle p ack) s = .next s) ∧
       (n ≤ x.replay.length → (∃ t, exec (.idle p ack) s = .next t ∧ t = { s with ports := t.ports } ∧ PortIs s t p (acked n)) ∧
         (up → whole → n < x.replay.length → ∃ t, exec (.nak p ack) s = .next t ∧ t = { s with ports := t.ports, regs := t.regs, out := t.out } ∧
           PortIs s t p { acked n with resends := 1 } ∧ RegsBut [(R.ADR_REPLAY.val p).off] s t ∧
           fld t (R.ADR_REPLAY.val p) = (fld s (R.ADR_REPLAY.val p) + 1) % 2 ^ 32 ∧
           t.out = (resentFlits s p (x.replay.drop n)).reverse ++ s.out)))) ∧
     (up → whole → x.replay ≠ [] →
       (x.resends < 8 → ∃ t, exec (.replayTimeout p) s = .next t ∧ t = { s with ports := t.ports, regs := t.regs, out := t.out } ∧
         PortIs s t p { x with resends := x.resends + 1 } ∧ RegsBut [(R.ADR_REPLAY.val p).off] s t ∧
         fld t (R.ADR_REPLAY.val p) = (fld s (R.ADR_REPLAY.val p) + 1) % 2 ^ 32 ∧ t.out = (resentFlits s p x.replay).reverse ++ s.out) ∧
       (8 ≤ x.resends → ∃ t, exec (.replayTimeout p) s = .next t ∧
         t = { s with ports := t.ports, regs := t.regs, domain := t.domain, out := t.out } ∧ PortEntered s t p 3 ∧ Unrouted s t p ∧
         RegsBut ((R.ADR_PSTAT.STATE p).off :: (R.ADR_RETRAIN.RETRAINS p).off :: routeRegs) s t ∧
         PortIs s t p { x with lanes := 0, resends := 0, since := extTime s } ∧ t.out = ⟨.flit, [p, wantFlit s p 0 4 0 3], []⟩ :: s.out)) ∧
     (st = 0 → ∀ counts, exec (.credit p counts) s = .next s) ∧
     (∀ counts, up → counts.length = 8 → x.credits.length = 8 → ∃ t, exec (.credit p counts) s = .next t ∧
       t = { s with ports := t.ports, out := t.out } ∧ t.out = ⟨.flit, [p, flitOf (((x.rxNext + 1) % 256 + 255) % 256) 0 0 0 0], []⟩ :: s.out ∧
       PortIs s t p { x with rxNext := (x.rxNext + 1) % 256, nakked := false, credits := (port t p).credits } ∧ (port t p).credits.length = 8 ∧
       ∀ i, i < 8 → (port t p).credits.getD i 0 = x.credits.getD i 0 + counts.getD i 0) ∧
     (∀ flit : BitVec 256, (let w := flit.toNat
       let good := flitCrc x.rxNext (w % 2 ^ 240) = bitsOf w 255 240
       (st = 0 → exec (.sequencedFlit p flit) s = .next s) ∧
       (up → ¬ good → bitsOf w 239 238 = 1 ∨ bitsOf w 239 238 = 2 → x.nakked = false → ∃ t, exec (.sequencedFlit p flit) s = .next t ∧
         t = { s with ports := t.ports, regs := t.regs, out := t.out } ∧ PortIs s t p { x with nakked := true } ∧
         RegsBut [(R.ADR_CRC_ERR.val p).off] s t ∧ fld t (R.ADR_CRC_ERR.val p) = (fld s (R.ADR_CRC_ERR.val p) + 1) % 2 ^ 32 ∧
         t.out = ⟨.flit, [p, wantFlit s p 0 (1 + 2 ^ 8 * ((x.rxNext + 255) % 256)) 0 3], []⟩ :: s.out) ∧
       (st = 2 → good → bitsOf w 239 238 = 1 → bitsOf w 82 80 = 0 → bitOf w 234 = false → ptypeOk (bitsOf w 23 18) = true → x.replay = [] →
         ∃ t k, exec (.sequencedFlit p flit) s = .next t ∧ t = { s with ports := t.ports, fabric := t.fabric, out := t.out } ∧
           PortIs s t p { x with rxNext := (x.rxNext + 1) % 256, nakked := false, part := [] } ∧
           t.fabric = { s.fabric with waiting := s.fabric.waiting ++ [k] } ∧ k.dst = bitsOf w 3 0 ∧ k.src = bitsOf w 7 4 ∧ k.seq = bitsOf w 17 8 ∧
           k.ptype = bitsOf w 23 18 ∧ k.agent = bitsOf w 30 24 ∧ k.esc = bitOf w 31 ∧ k.ga = bitsOf w 79 32 ∧ k.inl = bytesLE 16 (bitsOf w 223 96) ∧
           k.data = [] ∧ k.port = some p ∧ k.at_ = nowNs s ∧
           t.out = ⟨.flit, [p, flitOf (((x.rxNext + 1) % 256 + 255) % 256) 0 0 0 0], []⟩ :: s.out))) ∧
     (∀ i k full, s.fabric.waiting[i]? = some k →
       (let vc := ptypeVc k.ptype
        let key := 4 * k.src + vc
        let e := tabGet s.fabric.expect key 0
        let obj := (k.ga % 2 ^ 44 - 0x90000000000) / 64 % 16384
        let rest := dropPacket s.fabric.waiting k
        let credit := 2 + 2 ^ 8 * (k.flits * 2 ^ (8 * (vc + 4 * num k.esc)))
        (k.dst = selfName s → k.ptype = 0x31 → k.seq = e → e < 1024 → s.fabric.early = [] → k.port = some p → up → x.txq = [] →
          x.replay.length < 64 → tabGet s.fabric.sinceAck key 0 < 31 → FreeSemaphore s obj → fieldLE k.inl 0 4 = 1 →
          ∃ t, exec (.packetForward i full) s = .next t ∧
            t = { s with ports := t.ports, fabric := t.fabric, syncs := t.syncs, out := t.out } ∧
            ValuesAre s t (fun m => if m = obj then (syncObj s obj).value + 1 else (syncObj s m).value) ∧
            t.fabric = { s.fabric with
              waiting := rest, expect := tabSet s.fabric.expect key ((e + 1) % 1024)
              sinceAck := tabSet s.fabric.sinceAck key (tabGet s.fabric.sinceAck key 0 + 1) } ∧
            PortIs s t p { x with
              replay := x.replay ++ [(x.txNext, credit % 2 ^ 224 + 2 ^ 238 * 3)], txNext := (x.txNext + 1) % 256, total := x.total + 1 } ∧
            t.out = ⟨.flit, [p, wantFlit s p x.txNext credit 0 3], []⟩ :: s.out) ∧
        (k.dst = selfName s → k.ptype ≠ 0x2B → k.port = none → 512 ≤ (k.seq + 1024 - e) % 1024 →
          exec (.packetForward i full) s = .next { s with fabric := { s.fabric with waiting := rest } }) ∧
        (k.dst ≠ selfName s → k.src = selfName s → k.port = none → k.esc = false → k.data = [] → k.ptype ≠ 0x2B → unackedOf s k.dst vc < 256 →
          isUnacked s k = false → outputBusy s p k = false → fld s (R.ADR_ROUTE.MIN_PORTS k.dst) = 2 ^ p → k.dst < 16 → st = 2 → 0 < x.credits.getD vc 0 → x.credits.length = 8 → x.txq = [] →
          x.replay.length < 64 → ∃ t, exec (.packetForward i full) s = .next t ∧ t = { s with ports := t.ports, fabric := t.fabric, out := t.out } ∧
            t.fabric = { s.fabric with waiting := rest, unacked := s.fabric.unacked ++ [k] } ∧
            t.out = ⟨.flit, [p, wantFlit s p x.txNext k.head vc 1], []⟩ :: s.out ∧
            PortIs s t p { x with
              credits := (port t p).credits, replay := x.replay ++ [(x.txNext, k.head % 2 ^ 224 + 2 ^ 236 * vc + 2 ^ 238)]
              txNext := (x.txNext + 1) % 256, total := x.total + 1, sent := x.sent ++ [(x.total + 1, k)]
              lastMsg := if vc = 3 then true else if vc = 0 then false else x.lastMsg } ∧
            ∀ j, (port t p).credits.getD j 0 = x.credits.getD j 0 - if j = vc then 1 else 0) ∧
        (∀ q kind, k.dst ≠ selfName s → windowOpen s k = true → routePort s k = some (p, kind) → q ∈ s.fabric.waiting → q.dst ≠ selfName s →
          q.port ≠ none → routePort s q = some (p, false) →
          (let flits (k : Packet) : Nat := (nowNs s + 2 ^ 32 - k.at_) % 2 ^ 32 / (33 * 2 ^ fld s (R.ADR_PSTAT.WIDTH p)) * 16
           (ptypeVc q.ptype = 1 ∧ vc ≠ 1) ∨ (256 ≤ flits q ∧ flits k < 256 ∧ vc ≠ 1) ∨ (ptypeVc q.ptype = 2 ∧ flits k < 256 ∧ (vc = 0 ∨ vc = 3)) →
             exec (.packetForward i full) s = .next s)) ∧
        (k.dst ≠ selfName s → windowOpen s k = true → routePort s k = none →
          (hasRoute s k.dst = true → exec (.packetForward i full) s = .next s) ∧
          (hasRoute s k.dst = false → k.ptype ≠ 0x3C → vc ≠ 0 → k.port = none → ∃ t, exec (.packetForward i full) s = .next t ∧
            t = { s with regs := t.regs, fabric := { s.fabric with waiting := rest } } ∧ RegsBut [R.ADR_BAD_PKT.BAD.off] s t ∧
            fld t R.ADR_BAD_PKT.BAD = (fld s R.ADR_BAD_PKT.BAD + 1) % 2 ^ 16 ∧ fld t R.ADR_BAD_PKT.DCTL_DROP = fld s R.ADR_BAD_PKT.DCTL_DROP)))) ∧
     (∀ chip vc seq, ∃ t, exec (.e2eAck chip vc seq) s = .next t ∧ t = { s with fabric := { s.fabric with unacked := t.fabric.unacked } } ∧
       t.fabric.unacked = s.fabric.unacked.filter (fun k => !(decide (k.dst = chip) && decide (ptypeVc k.ptype = vc) &&
         decide ((seq + 1024 - k.seq) % 1024 < 512)))) ∧
     (∀ chip vc, chip < 16 → vc < 4 →
       (let key := 4 * chip + vc
        (tabGet s.fabric.sinceAck key 0 = 0 → exec (.e2eAckTimeout chip vc) s = .next s) ∧
        (tabGet s.fabric.sinceAck key 0 ≠ 0 → ∃ t, exec (.e2eAckTimeout chip vc) s = .next t ∧
          t = { s with fabric := { s.fabric with waiting := t.fabric.waiting, sinceAck := tabErase s.fabric.sinceAck key } } ∧
          t.fabric.waiting.map pktView = s.fabric.waiting.map pktView ++
            [(chip, 0x2B, 100, chip * 2 ^ 44, bytesLE 1 vc ++ bytesLE 2 ((tabGet s.fabric.expect key 0 + 1023) % 1024), [])]))))

namespace Sys2Proof.Machine

/-! ### The domain (R215, R251, R426 to R435) -/

/-- What a chip that is told apart by its mask has: a bit for each chip. -/
def MaskIs (m m' : Nat) (f : Nat → Bool → Bool) : Prop := ∀ c, c < 16 → bitOf m' c = f c (bitOf m c)

/-- This chip is a member, and its side, quorum and leader stand as they are computed (R428). -/
def SideStands (s : State) : Prop :=
  s.domain.block ≠ none ∧ selfState s = 2 ∧ flag s R.ADR_LEADER.LEADER_VALID = true ∧ flag s R.ADR_LEADER.QUORUM = true ∧
    fld s R.ADR_LEADER.LEADER = (maskList (sideOf s)).headD 0 ∧ hasQuorum s (sideOf s) = true

/-- Nothing is in progress that the chip takes part in, but a line that it may hold exclusively, waits for its objects, and waiter entries that it
has here. -/
structure QuietPeer (s : State) (chip : Nat) : Prop where
  dir : s.coh.dir = [] ∨ ∃ ln, s.coh.dir = [(ln, .excl chip)] ∧ 128 * ln < lp5xEnd
  home : s.coh.serving = [] ∧ s.coh.queue = [] ∧ s.coh.starving = []
  cache : s.coh.wbOut = [] ∧ s.coh.await = [] ∧ s.coh.held = [] ∧ s.coh.ucOut = [] ∧ s.coh.ucGot = []
  waiters : ∀ p, p ∈ s.syncs → ∀ w, w ∈ p.2.waiters → ∃ token n, w = .remote chip token n
  asyncs : ∀ c a, (a ∈ (core s c).asyncs ∨ ∃ h, (core s c).held = some h ∧ a ∈ h.asyncs) → a.chip ≠ chip
  batches : s.pool.batches = []

/-- The registers of multicast members. -/
def mcMemberRegs : List Nat := (List.range 64).flatMap (fun ch => (List.range 128).map (fun j => (R.MC_MEMBER.VALID ch j).off))

/-- A chip is a member no longer (R215, R251, R430, R431): its entry of the directory is gone, and poisoned where it was lost; copies of its lines, its
waiter entries, its multicast members and its packets are gone; waits for its objects end with LOST. -/
def Dropped (s t : State) (chip : Nat) (lost : Bool) : Prop :=
  MaskIs (fld s R.ADR_MEMBERS.CURRENT) (fld t R.ADR_MEMBERS.CURRENT) (fun c b => b && decide (c ≠ chip)) ∧
    fld t R.ADR_MEMBERS.CONFIGURED = fld s R.ADR_MEMBERS.CONFIGURED ∧
    MaskIs (fld s R.ADR_PEERS.LOST) (fld t R.ADR_PEERS.LOST) (fun c b => b || (lost && decide (c = chip))) ∧
    fld t R.ADR_CHIP.MEPOCH = (fld s R.ADR_CHIP.MEPOCH + 1) % 2 ^ 16 ∧
    t.coh = { s.coh with dir := [], lines := s.coh.lines.filter (fun l => homeOf l.1 ≠ chip) } ∧
    t.marks = { s.marks with poisonLines := t.marks.poisonLines } ∧
    (∀ ln, ln ∈ t.marks.poisonLines ↔ ln ∈ s.marks.poisonLines ∨ (lost = true ∧ (ln, DirEnt.excl chip) ∈ s.coh.dir)) ∧
    (∀ n, syncObj t n = { syncObj s n with waiters := [] }) ∧
    (∀ ch j, ch < 64 → j < 128 → flag t (R.MC_MEMBER.VALID ch j) = (flag s (R.MC_MEMBER.VALID ch j) && decide (fld s (R.MC_MEMBER.CHIP ch j) ≠ chip))) ∧
    (∀ c, core t c = (match (core s c).run with
      | .wait _ ch _ _ _ => if ch = chip then { core s c with run := .woken 7 } else core s c
      | .poll _ ch => if ch = chip then { core s c with run := .woken 7 } else core s c
      | _ => core s c)) ∧
    t.queues = { s.queues with
      adrIn := s.queues.adrIn.filter (fun m => m.chip ≠ chip), chanIn := s.queues.chanIn.filter (fun m => m.chip ≠ chip) } ∧
    t.pool = { s.pool with later := s.pool.later.filter (fun q => q.chip ≠ chip) }

/-- The packets that neither go to a chip nor come from it. -/
def otherPackets (l : List Packet) (chip : Nat) : List Packet := l.filter (fun k => decide (k.dst ≠ chip) && decide (k.src ≠ chip))

/-- The registers that a change of the membership writes. -/
def memberRegs : List Nat :=
  [R.ADR_CHIP.ID.off, R.ADR_MEMBERS.CURRENT.off, R.ADR_PEERS.LOST.off, R.ADR_PROTO.OWN.off, R.ADR_FEAT.val.off]

/-- The registers that a joiner adopts from its leader (R429, R435). -/
def adoptedRegs : List Nat :=
  memberRegs ++ [R.POOL_GEN.val.off, R.ADR_DIGEST.val.off, R.ADR_DIGEST.val_HI.off, R.ADR_DIGEST.val_W2.off, R.ADR_DIGEST.val_W3.off] ++
    (List.range 2048).map (fun i => (R.SHARD_MAP.OWNERS 0 0).off + 4 * i) ++
    (List.range 64).flatMap (fun t => [(R.TD_CTL.EN t).off, (R.TD_ROWS.val t).off, (R.TD_SEED.val t).off, (R.TD_STATE.STATE t).off,
      (R.TD_SWAP_GEN.val t).off])

/-- Domain control messages to chips, one each. -/
def dctlTo (l : List Nat) (kind : Nat) (fields : List Byte) : List (Nat × Nat × Nat × Nat × List Byte × List Byte) :=
  l.map (fun c => (c, 0x3C, 100, c * 2 ^ 44, BitVec.ofNat 8 kind :: fields, []))

end Sys2Proof.Machine

/-- REACHABILITY goes on hop by hop. JOIN at the leader, where PROTO and digest agree, leads to ADMIT and to MEMBER messages, and otherwise to QUARANTINE. ADMIT
starts the joiner's count of checks. COMMIT makes it a member with the leader's membership, epoch, POOL_GEN, table states and shard maps. LEAVE of a peer
drops it without poison. HEARTBEAT_SEND, HEARTBEAT and HEARTBEAT_ANSWER keep the members' agreement, and a heartbeat that disagrees is quarantined
and lost (R399, R429 to R433, R435). -/
def Obligations.MembersJoinAndAgree : Prop :=
  ∀ (s : State) (chip : Nat), s.Inv → chip < 16 → s.events.length < 256 →
    (let own := s.domain.own
     let lead := fld s R.ADR_LEADER.LEADER
     let others := (maskList (fld s R.ADR_MEMBERS.CURRENT)).filter (fun c => c ≠ own ∧ c ≠ chip)
     let ours := maskList (ownReach s)
     (SideStands s → chip = own → ∀ mask, ∃ t, exec (.reachability chip mask) s = .next t ∧
       t = { s with regs := t.regs, fabric := t.fabric, domain := { s.domain with routesDue := true } } ∧ RegsBut [] s t ∧
       Sent s t (dctlTo ours 1 (BitVec.ofNat 8 own :: bytesLE 2 (ownReach s)))) ∧
     (∀ mask, (let d : Domain := { s.domain with left := setDel s.domain.left chip }
       (chip ≠ own → tabGet s.domain.reach chip 0 = mask → exec (.reachability chip mask) s = .next { s with domain := d }) ∧
       (chip ≠ own → tabGet s.domain.reach chip 0 ≠ mask → SideStands { s with domain := { d with reach := tabSet d.reach chip mask } } →
         ∃ t, exec (.reachability chip mask) s = .next t ∧
           t = { s with regs := t.regs, fabric := t.fabric, domain := { d with reach := tabSet d.reach chip mask, routesDue := true } } ∧
           RegsBut [] s t ∧ Sent s t (dctlTo (ours.filter (· ≠ chip)) 1 (BitVec.ofNat 8 chip :: bytesLE 2 mask))))) ∧
     (∀ die proto feats dig, isLeader s = true → bitOf (fld s R.ADR_MEMBERS.CONFIGURED) chip = true → chip ≠ own →
       (let agrees := proto / 256 = fld s R.ADR_PROTO.OWN / 256 ∧ (dig = digest s ∨ dig = digestNext s)
        let met : Domain := { s.domain with dies := tabSet s.domain.dies chip die, left := setDel s.domain.left chip }
        (∀ d, tabFind s.domain.dies chip = some d → d < die → ∃ t, exec (.join chip die proto feats dig) s = .next t ∧
          t = { s with events := t.events } ∧ Reported s t 0x0503 100 [chip, 2]) ∧
        (∀ d, tabFind s.domain.dies chip = some d → die < d → bitOf (fld s R.ADR_MEMBERS.CURRENT) chip = false → agrees → ∃ t,
          exec (.join chip die proto feats dig) s = .next t ∧ Reported s t 0x0503 100 [chip, 2] ∧ t.domain.dies = tabSet s.domain.dies chip die ∧
          bitOf (fld t R.ADR_PEERS.QUARANTINED) chip = false ∧ Sent s t (dctlTo [chip] 3 [] ++ dctlTo others 4 (BitVec.ofNat 8 chip :: (bytesLE 2 proto ++ bytesLE 4 feats)))) ∧
        ((∀ d, tabFind s.domain.dies chip = some d → die = d) →
          (agrees → ∃ t, exec (.join chip die proto feats dig) s = .next t ∧ t = { s with regs := t.regs, fabric := t.fabric, domain := t.domain } ∧
            t.domain = { met with
              protos := tabSet s.domain.protos chip proto, feats := tabSet s.domain.feats chip feats
              pend := s.domain.pend.filter (fun x => x.chip ≠ chip) ++ [⟨chip, extTime s, false, []⟩] } ∧
            RegsBut [R.ADR_PEERS.LOST.off] s t ∧ fld t R.ADR_PEERS.LOST = fld s R.ADR_PEERS.LOST ∧
            MaskIs (fld s R.ADR_PEERS.QUARANTINED) (fld t R.ADR_PEERS.QUARANTINED) (fun c b => b && decide (c ≠ chip)) ∧
            Sent s t (dctlTo [chip] 3 [] ++ dctlTo others 4 (BitVec.ofNat 8 chip :: (bytesLE 2 proto ++ bytesLE 4 feats)))) ∧
          (¬ agrees → bitOf (fld s R.ADR_MEMBERS.CURRENT) chip = false → ∃ t, exec (.join chip die proto feats dig) s = .next t ∧
            t = { s with regs := t.regs, fabric := t.fabric, ports := t.ports, events := t.events, domain := { met with routesDue := t.domain.routesDue } } ∧
            RegsBut (R.ADR_PEERS.LOST.off :: ((List.range 8).map (fun p => (R.ADR_PSTAT.STATE p).off) ++ routeRegs)) s t ∧
            MaskIs (fld s R.ADR_PEERS.QUARANTINED) (fld t R.ADR_PEERS.QUARANTINED) (fun c b => b || decide (c = chip)) ∧
            (∀ p, p < 8 → portState t p =
              if portState s p = 2 ∧ flag s (R.ADR_PSTAT.PEER_VALID p) = true ∧ fld s (R.ADR_PSTAT.PEER_CHIP p) = chip then 4 else portState s p) ∧
            Reported s t 0x0503 100 [chip, 2] ∧ Sent s t (dctlTo [chip] 13 []))))) ∧
     (selfState s = 1 → chip = lead →
       (let counts : TimeSt := { s.time with sinceAdmit := 0, goodRun := 0, lastCheck := extTime s }
        (flag s R.TIME_STAT.TIME_SUSPECT = true →
          exec (.admitMember chip) s = .next { s with time := counts, domain := { s.domain with admitted := true } }) ∧
        (flag s R.TIME_STAT.TIME_SUSPECT = false → flag s R.ADR_LEADER.LEADER_VALID = true → ∃ t, exec (.admitMember chip) s = .next t ∧
          t = { s with regs := t.regs, events := t.events, fabric := t.fabric, time := counts, domain := { s.domain with admitted := true } } ∧
          RegsBut [timeStat] s t ∧ BitsAre (reg s timeStat) (reg t timeStat) [(5, true)] ∧
          Reported s t 0x0504 0x7F [chipId s, 1, fld s R.TCHK_OFFSET.val] ∧
          Sent s t (dctlTo [lead] 9 (1 :: bytesLE 4 (fld s R.TCHK_OFFSET.val)))))) ∧
     (∀ members minor feats mepoch gen b, selfState s = 1 → s.domain.admitted = true → s.domain.block = some b → members < 2 ^ 16 → minor < 2 ^ 8 →
       feats < 2 ^ 32 → mepoch < 2 ^ 16 → gen < 2 ^ 32 → own < 16 → (∀ t, t < 64 → fieldLE b (0x200 + 32 * t) 4 % 2 = 0) →
       ∃ t, exec (.commitMember members minor feats mepoch gen) s = .next t ∧ t = { s with regs := t.regs, domain := t.domain } ∧
         RegsBut adoptedRegs s t ∧ selfState t = 2 ∧ chipId t = own ∧ fld t R.ADR_CHIP.MEPOCH = mepoch ∧ fld t R.ADR_MEMBERS.CURRENT = members ∧
         fld t R.ADR_MEMBERS.CONFIGURED = fld s R.ADR_MEMBERS.CONFIGURED ∧ fld t R.ADR_PROTO.MINOR = minor ∧ fld t R.ADR_FEAT.val = feats ∧
         fld t R.ADR_PEERS.LOST = 0 ∧ fld t R.POOL_GEN.val = gen ∧
         (∀ i, i < 2048 → reg t ((R.SHARD_MAP.OWNERS 0 0).off + 4 * i) = fieldLE b (0x1000 + 4 * i) 4) ∧
         (∀ u, u < 64 → reg t (R.TD_ROWS.val u).off = fieldLE b (0x200 + 32 * u + 4) 4 ∧ fld t (R.TD_STATE.STATE u) = fieldLE b (0x200 + 32 * u + 12) 4 % 4) ∧
         t.domain = { s.domain with hb := tabSet s.domain.hb lead (extTime s), thaw := true } ∧ digest t = digest s) ∧
     (bitOf (fld s R.ADR_MEMBERS.CURRENT) chip = true → chip ≠ own → QuietPeer s chip → isLeader s = false →
       SideStands { s with domain := { s.domain with left := setAdd s.domain.left chip } } → ∃ t, exec (.leave chip) s = .next t ∧
       t = { s with
         regs := t.regs, coh := t.coh, marks := t.marks, syncs := t.syncs, cores := t.cores, queues := t.queues, pool := t.pool, fabric := t.fabric
         domain := t.domain } ∧
       Dropped s t chip false ∧ RegsBut (memberRegs ++ mcMemberRegs) s t ∧ t.fabric.waiting = otherPackets s.fabric.waiting chip ∧
       t.domain.left = setAdd s.domain.left chip ∧ t.domain.routesDue = true) ∧
     (∀ after, (let s' := advance s after
       (selfState s' = 2 → isLeader s' = false → flag s' R.ADR_LEADER.LEADER_VALID = true → ∃ t, exec (.heartbeatSend after) s = .next t ∧
         t = { s' with fabric := t.fabric } ∧ Sent s' t [(lead, 0x3C, 100, lead * 2 ^ 44,
           10 :: (bytesLE 2 (fld s R.ADR_PROTO.OWN) ++ bytesLE 2 (fld s R.ADR_CHIP.MEPOCH)), bytesLE 16 (digest s))]) ∧
       (isLeader s' = true → exec (.heartbeatSend after) s = .next s'))) ∧
     (∀ proto mepoch dig, isLeader s = true → bitOf (fld s R.ADR_MEMBERS.CURRENT) chip = true → mepoch < 65536 →
       (let agrees := proto / 256 = fld s R.ADR_PROTO.OWN / 256 ∧ (dig = digest s ∨ dig = digestNext s)
        (agrees → ∃ t, exec (.heartbeat chip proto mepoch dig) s = .next t ∧
          t = { s with fabric := t.fabric, domain := { s.domain with hb := tabSet s.domain.hb chip (extTime s) } } ∧ Sent s t (dctlTo [chip] 11 [])) ∧
        (¬ agrees → chip ≠ own → QuietPeer s chip → ∃ t, exec (.heartbeat chip proto mepoch dig) s = .next t ∧
          bitOf (fld t R.ADR_PEERS.QUARANTINED) chip = true ∧ bitOf (fld t R.ADR_MEMBERS.CURRENT) chip = false ∧
          bitOf (fld t R.ADR_PEERS.LOST) chip = true))) ∧
     (chip = lead → flag s R.ADR_LEADER.LEADER_VALID = true →
       exec (.heartbeatAnswer chip) s = .next { s with domain := { s.domain with hb := tabSet s.domain.hb chip (extTime s) } }))

/-- A peer is lost on the leader's broadcast, or on this chip's own declaration where it has no route to the peer or the leader and the peer have been silent
to each other for 5 ms: it is marked LOST, R215 and R251 apply, the event is reported, and its mailbox requests end; the leader broadcasts it (R430, R499). MBOX posts
a peer's request in its ring while that has room, and MBOX_RSP brings a peer's response (R473, R479). -/
def Obligations.PeersAreLost : Prop :=
  ∀ (s : State) (chip : Nat), s.Inv → chip < 16 →
    (let rings := mail s (32 + chip)
     let lostBy (row : Instr) (u : State) : Prop := bitOf (fld u R.ADR_MEMBERS.CURRENT) chip = true → chip ≠ u.domain.own → QuietPeer u chip →
       SideStands u → u.events.length < 256 → ∃ t, exec row s = .next t ∧
       t = { u with
         regs := t.regs, coh := t.coh, marks := t.marks, syncs := t.syncs, cores := t.cores, queues := t.queues, pool := t.pool, fabric := t.fabric
         domain := t.domain, events := t.events, wdn := t.wdn } ∧
       Dropped u t chip true ∧ RegsBut (memberRegs ++ mcMemberRegs) u t ∧ Reported u t 0x0502 100 [chip] ∧
       t.wdn = { u.wdn with mails := tabSet u.wdn.mails (32 + chip) { rings with owed := [], reqHead := rings.reqTail, rspHead := rings.rspTail } } ∧
       t.domain = { u.domain with
         pend := (u.domain.pend.filter (fun x => x.chip ≠ chip)).map (fun x => { x with confirms := setDel x.confirms chip })
         hb := tabErase u.domain.hb chip, routesDue := true } ∧
       t.fabric.waiting.map pktView = (otherPackets u.fabric.waiting chip).map pktView ++ (if isLeader u then
         dctlTo ((maskList (fld u R.ADR_MEMBERS.CURRENT)).filter (fun c => c ≠ chip ∧ c ≠ u.domain.own)) 8 [BitVec.ofNat 8 chip] else []) ∧
       t.fabric.unacked = otherPackets u.fabric.unacked chip
     lostBy (.lossBroadcast chip) s ∧
     (∀ after, (let s' := advance s after
       let silent := tabGet s'.domain.hb chip 0 + 5000000 ≤ extTime s' ∧ (isLeader s' = true ∨ chip = fld s' R.ADR_LEADER.LEADER)
       (hasRoute s' chip = false ∨ silent → lostBy (.peerLost after chip) s') ∧
       (hasRoute s' chip = true → ¬ silent → exec (.peerLost after chip) s = .next s'))) ∧
     (∀ msg, msg.length = 64 → (let n := (rings.reqTail + 2 ^ 16 - rings.reqHead) % 2 ^ 16
       let posted : Mail := { rings with req := tabSet rings.req (rings.reqTail % 8) msg, reqTail := (rings.reqTail + 1) % 2 ^ 16 }
       (n < 8 → exec (.mbox chip msg) s = .next { s with wdn := { s.wdn with mails := tabSet s.wdn.mails (32 + chip) posted } }) ∧
       (8 ≤ n → ∃ t, exec (.mbox chip msg) s = .next t ∧ t = { s with wdn := { s.wdn with mails := t.wdn.mails } } ∧ ∀ k, mail t k = mail s k) ∧
       exec (.mboxRsp chip msg) s = .next { s with out := ⟨.response, [100, chip], msg⟩ :: s.out })))

namespace Sys2Proof.Machine

/-! ### Host port, Ethernet and boot flash (R391 to R395, R441 to R468) -/

/-- Channel `c` holds descriptor `d` alone, whose record lies at LP5X address `r`; it raises no vector. -/
structure CopyHeld (s : State) (c : Nat) (d : List Byte) (r : Nat) : Prop where
  lt : c < 8
  held : hdmaHeld s c = [d]
  record : hf d 0x20 6 47 0 = ownGa s r
  aligned : r % 8 = 0
  free : Lp5xFree s r 8
  done : CanSignal s (decide (hf d 0 4 2 2 = 1)) (hf d 4 2 13 0)
  quiet : hf d 0 4 3 3 = 0

/-- A descriptor has ended (R450): the bytes moved lie at `a`, the status record at `r`, DONE_SYNC is signalled, and the channel is empty. -/
def CopyEnded (s t : State) (c : Nat) (d : List Byte) (r status moved a : Nat) (data : List Byte) : Prop :=
  t.host = { s.host with hdma := tabSet s.host.hdma c [], hdmaAt := tabSet s.host.hdmaAt c (extTime s) } ∧
    fld t (R.HDMA_STAT.val c) = 0 ∧ fld t (R.HDMA_STAT.DROPPED c) = fld s (R.HDMA_STAT.DROPPED c) ∧
    DoneSignal s t (decide (hf d 0 4 2 2 = 1)) (hf d 4 2 13 0) ∧
    ∀ x, memRead t.mem x =
      if r ≤ x ∧ x < r + 8 then (bytesLE 8 (status + 2 ^ 32 * moved)).getD (x - r) 0
      else if a ≤ x ∧ x < a + data.length then data.getD (x - a) 0 else memRead s.mem x

/-- The vector's message, where it is not masked. -/
def vectorOut (s : State) (v : Nat) : Out := ⟨.msix, [v, fld s (R.MSIX.ADDR_LO v) + 2 ^ 32 * fld s (R.MSIX.ADDR_HI v), fld s (R.MSIX.DATA v)], []⟩

/-- The time at which a frame leaves (R392). -/
def egressTime (s : State) (p : Nat) : Nat := (nowNs s + fld s (R.ETH_TXLAT.val p)) % 2 ^ 32

/-- What a transmit descriptor is written back with (Table 14-6). -/
def wantBack (s : State) (d : List Byte) (p status : Nat) : List Byte :=
  bytesLE 4 (status + 2 ^ 16 * fld s R.TIME_STAT.STEP_SEQ + 2 ^ 31) ++
    bytesLE 4 (if bitOf (fieldLE d 8 4) 14 ∧ (status = 0 ∨ status = 2) then egressTime s p else fieldLE d 0x1C 4)

/-- A frame as it leaves: a one-step frame has the difference of egress and REF_TS, in units of 2^-16 ns, added to its correctionField (R394). -/
def wantFrame (s : State) (d frame : List Byte) (p : Nat) : List Byte :=
  let corr := bitsOf (fieldLE d 8 4) 26 16
  if bitOf (fieldLE d 8 4) 15 then
    putBytes frame corr (bytesBE 8 (wrapTo 64 ((numBE (sliceBytes frame corr 8) : Int) +
      signed 32 (egressTime s p + 2 ^ 32 - fieldLE d 0x10 4) * 2 ^ 16)))
  else frame

/-- A descriptor whose frame goes out as it stands, or with one-step timing and no checksum: its lengths are in range and the time
difference is none that TS_RANGE names. -/
def GoodTransmit (s : State) (d : List Byte) (p : Nat) : Prop :=
  (let w := fieldLE d 8 4
   let len := bitsOf w 13 0
   64 ≤ len ∧ len ≤ fld s (R.ETH_CTL.MAXLEN p) ∧ flag s (R.ETH_STAT.LINK p) = true ∧
     (bitOf w 15 = true → p ≠ 2 ∧ bitsOf (fieldLE d 0xC 4) 10 0 = 0 ∧ bitsOf w 26 16 + 8 ≤ len ∧
       (egressTime s p + 2 ^ 32 - fieldLE d 0x10 4) % 2 ^ 32 ≠ 2 ^ 31))

end Sys2Proof.Machine

/-- The link's state is reported; its loss ends copies with LINK_DOWN. FLR and PERST_N clear the MSI-X table, the host's staging buffer and the rings of pairs 0 to
3, and set FLR_SEEN. An unmasked vector that is pending is sent. A host copy descriptor is staged, held, or dropped where 16 are held; it ends with its record: OK
with the bytes moved, BAD_DESCRIPTOR, HOST_ERROR, TIMEOUT, POISON or LINK_DOWN. Window B writes reach LP5X, in the root role inbound writes do, and the sync range
signals objects. The words of a host write that the host may not write are denied and reported once; Warden writes a register's fields under their access codes
(R9, R222, R444, R445, R447 to R451, R466 to R468, R494). -/
def Obligations.HostPortMovesData : Prop :=
  ∀ (s : State), s.Inv → s.events.length < 256 →
    (let stat := R.HIF_STAT.LINK_UP.off
     (∀ speed width, speed < 8 → width < 16 →
       (linkHeld s 0 0 = true → exec (.pcieLinkUp speed width) s = .next s) ∧
       (linkHeld s 0 0 = false → ∃ t, exec (.pcieLinkUp speed width) s = .next t ∧ t = { s with regs := t.regs } ∧ RegsBut [stat] s t ∧
         flag t R.HIF_STAT.LINK_UP = true ∧ fld t R.HIF_STAT.SPEED = speed ∧ fld t R.HIF_STAT.WIDTH = width)) ∧
     (∀ c d r, CopyHeld s c d r → (∀ b, b < 8 → b ≠ c → hdmaHeld s b = []) → hf d 0 4 0 0 = 1 → hdmaBad s c d = false →
       ∃ t, exec (.pcieLinkDown []) s = .next t ∧
         t = { s with host := t.host, regs := t.regs, mem := t.mem, marks := t.marks, syncs := t.syncs } ∧
         CopyEnded s t c d r 5 0 0 [] ∧ RegsBut [stat, (R.HDMA_STAT.val c).off] s t ∧ flag t R.HIF_STAT.LINK_UP = false ∧
         fld t R.HIF_STAT.SPEED = 0 ∧ fld t R.HIF_STAT.WIDTH = 0) ∧
     ((∀ c, c < 8 → hdmaHeld s c = []) → ∀ row, row = Instr.flr [] ∨ row = Instr.perstN [] → ∃ t, exec row s = .next t ∧
       t = { s with regs := t.regs, queues := t.queues, host := { s.host with barB := 4 }, wdn := t.wdn } ∧
       (let kept : State := { s with regs := s.regs.filter (fun x => !(0x5A1000 ≤ x.1 && x.1 < 0x5A1810)) }
        RegsBut [stat] kept t ∧ BitsAre (reg kept stat) (reg t stat) [(10, true)]) ∧
       (∀ off, 0x5A1000 ≤ off → off < 0x5A1810 → reg t off = reg State.reset off) ∧
       t.queues = { s.queues with staging := s.queues.staging.filter (fun x => x.1 % 1024 ≠ 97) } ∧
       (∀ k, mail t k = if pairOf k < 4 then { Mail.reset k with ticket := (mail s k).ticket } else mail s k) ∧
       t.wdn = { s.wdn with mails := t.wdn.mails, jobs := s.wdn.jobs.map (fun j => if j.key < 4 then { j with key := noKey } else j) }) ∧
     (∀ v, v < 128 →
       (let mask := (R.MSIX.MASK v).off
        let pba := (R.PBA.PENDING (v / 32)).off
        (bitOf (reg s pba) (v % 32) = true → ∃ t, exec (.msixUnmask v) s = .next t ∧ t = { s with regs := t.regs, out := vectorOut s v :: s.out } ∧
          RegsBut [mask, pba] s t ∧ flag t (R.MSIX.MASK v) = false ∧ BitsAre (reg s pba) (reg t pba) [(v % 32, false)]) ∧
        (bitOf (reg s pba) (v % 32) = false → ∃ t, exec (.msixUnmask v) s = .next t ∧ t = { s with regs := t.regs } ∧ RegsBut [mask] s t ∧
          flag t (R.MSIX.MASK v) = false))) ∧
     (∀ (w : Who) (c : Nat) (d : List Byte), c < 8 → hdmaOpen s w c = true → d.length = 64 →
       (let key := 1024 * 4 + stageSrc s w
        let l := hdmaHeld s c
        let staged : Queues := { s.queues with staging := tabErase s.queues.staging key }
        let cnt := (R.HDMA_STAT.val c).off
        tabFind s.queues.staging key = none →
        (∃ t, exec (.hostCopyDescriptor w c 8 (d.take 16)) s = .next t ∧ t = { s with queues := { s.queues with
          staging := tabSet s.queues.staging key (List.replicate 8 0 ++ d.take 16 ++ List.replicate 40 0) } }) ∧
        (l.length < 16 → flag s (R.HDMA_CFG.EN c) = true → ∃ t, exec (.hostCopyDescriptor w c 0 d) s = .next t ∧
          t = { s with queues := staged, regs := t.regs, host := t.host } ∧ RegsBut [cnt] s t ∧ fld t (R.HDMA_STAT.val c) = l.length + 1 ∧
          fld t (R.HDMA_STAT.DROPPED c) = fld s (R.HDMA_STAT.DROPPED c) ∧
          t.host = { s.host with
            hdma := tabSet s.host.hdma c (l ++ [d]), hdmaAt := if l = [] then tabSet s.host.hdmaAt c (extTime s) else s.host.hdmaAt }) ∧
        (16 ≤ l.length ∨ flag s (R.HDMA_CFG.EN c) = false → ∃ t, exec (.hostCopyDescriptor w c 0 d) s = .next t ∧
          t = { s with queues := staged, regs := t.regs, events := t.events } ∧ RegsBut [cnt] s t ∧
          fld t (R.HDMA_STAT.val c) = fld s (R.HDMA_STAT.val c) ∧
          fld t (R.HDMA_STAT.DROPPED c) = (fld s (R.HDMA_STAT.DROPPED c) + 1) % 2 ^ 16 ∧ Reported s t 0x0605 97 [0, c]))) ∧
     (∀ c d r a, CopyHeld s c d r → s.posted = [] → flag s R.HIF_STAT.LINK_UP = true →
       (let len := hLen d
        let host := fieldLE d 8 8
        let cnt := (R.HDMA_STAT.val c).off
        let poi := R.HIF_POISON.val.off
        let only (t : State) : Prop := t = { s with host := t.host, regs := t.regs, mem := t.mem, marks := t.marks, syncs := t.syncs, out := t.out }
        (hdmaBad s c d = true → ∀ came ep err, ∃ t, exec (.hostCopyDone c came ep err) s = .next t ∧ only t ∧ t.out = s.out ∧ RegsBut [cnt] s t ∧
          CopyEnded s t c d r 1 0 0 []) ∧
        (hf d 0 4 0 0 = 0 → hf d 0 4 1 1 = 0 → hf d 0x10 6 47 0 = ownGa s a → Lp5xSound s a len → ∀ came ep,
          ∃ t, exec (.hostCopyDone c came ep none) s = .next t ∧ only t ∧ RegsBut [cnt] s t ∧ CopyEnded s t c d r 0 len 0 [] ∧
            t.out = ⟨.hostRead, [host + len - 1, 0], []⟩ :: ⟨.hostWrite, [host, 0], memBytes s a len⟩ :: s.out) ∧
        (hf d 0 4 0 0 = 0 → hf d 0 4 1 1 = 1 → len ≤ 16 → ∀ came ep,
          ∃ t, exec (.hostCopyDone c came ep none) s = .next t ∧ only t ∧ RegsBut [cnt] s t ∧ CopyEnded s t c d r 0 len 0 [] ∧
            t.out = ⟨.hostRead, [host + len - 1, 0], []⟩ :: ⟨.hostWrite, [host, 0], sliceBytes d 0x28 len⟩ :: s.out) ∧
        (hf d 0 4 0 0 = 1 → hf d 0 4 1 1 = 0 → hf d 0x10 6 47 0 = ownGa s a → Lp5xFree s a len → r + 8 ≤ a ∨ a + len ≤ r →
          ∀ (came : List Byte), came.length = len →
          (∀ ep, ∃ t, exec (.hostCopyDone c came ep none) s = .next t ∧ only t ∧ t.out = s.out ∧ RegsBut [cnt, poi] s t ∧
            fld t R.HIF_POISON.val = (fld s R.HIF_POISON.val + num ep) % 2 ^ 32 ∧ CopyEnded s t c d r (if ep then 4 else 0) len a came) ∧
          (∀ n, n ≤ len → ∃ t, exec (.hostCopyDone c came false (some n)) s = .next t ∧ only t ∧ t.out = s.out ∧ RegsBut [cnt] s t ∧
            CopyEnded s t c d r 2 n a (came.take n))))) ∧
     (∀ after c d r a part, (let s' := advance s after
       CopyHeld s' c d r → hdmaBad s' c d = false → hf d 0 4 0 0 = 1 → hf d 0x10 6 47 0 = ownGa s' a → Lp5xFree s' a part.length →
       part.length ≤ hLen d → r + 8 ≤ a ∨ a + part.length ≤ r →
       (tabGet s'.host.hdmaAt c 0 + 50000000 ≤ extTime s' → ∃ t, exec (.hostCopyTimeout after c part) s = .next t ∧
         t = { s' with host := t.host, regs := t.regs, mem := t.mem, marks := t.marks, syncs := t.syncs } ∧
         RegsBut [(R.HDMA_STAT.val c).off] s' t ∧ CopyEnded s' t c d r 3 part.length a part) ∧
       (extTime s' < tabGet s'.host.hdmaAt c 0 + 50000000 → exec (.hostCopyTimeout after c part) s = .next s'))) ∧
     (∀ (a : Nat) (d : List Byte), Lp5xFree s a d.length →
       (rootRole s = false → a < 2 ^ (30 + s.host.barB) → flag s R.HIF_CTL.BWIN_LOCAL = true →
         (flag s R.HIF_STAT.POOL_READY = true → a < lp5xEnd → ∀ ep, ∃ t, exec (.windowBWrite a d ep) s = .next t ∧
           t = { s with mem := t.mem, marks := t.marks, regs := t.regs } ∧ MemIs s t a d ∧ RegsBut [R.HIF_POISON.val.off] s t ∧
           fld t R.HIF_POISON.val = (fld s R.HIF_POISON.val + num ep) % 2 ^ 32) ∧
         (flag s R.HIF_STAT.POOL_READY = false → s.flash.refused = none → ∃ t k, exec (.windowBWrite a d false) s = .next t ∧
           t = { s with events := t.events } ∧ Reported s t 0x0107 97 [ownGa s a, 1, k])) ∧
       (rootRole s = true → exec (.windowBWrite a d false) s = .next s ∧ ∃ t, exec (.inboundMemoryWrite a d false) s = .next t ∧
         t = { s with mem := t.mem, marks := t.marks } ∧ MemIs s t a d)) ∧
     (∀ a d, rootRole s = true → lp5xEnd < a → exec (.inboundMemoryWrite a d false) s = .next { s with out := ⟨.response, [97, 1, a], []⟩ :: s.out }) ∧
     (∀ n, n < 16384 → (rootRole s = true → FreeSemaphore s n → ∃ t, exec (.inboundSyncWrite n 1) s = .next t ∧ t = { s with syncs := t.syncs } ∧
         ValuesAre s t (fun m => if m = n then (syncObj s n).value + 1 else (syncObj s m).value)) ∧
       (rootRole s = false → exec (.inboundSyncWrite n 1) s = .next s)) ∧
     (∀ v : BitVec 32,
       (let d := bytesLE 4 v.toNat
        (∀ off, rootRole s = false → off < 0x1000000 → off % 4 = 0 → hostWritable s off = false → ∃ t, exec (.registerWrite .host off d) s = .next t ∧
          t = { s with regs := t.regs, events := t.events } ∧ RegsBut [R.HIF_DENIED.val.off] s t ∧
          fld t R.HIF_DENIED.val = (fld s R.HIF_DENIED.val + 1) % 2 ^ 32 ∧ Reported s t 0x0601 97 [off]) ∧
        (∀ k, k < 128 → rootRole s = false → ∃ t, exec (.registerWrite .host (R.MSIX.DATA k).off d) s = .next t ∧ t = { s with regs := t.regs } ∧
          RegsBut [(R.MSIX.DATA k).off] s t ∧ fld t (R.MSIX.DATA k) = v.toNat) ∧
        (∃ t, exec (.registerWrite .warden stat d) s = .next t ∧ t = { s with regs := t.regs } ∧ RegsBut [stat] s t ∧
          BitsAre (reg s stat) (reg t stat) [(9, bitOf v.toNat 9), (10, flag s R.HIF_STAT.FLR_SEEN && !bitOf v.toNat 10)]))))

/-- A port's link levels are reported; a transmit descriptor has its frame sent, with the one-step correction, and is written back with DONE, or is completed
unsent where the link is down; a received frame goes to the ring of the first filter that matches, with its stamp, or is dropped and counted; a ring notifies
10 µs after its oldest completion; only its owner writes a ring's TAIL. A read of the execute-in-place window returns the flash's bytes, and is refused while the
device is busy; a command other than a read keeps its device busy until its effect is there (R392, R394, R453 to R458, R462, R463, R467). -/
def Obligations.EthernetAndFlash : Prop :=
  ∀ (s : State), s.Inv → s.events.length < 256 →
    (∀ p, p < 3 → (let stat := (R.ETH_STAT.LINK p).off
      (∀ an fec sg, sg < 4 →
        (linkHeld s 1 p = true → exec (.ethLinkUp p an fec sg) s = .next s) ∧
        (linkHeld s 1 p = false → ∃ t, exec (.ethLinkUp p an fec sg) s = .next t ∧ t = { s with regs := t.regs } ∧ RegsBut [stat] s t ∧
          flag t (R.ETH_STAT.LINK p) = true ∧ flag t (R.ETH_STAT.AN_DONE p) = an ∧ flag t (R.ETH_STAT.FEC_LOCK p) = fec ∧
          fld t (R.ETH_STAT.SGMII_SPEED p) = sg)) ∧
      (p = 2 ∨ flag s (R.ETH_CTL.EN p) = false ∨ (∀ r, r < 4 → ringHeld s p r = 0) → ∃ t, exec (.ethLinkDown p) s = .next t ∧
        t = { s with regs := t.regs } ∧ RegsBut [stat] s t ∧ reg t stat = 0) ∧
      (∀ r own, r < 4 → flag s (R.ETH_CTL.EN p) = false → exec (.ethTransmit p r own) s = .next s) ∧
      (∀ f ok, flag s (R.ETH_CTL.EN p) = false → exec (.ethReceive p f ok ok) s = .next s) ∧
      (flag s (R.ETH_CTL.EN p) = true → ∀ f : List Byte,
       (let counted (row : Instr) (j : Nat) : Prop := ∃ t, exec row s = .next t ∧
          t = { s with regs := t.regs } ∧ RegsBut [(R.ETH_CNT.RX_OK p j).off] s t ∧
          fld t (R.ETH_CNT.RX_OK p j) = (fld s (R.ETH_CNT.RX_OK p j) + 1) % 2 ^ 32
        let fits := 64 ≤ f.length ∧ f.length ≤ fld s (R.ETH_CTL.MAXLEN p)
        (∃ t, exec (.ethReceive p f true false) s = .next t ∧ t = { s with regs := t.regs, events := t.events } ∧
          RegsBut [(R.ETH_CNT.RX_OK p 6).off] s t ∧ fld t (R.ETH_CNT.RX_OK p 6) = (fld s (R.ETH_CNT.RX_OK p 6) + 1) % 2 ^ 32 ∧
          Reported s t 0x0604 102 [p]) ∧
        counted (.ethReceive p f false true) 1 ∧ (¬ fits → counted (.ethReceive p f true true) 2) ∧
        (fits → flag s (R.ETH_CTL.PAUSE_RX p) = true → isPause f = true → ∃ t, exec (.ethReceive p f true true) s = .next t ∧
          t = { s with regs := t.regs, eth := { s.eth with
            paused := tabSet s.eth.paused p (extTime s + pauseNs s p (numBE (sliceBytes f 16 2))) } } ∧ RegsBut [(R.ETH_CNT.RX_OK p 0).off] s t) ∧
        (fits → isPause f = false → p ≠ 2 →
          (filterOf s p f = none → flag s (R.ETH_CTL.PROMISC p) = false → exec (.ethReceive p f true true) s = .next s) ∧
          (∀ i, filterOf s p f = some i → ringHeld s p (4 + fld s (R.FILT_CFG.RING p i)) = 0 → counted (.ethReceive p f true true) 3) ∧
          (∀ i a b, filterOf s p f = some i → (let r := 4 + fld s (R.FILT_CFG.RING p i)
            let d := memBytes s a 32
            ringHeld s p r ≠ 0 → ringDesc s p r = ownGa s a → a % 32 = 0 → Lp5xSound s a 32 → fieldLE d 0 6 = ownGa s b →
            f.length ≤ bitsOf (fieldLE d 8 4) 13 0 → Lp5xFree s b f.length → flag s (R.RING_CFG.NOTIFY_EN p r) = false →
            a + 32 ≤ b ∨ b + f.length ≤ a →
            (let back := bytesLE 4 (f.length + 2 ^ 16 * i + 2 ^ 31) ++ bytesLE 4 ((nowNs s + 2 ^ 32 - fld s (R.ETH_RXLAT.val p)) % 2 ^ 32) ++
               bytesLE 1 (fld s R.TIME_STAT.STEP_SEQ)
             ∃ t, exec (.ethReceive p f true true) s = .next t ∧ t = { s with regs := t.regs, mem := t.mem, marks := t.marks } ∧
              RegsBut [(R.ETH_CNT.RX_OK p 0).off, (R.RING_HEAD.HEAD p r).off] s t ∧
              fld t (R.RING_HEAD.HEAD p r) = (fld s (R.RING_HEAD.HEAD p r) + 1) % ringSize s p r % 2 ^ 12 ∧
              ∀ x, memRead t.mem x = if a + 0x10 ≤ x ∧ x < a + 0x19 then back.getD (x - (a + 0x10)) 0
                else if b ≤ x ∧ x < b + f.length then f.getD (x - b) 0 else memRead s.mem x)))))))) ∧
    (∀ p r a b own, p < 2 → r < 4 → (let d := memBytes s a 32
      let len := bitsOf (fieldLE d 8 4) 13 0
      let head := fld s (R.RING_HEAD.HEAD p r)
      let ended (t : State) (status : Nat) (l : List Nat) : Prop := MemIs s t (a + 0x18) (wantBack s d p status) ∧
        RegsBut ((R.RING_HEAD.HEAD p r).off :: l) s t ∧ fld t (R.RING_HEAD.HEAD p r) = (head + 1) % ringSize s p r % 2 ^ 12
      txReady s p = true → flag s (R.RING_CFG.NOTIFY_EN p r) = false → ringHeld s p r ≠ 0 → ringDesc s p r = ownGa s a → a % 32 = 0 → Lp5xSound s a 32 →
      (GoodTransmit s d p → fieldLE d 0 6 = ownGa s b → Lp5xSound s b len → ∃ t, exec (.ethTransmit p r own) s = .next t ∧
        t = { s with regs := t.regs, mem := t.mem, marks := t.marks, out := ⟨.frame, [p], wantFrame s d (memBytes s b len) p⟩ :: s.out } ∧
        ended t 0 [(R.ETH_CNT.RX_OK p 4).off] ∧ fld t (R.ETH_CNT.RX_OK p 4) = (fld s (R.ETH_CNT.RX_OK p 4) + 1) % 2 ^ 32) ∧
      (flag s (R.ETH_STAT.LINK p) = false → ∃ t, exec (.ethTransmit p r own) s = .next t ∧
        t = { s with regs := t.regs, mem := t.mem, marks := t.marks } ∧
        ended t 5 [(R.ETH_CNT.RX_OK p 5).off] ∧ fld t (R.ETH_CNT.RX_OK p 5) = (fld s (R.ETH_CNT.RX_OK p 5) + 1) % 2 ^ 32))) ∧
    (∀ r (own : List Byte), r < 4 → (let d := own.take 32
      txReady s 2 = true → own.length = 32 + bitsOf (fieldLE d 8 4) 13 0 → GoodTransmit s d 2 → ∃ t, exec (.ethTransmit 2 r own) s = .next t ∧
        t = { s with regs := t.regs, out := ⟨.notice, [2], wantBack s d 2 0⟩ :: ⟨.frame, [2], wantFrame s d (own.drop 32) 2⟩ :: s.out } ∧
        RegsBut [(R.ETH_CNT.RX_OK 2 4).off] s t)) ∧
    (∀ after p r, p < 2 → r < 8 → (let s' := advance s after
      ∀ n at_, tabFind s'.eth.done (8 * p + r) = some (n, at_) → s'.posted = [] →
        (extTime s' < at_ + 10000 → exec (.ethNotify after p r) s = .next s') ∧
        (at_ + 10000 ≤ extTime s' → exec (.ethNotify after p r) s = .next { s' with
          eth := { s'.eth with done := tabErase s'.eth.done (8 * p + r) }
          queues := { s'.queues with ringIn := s'.queues.ringIn ++ [⟨chipId s', 102, fld s' (R.RING_CFG.NOTIFY_Q p r), none,
            bytesLE 1 p ++ bytesLE 1 r ++ bytesLE 2 (fld s' (R.RING_HEAD.HEAD p r)) ++ List.replicate 60 0⟩] } }))) ∧
    (∀ p r v, p < 2 → r < 8 → rootRole s = false → (let tail := R.RING_TAIL.TAIL p r
      let o := fld s (R.RING_CFG.OWNER p r)
      let written (t : State) : Prop := t = { s with regs := t.regs } ∧ RegsBut [tail.off] s t ∧ fld t tail = v % 2 ^ 12
      (o = 12 → ∃ t, exec (.ringTail .host p r v) s = .next t ∧ written t) ∧
      (o ≠ 12 → ∃ t, exec (.ringTail .host p r v) s = .next t ∧ t = { s with regs := t.regs, events := t.events } ∧
        RegsBut [R.HIF_DENIED.val.off] s t ∧ Reported s t 0x0601 97 [tail.off]) ∧
      (∀ c, (activePart s c = some o → ∃ t, exec (.ringTail (.pilot c) p r v) s = .next t ∧ written t) ∧
        (activePart s c ≠ some o → s.flash.refused = none → ∃ t k, exec (.ringTail (.pilot c) p r v) s = .next t ∧
          t = { s with events := t.events } ∧ Reported s t 0x0107 (Who.pilot c).agent [ownGa s (0xA0000000000 + tail.off), 1, k])))) ∧
    (∀ (w : Who) (dev off n : Nat) (timeout : Bool), dev < 2 → off < 67108864 → flag s R.XSPI_CTL.MODE_8D = true →
      (let data := memBytes s (flashAddr dev off) (min n (128 - off % 128))
       (flashBusy s dev = false → tabGet s.flash.buf dev [] = [] → ∃ t, exec (.xipRead w dev off n timeout) s = .next t ∧
         t = { s with flash := { s.flash with buf := t.flash.buf }, regs := t.regs, events := t.events, out := ⟨.response, [w.agent, num timeout], data⟩ :: s.out } ∧
         RegsBut [R.XSPI_DQS_ERR.val.off] s t ∧ fld t R.XSPI_DQS_ERR.val = (fld s R.XSPI_DQS_ERR.val + num timeout) % 2 ^ 32 ∧
         (if timeout then Reported s t 0x0603 0x7F [flashAddr dev off] else t.events = s.events)) ∧
       (flashBusy s dev = true → ∃ t, exec (.xipRead w dev off n timeout) s = .next t ∧
         t = { s with regs := t.regs, events := t.events, flash := { s.flash with refused := none } } ∧ RegsBut [R.XSPI_BUSY_READS.val.off] s t ∧
         fld t R.XSPI_BUSY_READS.val = (fld s R.XSPI_BUSY_READS.val + 1) % 2 ^ 32 ∧ Reported s t 0x0602 w.agent [flashAddr dev off]))) ∧
    (∀ dev op addr d, dev < 2 → (let stat := R.XSPI_STAT.BUSY_A.off
      let writes := op = 0x12 ∨ op = 0x21 ∨ op = 0xDC
      (op ∈ flashOps → flashBusy s dev = false → (writes → fld s R.WDN_STAT.IMAGE ≠ dev) → ∃ t, exec (.xspiCmd dev op addr d) s = .next t ∧
        t = { s with
          regs := t.regs, flash := { s.flash with cmds := s.flash.cmds ++ [⟨dev, op, addr, d⟩] }, out := ⟨.flash, [dev, op, addr], d⟩ :: s.out } ∧
        RegsBut [R.XSPI_CMD.val.off, stat] s t ∧ fld t R.XSPI_CMD.val = op ∧
        BitsAre (reg s stat) (reg t stat) (if writes then [(dev, true)] else [])) ∧
      (flashBusy s dev = true → op ≠ 0x05 → exec (.xspiCmd dev op addr d) s = .next s) ∧
      (∀ off, s.flash.cmds = [⟨dev, op, off, d⟩] → off < 0x4000000 →
        (let a := flashAddr dev off
         let effect (t : State) : Prop := ∀ x, memRead t.mem x =
           if op = 0x21 ∧ a / 4096 = x / 4096 then 255 else if op = 0xDC ∧ a / 65536 = x / 65536 then 255
           else if op = 0x12 ∧ a ≤ x ∧ x < a + min d.length (256 - off % 256) then memRead s.mem x &&& d.getD (x - a) 0 else memRead s.mem x
         ∃ t, exec (.xspiCmdDone dev) s = .next t ∧ t = { s with
             regs := t.regs, mem := t.mem, flash := { s.flash with cmds := [], buf := tabErase s.flash.buf dev } } ∧
           RegsBut [stat] s t ∧ BitsAre (reg s stat) (reg t stat) (if writes then [(dev, false)] else []) ∧ effect t))))

namespace Sys2Proof.Machine

/-! ### Mailboxes and immediate commands (R471 to R500, R554 to R556) -/

/-- The rings on which a command comes (R472, R479): a pair has one requester, but a fabric pair one for each chip. -/
def ringsOf (r : Sys2Proof.MailReq) : Nat := if 4 ≤ r.pair ∧ r.pair < 12 then 32 + r.chip else r.pair

/-- A version 1 message of Table 15-3 without a CRC. -/
def wantMessage (code flags seq : Nat) (body : List Byte) (status ts : Nat) : List Byte :=
  bytesLE 2 code ++ bytesLE 1 1 ++ bytesLE 1 flags ++ bytesLE 2 seq ++ bytesLE 1 body.length ++ bytesLE 1 status ++ bytesLE 4 ts ++
    bytesLE 4 0 ++ sliceBytes body 0 48

/-- Rings whose oldest request has been consumed and answered, with no other response owed (R473, R482). The path of a fabric or management
pair takes what is posted. -/
def answeredMail (x : Mail) (key : Nat) (rsp : List Byte) : Mail :=
  let tail := (x.rspTail + 1) % 2 ^ 16
  let carried : Bool := 32 ≤ key || key = 12 || key = 13
  { x with
    reqHead := (x.reqHead + 1) % 2 ^ 16, rsp := tabSet x.rsp (x.rspTail % 8) rsp, rspTail := tail, ticket := x.ticket + 1, owed := []
    rspHead := if carried then tail else x.rspHead, ntcHead := if carried then x.ntcTail else x.ntcHead }

/-- Rings with one more request posted, kept among the last 8 (R473, R478). -/
def postedMail (x : Mail) (m : List Byte) (rsp : Option (List Byte)) (seq : Nat) : Mail :=
  { x with
    req := tabSet x.req (x.reqTail % 8) m, reqTail := (x.reqTail + 1) % 2 ^ 16
    kept := (x.kept ++ [KeptReq.mk seq m x.ticket rsp none]).drop (x.kept.length - 7) }

/-- What leaves with a response: a packet to a fabric peer, a datagram with its HMAC, the pair's vector, or nothing (R475, R476, R479). -/
def Leaves (u t : State) (key : Nat) (m : List Byte) : Prop :=
  let x := mail u key
  let pba : Nat := (R.PBA.PENDING (x.vector / 32)).off
  if 32 ≤ key then t.regs = u.regs ∧ t.out = u.out ∧ Sent u t [(key - 32, 0x36, 100, (key - 32) * 2 ^ 44, m.take 16, m.drop 16)]
  else
    t.fabric = u.fabric ∧
      if key = 12 ∨ key = 13 then
        t.regs = u.regs ∧ t.out = (match u.wdn.mgmt with
          | some g => Out.mk .datagram [key, x.from_] (m ++ bytesLE 32 (Sys2Proof.Config.hmac g.key m).toNat) :: u.out
          | none => u.out)
      else if key < 4 ∧ x.vecEn = true then
        if flag u (R.MSIX.MASK x.vector) = true then
          t.out = u.out ∧ RegsBut [pba] u t ∧ BitsAre (reg u pba) (reg t pba) [(x.vector % 32, true)]
        else t.regs = u.regs ∧ t.out = vectorOut u x.vector :: u.out
      else t.regs = u.regs ∧ t.out = u.out

/-- `t` is `u`, which is the state before the command with the command's own effect, and the request has been posted, consumed and answered. -/
def Replied (t : State) (r : Sys2Proof.MailReq) (code status : Nat) (body : List Byte) (u : State) : Prop :=
  let key := ringsOf r
  let m := wantMessage code 0 r.seq r.payload 0 0
  let rsp := wantMessage code 2 r.seq body status 0
  t = { u with
    wdn := { u.wdn with mails := tabSet u.wdn.mails key (answeredMail (postedMail (mail u key) m (some rsp) r.seq) key rsp) }
    out := t.out, fabric := t.fabric, regs := t.regs } ∧ Leaves u t key rsp

/-- A version 1 request with a fresh SEQ whose group may issue the command (bit 0 H, 1 F, 2 M, 3 T) comes alone on a READY pair that has been
identified. No class B command waits, and the power state is FULL, CAPPED or NIGHT. -/
structure Asks (s : State) (code groups : Nat) (payload : List Byte) (r : Sys2Proof.MailReq) : Prop where
  names : r.pair < 16 ∧ r.chip < 16 ∧ r.ver = 1 ∧ r.seq < 2 ^ 16 ∧ r.payload = payload
  group : bitOf groups (if 32 ≤ ringsOf r then 1 else if r.pair < 4 then 0 else if r.pair < 14 then 2 else 3) = true
  role : r.pair < 4 → rootRole s = false
  ready : flag s R.WDN_STAT.RUNNING = true ∧ flag s R.PWR_STATE.PWRFAIL = false ∧ bitOf s.wdn.ready (pairOf (ringsOf r)) = true
  known : code = 1 ∨ (mail s (ringsOf r)).identified = true
  alone : (mail s (ringsOf r)).reqTail = (mail s (ringsOf r)).reqHead ∧ (mail s (ringsOf r)).reqHead < 2 ^ 16 ∧
    ((mail s (ringsOf r)).reqHead + 2 ^ 16 - (mail s (ringsOf r)).rspHead) % 2 ^ 16 < 8 ∧ (mail s (ringsOf r)).owed = []
  new : ∀ k, k ∈ (mail s (ringsOf r)).kept → k.seq ≠ r.seq ∧ k.ticket ≠ (mail s (ringsOf r)).ticket
  calm : s.wdn.accepted = [] ∧ fld s R.PWR_STATE.STATE < 3 ∧ s.posted = []

/-- The command answers SUCCESS with `body`, whatever pair brings it; `u` is the state with its own effect. -/
def Answers (s : State) (row : Sys2Proof.MailReq → Instr) (code groups : Nat) (payload body : List Byte) (u : State) : Prop :=
  ∀ r, Asks s code groups payload r → ∃ t, exec (row r) s = .next t ∧ Replied t r code 0 body u

/-- The state with other rings for one requester. -/
def withMail (s : State) (key : Nat) (x : Mail) : State := { s with wdn := { s.wdn with mails := tabSet s.wdn.mails key x } }

/-- A reference to own LP5X, and one to host memory (R480). -/
def ownRef (s : State) (a len : Nat) : List Byte := bytesLE 8 (ownGa s a) ++ bytesLE 4 len ++ bytesLE 4 0
def hostRef (a len : Nat) : List Byte := bytesLE 8 a ++ bytesLE 4 len ++ bytesLE 4 1

/-- A log entry (Table 18-3). -/
def wantEntryBytes (x : LogEntry) : List Byte := bytesLE 8 x.at_ ++ bytesLE 2 x.code ++ bytesLE 1 x.agent ++ bytesLE 1 x.chip ++ bytesLE 4 x.count ++ x.arg

/-- A copy of the boot configuration block (Table 17-2). -/
def wantBcb (seq prefer va vb : Nat) : List Byte :=
  let b := bytesLE 4 0x31424342 ++ bytesLE 2 1 ++ bytesLE 2 0 ++ bytesLE 4 seq ++ bytesLE 4 prefer ++ bytesLE 4 va ++ bytesLE 4 vb ++ List.replicate 4068 0
  b ++ bytesLE 4 (crc32c b)

/-- The response of TEST_PRBS (R560). -/
def wantPrbs (x : Prbs) : List Byte :=
  (List.range 8).flatMap (fun k => bytesLE 4 (min (2 ^ 32 - 1) (tabGet x.errs k 0))) ++ bytesLE 8 x.bits ++ bytesLE 4 x.lock ++ bytesLE 4 x.losses

/-- The oldest request `m` of a pair can be consumed, and no response is owed before it. -/
structure Consumable (s : State) (key : Nat) (m : List Byte) : Prop where
  ready : flag s R.WDN_STAT.RUNNING = true ∧ flag s R.PWR_STATE.PWRFAIL = false ∧ bitOf s.wdn.ready (pairOf key) = true
  waits : (mail s key).reqTail ≠ (mail s key).reqHead ∧ ((mail s key).reqHead + 2 ^ 16 - (mail s key).rspHead) % 2 ^ 16 < 8
  first : (mail s key).owed = [] ∧ s.posted = []
  held : tabGet (mail s key).req ((mail s key).reqHead % 8) [] = m ∧ m.length = 64

/-- The response to a request, with an empty payload: its CRC is set where the request has CRC_EN (R477). -/
def wantStatusReply (m : List Byte) (status : Nat) : List Byte :=
  let h := m.take 3 ++ bytesLE 1 ((fieldLE m 3 1) % 2 + 2) ++ sliceBytes m 4 2 ++ bytesLE 1 0 ++ bytesLE 1 status ++ bytesLE 4 0
  h ++ bytesLE 4 (if bitOf (fieldLE m 3 1) 0 then crc32c h else 0) ++ List.replicate 48 0

/-- `t` is `u` with the oldest request consumed and answered by a message. -/
def Consumed (t : State) (key : Nat) (rsp : List Byte) (u : State) : Prop :=
  t = { u with
    wdn := { u.wdn with mails := tabSet u.wdn.mails key (answeredMail (mail u key) key rsp) }
    out := t.out, fabric := t.fabric, regs := t.regs } ∧ Leaves u t key rsp

end Sys2Proof.Machine

/-- REQ_TAIL moves a pair's tail. REQUEST_CONSUME takes nothing while no request waits, no response slot is free, the pair is not READY or PWRFAIL stands; a
request that is too long or whose CRC is wrong is answered and not kept, a used SEQ with another request is answered SEQ_REUSE, and a retry posts the kept
response with REPLAY set; the first check of Table 15-4 that applies gives the status. MGMT_DATAGRAM posts the request of a datagram whose HMAC holds and
counts any other (R473, R475, R477, R478, R485, R498, R500). -/
def Obligations.MailboxesTakeRequests : Prop :=
  ∀ (s : State), s.Inv →
    (∀ pair chip v, pair < 16 → chip < 16 → (let key := if 4 ≤ pair ∧ pair < 12 then 32 + chip else pair
      (pair < 4 ∧ rootRole s = true → exec (.reqTail pair chip v) s = .next s) ∧
      (¬ (pair < 4 ∧ rootRole s = true) →
        exec (.reqTail pair chip v) s = .next (withMail s key { mail s key with reqTail := v % 2 ^ 16 })))) ∧
    (∀ pair chip (host : List Byte), pair < 16 → chip < 16 → (let key := if 4 ≤ pair ∧ pair < 12 then 32 + chip else pair
      let x := mail s key
      (flag s R.WDN_STAT.RUNNING = false ∨ flag s R.PWR_STATE.PWRFAIL = true ∨ bitOf s.wdn.ready (pairOf key) = false ∨ x.reqTail = x.reqHead ∨
        8 ≤ (x.reqHead + 2 ^ 16 - x.rspHead) % 2 ^ 16 → exec (.requestConsume pair chip host) s = .next s) ∧
      (∀ m, Consumable s key m → (let len := fieldLE m 6 1
        let seq := fieldLE m 4 2
        let code := fieldLE m 0 2
        let badCrc := bitOf (fieldLE m 3 1) 0 = true ∧ fieldLE m 12 4 ≠ crc32c (m.take 12 ++ (m.drop 16).take (min 48 len))
        let ends (st : Nat) (u : State) : Prop := ∃ t, exec (.requestConsume pair chip host) s = .next t ∧ Consumed t key (wantStatusReply m st) u
        let fails (st : Nat) : Prop := (∀ k, k ∈ x.kept → k.ticket ≠ x.ticket) →
          ends st (withMail s key { x with kept := (x.kept ++ [KeptReq.mk seq m x.ticket (some (wantStatusReply m st)) none]).drop (x.kept.length - 7) })
        (48 < len → ends 4 s) ∧ (len ≤ 48 → badCrc → ends 5 s) ∧
        (len ≤ 48 → ¬ badCrc →
          (∀ k, x.kept.find? (fun k => k.seq = seq) = some k →
            (let same := k.msg.take 3 = m.take 3 ∧ fieldLE k.msg 6 1 = len ∧ (k.msg.drop 16).take len = (m.drop 16).take len
             (k.msg.length = 64 → ¬ same → ends 11 s) ∧
             (k.msg.length = 64 → same → k.done = none → ∀ h rest, k.rsp = some (h ++ rest) → h.length = 4 → 12 ≤ rest.length →
               bitOf (fieldLE h 3 1) 0 = false → ∃ t, exec (.requestConsume pair chip host) s = .next t ∧
                 Consumed t key (h.take 3 ++ bytesLE 1 (putBits (fieldLE h 3 1) 3 3 1) ++ rest) s))) ∧
          ((∀ k, k ∈ x.kept → k.seq ≠ seq) →
            (cmdSpec code = none ∨ fieldLE m 2 1 ≠ 1 → fails 2) ∧
            (∀ sp, cmdSpec code = some sp → fieldLE m 2 1 = 1 → (code ≠ 1 → x.identified = false → fails 3) ∧
              (code = 1 ∨ x.identified = true → s.wdn.accepted = [] → fld s R.PWR_STATE.STATE < 2 →
                (let group := if 32 ≤ key then 1 else if key < 4 then 0 else if key < 14 then 2 else 3
                 (bitOf sp.groups group = false → fails 9) ∧
                 (bitOf sp.groups group = true → len ≠ sp.len → fails 4) ∧
                 (bitOf sp.groups group = true → len = sp.len →
                   (∃ i, i < len ∧ m.getD (16 + i) 0 ≠ 0 ∧ ∀ f, f ∈ sp.named → ¬ (f.1 ≤ i ∧ i < f.1 + f.2)) → fails 6)))))))))) ∧
    (∀ pair from_ (d : List Byte), pair = 12 ∨ pair = 13 →
      (s.wdn.mgmt = none → exec (.mgmtDatagram pair from_ d) s = .next s) ∧
      (∀ g, s.wdn.mgmt = some g → (let good := d.length = 96 ∧ numLE (d.drop 64) = (Sys2Proof.Config.hmac g.key (d.take 64)).toNat
        let x := mail s pair
        (¬ good → exec (.mgmtDatagram pair from_ d) s = .next { s with wdn := { s.wdn with mgmtBad := s.wdn.mgmtBad + 1 } }) ∧
        (good → (x.reqTail + 2 ^ 16 - x.reqHead) % 2 ^ 16 < 8 → exec (.mgmtDatagram pair from_ d) s = .next (withMail s pair { x with
          from_ := from_, req := tabSet x.req (x.reqTail % 8) (d.take 64), reqTail := (x.reqTail + 1) % 2 ^ 16 })))))

/-- Warden logs an event that it takes from the FIFO, joins a repeat of severity I or C within 1 s to its entry, and first records events that were
dropped. Errors of units are reported and have the outcome of Table 18-1; of a tag error in a remote line, only a copy in E or M carries poison to the home (log entry 73). A watchdog restart ends what Warden had under way, counts, and changes no
setting of the data plane (R496, R540, R552 to R556, R578). -/
def Obligations.ErrorsAreReportedAndLogged : Prop :=
  ∀ (s : State), s.Inv →
    (let lost := fld s R.EVT_LOST.val
     let entry (e : Event) : LogEntry := ⟨e.at_, e.code, e.agent, chipId s, 1, argBytes e.code e.args⟩
     let added (x : LogEntry) : List LogEntry := (if 512 ≤ s.wdn.log.length then s.wdn.log.drop 1 else s.wdn.log) ++ [x]
     let time (e : Event) : Prop := e.code = 0x0504 ∨ e.code = 0x0506 ∨ e.code = 0x0502 ∨ e.code = 0x0503
     Unheard s 1 →
     (lost ≤ s.wdn.lostSeen → s.events = [] → exec .eventLog s = .next s) ∧
     (∀ e rest, lost ≤ s.wdn.lostSeen → s.events = e :: rest → ¬ time e →
       (2 ≤ severity e.code → exec .eventLog s = .next { s with events := rest, wdn := { s.wdn with
         log := added (entry e), logNext := s.wdn.logNext + 1 } }) ∧
       (severity e.code < 2 → s.wdn.log = [] → tabFind s.wdn.noticed e.code = none →
         exec .eventLog s = .next { s with events := rest, wdn := { s.wdn with
           log := [entry e], logNext := s.wdn.logNext + 1
           noticed := tabSet s.wdn.noticed e.code e.at_, quiet := tabErase s.wdn.quiet e.code } }) ∧
       (severity e.code < 2 → ∀ old l before, s.wdn.log = old ++ [l] → l.code = e.code → l.agent = e.agent → l.chip = chipId s →
         e.at_ < l.at_ + 1000000000 → tabFind s.wdn.noticed e.code = some before → e.at_ < before + 1000000000 →
         exec .eventLog s = .next { s with events := rest, wdn := { s.wdn with
           log := old ++ [{ l with count := min (l.count + 1) (2 ^ 32 - 1) }]
           quiet := tabSet s.wdn.quiet e.code (tabGet s.wdn.quiet e.code 0 + 1) } })) ∧
     (s.wdn.lostSeen < lost → s.events = [] → exec .eventLog s = .next { s with wdn := { s.wdn with
       lostSeen := lost, log := added ⟨extTime s, 0x0805, 0x7F, chipId s, 1, argBytes 0x0805 [lost - s.wdn.lostSeen]⟩
       logNext := s.wdn.logNext + 1 } })) ∧
    (s.events.length < 256 →
      (let tells (e : Sys2Proof.UnitErr) (code agent : Nat) (args : List Nat) (u : State) : Prop :=
         exec (.eventReport e) s = .next { u with events := s.events ++ [⟨code, agent, args, extTime s⟩] }
       let ue : Nat := R.INT_UE.RING_UE.off
       (∀ code agent args, code ∈ eventCodes → tells (.other code agent args) code agent args s) ∧
       (∀ c off, c < 96 → off < 0x20000 → tells (.imemCe c off) 0x0202 c [c, off / 8 * 8] s ∧ ∃ t, exec (.eventReport (.imemUe c off)) s = .next t ∧
         t = { s with marks := { s.marks with poisonWords := t.marks.poisonWords } } ∧
         ∀ w, w ∈ t.marks.poisonWords ↔ w ∈ s.marks.poisonWords ∨ w = imemAddr c off / 8) ∧
       (∀ n set, tells (.squareCe n set) 0x0103 0x7F [n, set] s) ∧
       (∀ a, a < lp5xEnd → (let ga := chipId s * 2 ^ 44 + a
         ∃ t, exec (.eventReport (.squareTag ga)) s = .next t ∧ Reported s t 0x0104 0x7F [ga, 1] ∧
           t = { s with events := t.events, marks := { s.marks with poisonLines := t.marks.poisonLines } } ∧
           ∀ x, x ∈ t.marks.poisonLines ↔ x ∈ s.marks.poisonLines ∨ x = a / 128)) ∧
       (∀ a, homeOf (a / 128) ≠ chipId s →
         (tabFind s.coh.lines (a / 128) = none → tells (.squareTag a) 0x0104 0x7F [a, 1] s) ∧
         (∀ l, tabFind s.coh.lines (a / 128) = some l →
           (let gone := tabErase s.coh.lines (a / 128)
            (l.st = .s → tells (.squareTag a) 0x0104 0x7F [a, 1] { s with coh := { s.coh with lines := gone } }) ∧
            (l.st ≠ .s → ∃ t, exec (.eventReport (.squareTag a)) s = .next t ∧ Reported s t 0x0104 0x7F [a, 1] ∧
              t = { s with events := t.events, fabric := t.fabric, coh := { s.coh with lines := gone, wbOut := tabSet s.coh.wbOut (a / 128) l.data } } ∧
              Sent s t [(homeOf (a / 128), 0x05, 96, 128 * (a / 128), [1], l.data)])))) ∧
       (∀ a l, tabFind s.coh.lines (a / 128) = some l → tells (.squareData a) 0x0104 0x7F [a, 0]
         { s with coh := { s.coh with lines := tabSet s.coh.lines (a / 128) { l with poison := true } } }) ∧
       (∀ c r n, c < 96 → r < 32 → n < 32 → ∃ t, exec (.eventReport (.vectorSlice c r n)) s = .next t ∧ OnlyCore s t c ∧
         core t c = { core s c with vparity := setAdd (core s c).vparity (32 * r + n) }) ∧
       (∀ c r, c < 96 → (core s c).task = none → (core s c).held = none → ∃ t, exec (.eventReport (.pilotReg c r)) s = .next t ∧
         t = { s with cores := t.cores, events := t.events } ∧ Reported s t 0x0209 c [c, r] ∧
         CoreIs s t c { core s c with run := .halted, task := none }) ∧
       (∀ ch, ch < 64 → ∃ t, exec (.eventReport (.channelState ch)) s = .next t ∧ t = { s with regs := t.regs, events := t.events } ∧
         RegsBut [(R.MC_CTL.EN ch).off, ue] s t ∧ flag t (R.MC_CTL.EN ch) = false ∧ Reported s t 0x0305 100 [4, ch] ∧
         fld t R.INT_UE.UNIT_STATE_UE = min (fld s R.INT_UE.UNIT_STATE_UE + 1) 65535 ∧ fld t R.INT_UE.RING_UE = fld s R.INT_UE.RING_UE) ∧
       (∀ n, n < 16384 → (syncObj s n).waiters = [] → ∃ t, exec (.eventReport (.syncState n)) s = .next t ∧
         t = { s with regs := t.regs, events := t.events, syncs := t.syncs } ∧ RegsBut [ue] s t ∧ ObjectIs s t n { syncObj s n with en := false } ∧
         fld t R.INT_UE.UNIT_STATE_UE = min (fld s R.INT_UE.UNIT_STATE_UE + 1) 65535 ∧ fld t R.INT_UE.RING_UE = fld s R.INT_UE.RING_UE ∧
         Reported s t 0x0305 100 [1, n]) ∧
       (∀ stop cls a n, lp5xEnd ≤ a → a + n ≤ tileAddr 0 0 → ∃ t, exec (.eventReport (.ringData stop cls a n)) s = .next t ∧
         t = { s with regs := t.regs, events := t.events } ∧ RegsBut [ue] s t ∧ fld t R.INT_UE.RING_UE = min (fld s R.INT_UE.RING_UE + 1) 65535 ∧
         fld t R.INT_UE.UNIT_STATE_UE = fld s R.INT_UE.UNIT_STATE_UE ∧ Reported s t 0x0109 0x7F [stop, cls]) ∧
       (∀ k, k < 4 → exec (.eventReport (.otpKey k)) s = .next { s with wdn := { s.wdn with
         otp := { s.wdn.otp with badKeys := s.wdn.otp.badKeys ||| 2 ^ k } } }) ∧
       exec (.eventReport .otpFloor) s = .next { s with wdn := { s.wdn with otp := { s.wdn.otp with badFloor := true } } })) ∧
    (flag s R.WDN_STAT.RUNNING = false → exec .watchdogRestart s = .next s) ∧
    (flag s R.WDN_STAT.RUNNING = true → s.wdn.jobs = [] → s.wdn.prbs = [] → s.events.length < 256 → ∃ t, exec .watchdogRestart s = .next t ∧
      t = { s with regs := t.regs, events := t.events, pool := { s.pool with staged := [], layout := [] }, wdn := t.wdn } ∧
      t.wdn = { s.wdn with
        mails := [], epoch := (s.wdn.epoch + 1) % 256, accepted := [], jobs := [], prbs := [], hbAt := s.wdn.hbAt + 250000000
        boot := { s.wdn.boot with cleanSince := extTime s }, ready := readyMask s } ∧
      RegsBut [R.WDN_STAT.RESTARTS.off, R.BOOT_STAT.BOOT_ATTEMPTS.off] s t ∧
      fld t R.WDN_STAT.RESTARTS = min (fld s R.WDN_STAT.RESTARTS + 1) 255 ∧
      fld t R.BOOT_STAT.BOOT_ATTEMPTS = (fld s R.BOOT_STAT.BOOT_ATTEMPTS +
        (if extTime s < s.wdn.boot.at_ + 60000000000 then 1 else 0)) % 256 ∧ Reported s t 0x0803 0x7F [fld t R.WDN_STAT.RESTARTS])

namespace Sys2Proof.Machine

/-- The rings whose requester has no vector that would raise a bit of the PBA: what a response changes beside them is no register. -/
def NoVector (s : State) (r : Sys2Proof.MailReq) : Prop := (mail s (ringsOf r)).vecEn = false

end Sys2Proof.Machine

/-- Every class I command of Table 15-6 is answered at once, with its effect: IDENTIFY, LOG_READ, NOTICE_CFG, REG_READ, TELEMETRY, POOL_POLICY, KENNEL_READ,
KENNEL_RELEASE, DOMAIN_STATUS, PEER_COORD, BOOT_PREFER, DEBUG_UNLOCK, SEAL, HEALTH, TEST_PRBS, MGMT_SET, PTP_SET, TIME_ADJUST and CHIP_RESET; nothing
else changes (R475, R476, R481, R487, R495, R533, R537, R555, R560, R561, R567, R573). -/
def Obligations.ImmediateCommandsAnswer : Prop :=
  ∀ (s : State), s.Inv → s.events.length < 256 →
    (let img := fld s R.WDN_STAT.IMAGE
     ∀ r, Asks s 1 15 [] r → ∃ t, exec (.identify r) s = .next t ∧
       Replied t r 1 0 (bytesLE 4 (reg s R.DEV_ID.VENDOR.off) ++ bytesLE 4 (reg s R.DEV_FEATURES.QUARTERS.off) ++ bytesLE 1 4 ++
           bytesLE 1 (Sys2Proof.Config.fwMinor img).toNat ++ bytesLE 2 (Sys2Proof.Config.fwPatch img).toNat ++
           bytesLE 4 (Sys2Proof.Config.fwBuild img).toNat ++ bytesLE 8 s.domain.die ++ bytesLE 1 img ++ bytesLE 1 s.wdn.otp.floor ++ bytesLE 2 0 ++
           bytesLE 4 s.wdn.boot.boots ++ bytesLE 2 (fld s R.ADR_PROTO.OWN))
         (withMail s (ringsOf r) { mail s (ringsOf r) with identified := true })) ∧
    (∀ first count len a, first < 2 ^ 32 → count < 2 ^ 32 → len < 2 ^ 32 → (let old := s.wdn.logNext - s.wdn.log.length
      let lo := max first old
      let hi := min s.wdn.logNext (lo + count)
      let l := (s.wdn.log.drop (lo - old)).take (hi - lo)
      let data := l.flatMap wantEntryBytes
      let pay (ref : List Byte) := bytesLE 4 first ++ bytesLE 4 count ++ bytesLE 8 0 ++ ref
      let body := bytesLE 4 l.length ++ bytesLE 4 (lo + l.length) ++ bytesLE 4 (lo - first)
      32 * (hi - lo) ≤ len →
      (Lp5xFree s a (32 * (hi - lo)) → (∀ x, x ∈ l → x.arg.length = 16) → ∀ r, Asks s 3 13 (pay (ownRef s a len)) r →
        ∃ t, exec (.logRead r) s = .next t ∧ Replied t r 3 0 body { s with mem := t.mem, marks := t.marks } ∧ MemIs s t a data) ∧
      (a < 2 ^ 64 → l ≠ [] → (∀ x, x ∈ l → x.arg.length = 16) → ∀ r, r.pair < 4 → Asks s 3 13 (pay (hostRef a len)) r →
        ∃ t, exec (.logRead r) s = .next t ∧ Replied t r 3 0 body { s with out := ⟨.hostWrite, [a, 0], data⟩ :: s.out }))) ∧
    (∀ cls vec en, cls < 128 → vec < 128 → en < 2 → ∀ r, (r.pair < 4 ∨ vec = 0 ∧ en = 0) →
      Asks s 4 13 (bytesLE 1 cls ++ bytesLE 1 vec ++ bytesLE 1 en) r → ∃ t, exec (.noticeCfg r) s = .next t ∧ Replied t r 4 0 []
        (let x := mail s (ringsOf r)
         withMail s (ringsOf r) { x with
           nclass := cls, vector := if r.pair < 4 then vec else x.vector, vecEn := if r.pair < 4 then decide (en = 1) else x.vecEn })) ∧
    (∀ l : List Nat, l ≠ [] → l.length ≤ 11 → (∀ o, o ∈ l → readableOff o = true ∧ o ≠ R.TIME_NS.NS.off ∧
        ¬ (0x430000 ≤ o ∧ o < 0x434000 ∧ o % 8 = 4)) →
      Answers s .regRead 0x0102 15 (bytesLE 4 l.length ++ l.flatMap (bytesLE 4) ++ List.replicate (44 - 4 * l.length) 0)
        (l.flatMap (fun o => bytesLE 4 (devWord s .warden o))) s) ∧
    (s.wdn.power.samples = [] → Answers s .telemetry 0x0303 15 [] (List.replicate 48 0) s) ∧
    (∀ (x : Telem) rest q, s.wdn.power.samples = x :: rest → x.temps.length = 12 → q < 12 →
      (∀ j, j < 12 → x.temps.getD j 0 ≤ x.temps.getD q 0 ∧ (j < q → x.temps.getD j 0 < x.temps.getD q 0)) →
      Answers s .telemetry 0x0303 15 [] (bytesLE 4 x.vin ++ bytesLE 4 x.iin ++ bytesLE 4 x.chip ++ bytesLE 4 x.mod ++
        bytesLE 2 (wrapTo 16 (x.temps.getD q 0)) ++ bytesLE 1 q ++ bytesLE 1 0 ++ (List.range 6).flatMap (fun p => bytesLE 4 (x.parts.getD p 0)) ++
        bytesLE 4 x.at_) s) ∧
    (∀ tb off, tb < 64 → off < 8 →
      Answers s .poolPolicy 0x0406 1 (bytesLE 1 tb ++ bytesLE 1 off) [] { s with pool := { s.pool with policy := tabSet s.pool.policy tb off } }) ∧
    (∀ first len a, first < 2 ^ 32 → len < 2 ^ 32 → (let all := kennelEntries s
      let l := (all.drop first).take (len / 16)
      Lp5xFree s a (16 * l.length) → ∀ r, Asks s 0x0407 13 (bytesLE 4 first ++ bytesLE 12 0 ++ ownRef s a len) r →
        ∃ t, exec (.kennelRead r) s = .next t ∧
          Replied t r 0x0407 0 (bytesLE 4 l.length ++ bytesLE 4 (s.marks.pages.length + s.marks.rows.length) ++ bytesLE 4 s.marks.candidates.length)
            { s with mem := t.mem, marks := t.marks } ∧ MemIs s t a (l.flatMap (kennelBytes s)))) ∧
    (∀ a, a < 2 ^ 64 → (a / 4096, true) ∈ s.marks.candidates →
      Answers s .kennelRelease 0x0408 1 (bytesLE 8 a) [] { s with wdn := { s.wdn with candidates := setAdd s.wdn.candidates (a / 4096) } }) ∧
    Answers s .domainStatus 0x0602 15 [] (bytesLE 4 (reg s R.ADR_CHIP.ID.off) ++ bytesLE 4 (reg s R.ADR_MEMBERS.CURRENT.off) ++
      bytesLE 4 (reg s R.ADR_PEERS.LOST.off) ++ bytesLE 4 (reg s R.ADR_LEADER.LEADER.off) ++ bytesLE 4 (reg s R.ADR_FEAT.val.off) ++
      bytesLE 4 (reg s R.ADR_DIGEST.val.off) ++ bytesLE 4 (reg s R.ADR_DIGEST.val_HI.off) ++ bytesLE 4 (reg s R.ADR_DIGEST.val_W2.off) ++
      bytesLE 4 (reg s R.ADR_DIGEST.val_W3.off)) s ∧
    (∀ d : List Byte, d.length = 48 →
      Answers s .peerCoord 0x0603 2 d (bytesLE 48 (Sys2Proof.Config.peerCoord s.fresh).toNat) { s with fresh := s.fresh + 1 }) ∧
    (∀ i, i < 2 → (let dev := 1 - fld s R.WDN_STAT.IMAGE
      let seq := (s.wdn.boot.seq + 1) % 2 ^ 32
      let ver (d : Nat) := fieldLE (memBytes s (flashAddr d 0x100000) 24) 8 4
      ∀ r, Asks s 0x0702 5 (bytesLE 1 i) r → ∃ t, exec (.bootPrefer r) s = .next t ∧ Replied t r 0x0702 0 [] { s with
          mem := t.mem, flash := { s.flash with buf := tabErase s.flash.buf dev }, wdn := { s.wdn with boot := { s.wdn.boot with seq := seq } } } ∧
        MemIs s t (flashAddr dev 0) (wantBcb seq i (ver 0) (ver 1)))) ∧
    (∀ len a (sc : BitVec 3), len < 2 ^ 32 → Lp5xSound s a len →
      (let token := memBytes s a len
       let scope := Sys2Proof.Config.tokenScope token s.domain.die s.wdn.otp.keys (s.wdn.otp.revoked ||| s.wdn.otp.badKeys)
       (scope = some sc → Answers s .debugUnlock 0x0703 9 (bytesLE 16 0 ++ ownRef s a len) (bytesLE 4 sc.toNat) { s with
         wdn := { s.wdn with tap := { s.wdn.tap with scope := sc.toNat } }, events := s.events ++ [⟨0x0804, 0x7F, [sc.toNat], extTime s⟩] }) ∧
       (scope = none → ∀ r, Asks s 0x0703 9 (bytesLE 16 0 ++ ownRef s a len) r → ∃ t, exec (.debugUnlock r) s = .next t ∧
         Replied t r 0x0703 12 [] s))) ∧
    Answers s .seal 0x0704 1 [] [] (setFlag (setFlag s R.WDN_SEAL.SEAL true) R.WDN_STAT.SEALED true) ∧
    (let p := s.wdn.health.pred
     Answers s .health 0x0801 13 [] (bytesLE 4 p.days ++ bytesLE 4 p.lo ++ bytesLE 4 p.hi ++ bytesLE 1 p.conf ++ bytesLE 1 p.dom ++ bytesLE 2 0 ++
       bytesLE 4 p.at_) s) ∧
    (∀ link port lanes pat act, port < 8 → pat ≤ 4 → (let pay := bytesLE 1 link ++ bytesLE 1 port ++ bytesLE 1 lanes ++ bytesLE 1 pat ++ bytesLE 1 act
      let gen : Bool := act = 1 || act = 3
      let chk : Bool := act = 2 || act = 3
      let new : Prbs := ⟨link, port, lanes, pat, gen, chk, 0, [], 0, 0⟩
      let begun (u : State) : State := { u with wdn := { u.wdn with prbs := u.wdn.prbs ++ [new] } }
      let idle := ∀ x, x ∈ s.wdn.prbs → ¬ (x.link = link ∧ x.port = port)
      (1 ≤ act → act ≤ 3 → idle →
        (link = 1 → port < 3 → lanes ≤ 1 → Answers s .testPrbs 0x0901 9 pay (wantPrbs new) (begun (setFlag s (R.ETH_STAT.LINK port) false))) ∧
        (link = 3 → port = 0 → lanes < 256 → radioOff s = true → Answers s .testPrbs 0x0901 9 pay (wantPrbs new) (begun s)) ∧
        (link = 4 → lanes < 16 → portState s port = 0 → Answers s .testPrbs 0x0901 9 pay (wantPrbs new) (begun s)) ∧
        (link = 0 → port = 0 → lanes < 256 → ∀ r, Asks s 0x0901 8 pay r → ∀ u, exec (.pcieLinkDown []) s = .next u → s.host.hdma = [] →
          ∃ t, exec (.testPrbs r) s = .next t ∧ Replied t r 0x0901 0 (wantPrbs new) (begun u))) ∧
      (∀ x before after, s.wdn.prbs = before ++ [x] ++ after → x.link = link → x.port = port →
        (∀ y, y ∈ before ∨ y ∈ after → ¬ (y.link = link ∧ y.port = port)) → (1 ≤ link ∧ link ≤ 3 ∨ (link = 4 ∧ flag s (R.ADR_PCTL.EN port) = false)) →
        (if link = 1 then port < 3 ∧ lanes ≤ 1 else if link = 4 then lanes < 16 else port = 0 ∧ lanes < 256) →
        (let with_ (y : Prbs) : State := { s with wdn := { s.wdn with prbs := before ++ after ++ [y] } }
         let stopped : Prbs := { x with gen := false, chk := false, lock := 0 }
         let cleared : Prbs := { x with errs := [], bits := 0, losses := 0 }
         (act = 0 → Answers s .testPrbs 0x0901 9 pay (wantPrbs stopped) (with_ stopped)) ∧
         (act = 4 ∨ act = 6 → Answers s .testPrbs 0x0901 9 pay (wantPrbs x) s) ∧
         (act = 5 → Answers s .testPrbs 0x0901 9 pay (wantPrbs cleared) (with_ cleared)))))) ∧
    (∀ ip plen gw a len, ip < 2 ^ 32 → plen ≤ 32 → gw < 2 ^ 32 → 32 ≤ len → len < 2 ^ 32 →
      (let pay (ref : List Byte) := bytesLE 4 ip ++ bytesLE 4 plen ++ bytesLE 4 gw ++ bytesLE 4 0 ++ ref
       let set (key : List Byte) (u : State) : State := { u with wdn := { u.wdn with mgmt := some ⟨ip, plen, gw, key⟩, ready := 0xFFFF } }
       (Lp5xSound s a 32 → Answers s .mgmtSet 0x0A01 1 (pay (ownRef s a len)) [] (set (memBytes s a 32) s)) ∧
       (a < 2 ^ 64 → ∀ r, Asks s 0x0A01 1 (pay (hostRef a len)) r → 32 ≤ r.host.length → ∃ t, exec (.mgmtSet r) s = .next t ∧
         Replied t r 0x0A01 0 [] (set (r.host.take 32) { s with out := ⟨.hostRead, [a, 32], []⟩ :: s.out })))) ∧
    (∀ ports mode dom role, ports < 8 → mode ≤ 2 → dom < 256 → role ≤ 2 → ¬ (mode = 2 ∧ bitOf ports 2 = true) →
      Answers s .ptpSet 0x0A02 5 (bytesLE 1 ports ++ bytesLE 1 mode ++ bytesLE 1 dom ++ bytesLE 1 role) [] { s with eth := { s.eth with
        ptp := [0, 1, 2].foldl (fun l p => if bitOf ports p then tabSet l p (mode, dom, role) else l) s.eth.ptp } }) ∧
    (∀ (v : BitVec 32) (u : State), v ≠ 0x80000000 → radioOff s = true → exec (.timeStep v) s = .next u →
      Answers s .timeAdjust 0x0A03 5 (bytesLE 4 v.toNat) (bytesLE 4 (fld u R.TIME_STAT.STEP_SEQ)) u) ∧
    (∀ kind, kind = 1 ∨ kind = 2 → (let base : State := { s with wdn := { s.wdn with
        jobs := [], boot := { s.wdn.boot with leaving := some (kind, 1) } } }
      (selfState s ≠ 2 → Answers s .chipReset 0x0203 9 (bytesLE 4 kind) [] base) ∧
      (selfState s = 2 → s.coh.dir = [] → s.coh.lines = [] → ∀ r, NoVector s r → Asks s 0x0203 9 (bytesLE 4 kind) r →
        ∃ t, exec (.chipReset r) s = .next t ∧ Replied t r 0x0203 0 [] (setFld base R.ADR_CHIP.SELF_STATE 4))))

namespace Sys2Proof.Machine

/-! ### Class B commands (R36 to R38, R254, R481 to R483, R487 to R491) -/

/-- The state after a class B request has been consumed and accepted: its response is owed (R481, R482). -/
def acceptedState (s : State) (r : Sys2Proof.MailReq) (code : Nat) (data : List Byte) : State :=
  let key := ringsOf r
  let x := mail s key
  let m := wantMessage code 0 r.seq r.payload 0 0
  let y : Mail := { postedMail x m none r.seq with
    reqHead := (x.reqHead + 1) % 2 ^ 16, ticket := x.ticket + 1, owed := [Owed.mk x.ticket none none] }
  { s with wdn := { s.wdn with mails := tabSet s.wdn.mails key y, accepted := [BCmd.mk key x.ticket m (extTime s) data] } }

/-- Rings whose only response owed has become known and is posted (R482). -/
def settledMail (x : Mail) (key ticket : Nat) (rsp : List Byte) : Mail :=
  let tail := (x.rspTail + 1) % 2 ^ 16
  let carried : Bool := 32 ≤ key || key = 12 || key = 13
  { x with
    rsp := tabSet x.rsp (x.rspTail % 8) rsp, rspTail := tail, owed := []
    kept := x.kept.map (fun k => if k.ticket = ticket then { k with rsp := some rsp } else k)
    rspHead := if carried then tail else x.rspHead, ntcHead := if carried then x.ntcTail else x.ntcHead }

/-- An accepted command takes effect at the boundary of time `ts`: `u` is the state with its effect, and the response with that time as
EFFECT_TS is posted. -/
def AtBoundary (s : State) (code : Nat) (payload data : List Byte) (body : Nat → List Byte) (u : Nat → State → State)
    (P : Sys2Proof.MailReq → Nat → State → Prop) : Prop :=
  ∀ (r : Sys2Proof.MailReq) (n at_ ts : Nat), r.pair < 16 → r.chip < 16 → r.seq < 2 ^ 16 → r.payload = payload →
    (mail s (ringsOf r)).owed = [Owed.mk n none none] →
    (let key := ringsOf r
     let rsp := wantMessage code 2 r.seq (body ts) 0 ts
     ∃ t, finish (runB s ⟨key, n, wantMessage code 0 r.seq payload 0 0, at_, data⟩ ts) = .next t ∧
       (let v := u ts t
        t = { v with
          wdn := { v.wdn with mails := tabSet v.wdn.mails key (settledMail (mail v key) key n rsp) }
          out := t.out, fabric := t.fabric, regs := t.regs } ∧ Leaves v t key rsp) ∧ P r ts t)

/-- A class B command is accepted, and takes that effect at its boundary. -/
def TakesEffect (s : State) (row : Sys2Proof.MailReq → Instr) (code groups : Nat) (payload data : List Byte) (body : Nat → List Byte)
    (u : Nat → State → State) (P : Sys2Proof.MailReq → Nat → State → Prop) : Prop :=
  (∀ r, Asks s code groups payload r → exec (row r) s = .next (acceptedState s r code data)) ∧ AtBoundary s code payload data body u P

/-- The rest of the state beside the rings, what leaves, and what `t` gives. -/
def otherwise (s t : State) : State := { t with wdn := { t.wdn with mails := s.wdn.mails }, out := s.out, fabric := s.fabric }

/-- A table's descriptor and shard map as a command gives them (R288). -/
def describedTable (s : State) (tb ctl rows seed : Nat) (map : List Byte) : State :=
  (List.range 32).foldl (fun s i => setReg s (0x410000 + 0x80 * tb + 4 * i) (fieldLE map (4 * i) 4))
    (setReg (setReg (setReg s (R.TD_CTL.EN tb).off (ctl % 2 ^ 21 - bitsOf ctl 7 7 * 2 ^ 7)) (R.TD_ROWS.val tb).off (rows % 2 ^ 25)) (R.TD_SEED.val tb).off seed)

/-- The payload of PART_SET. -/
def partPayload (n cfg lend ledger : Nat) : List Byte := bytesLE 4 n ++ bytesLE 4 cfg ++ bytesLE 4 lend ++ bytesLE 4 ledger

/-- The registers that hold power plans. -/
def planRegs : List Nat :=
  R.VCORE.TARGET.off :: (List.range 12).map (fun q => (R.QCLK.DIV q).off) ++ (List.range 12).map (fun p => (R.PWR_PCAP.val p).off)

end Sys2Proof.Machine

/-- A class B command is accepted and its response is owed; at its boundary it takes effect as a whole, and its response carries the boundary's time. REG_WRITE
writes (old & ~MASK) | (VALUE & MASK); SNAPSHOT copies its sets; PART_SET configures a partition, and is refused where it conflicts (R254); PART_RESET
resets one; POWER_BUDGET grants max(12000, min(55000, BUDGET − OVH)) mW and plans; POWER_STATE moves to a state; RADIO_STOP clears the enables;
WEAVE_SELECT selects a plane (R38, R253, R254, R481, R483, R488, R489, R509, R511, R512, R515, R532). -/
def Obligations.BoundaryCommandsTakeEffect : Prop :=
  ∀ (s : State), s.Inv → s.posted = [] → s.wdn.jobs = [] → s.wdn.removals = [] →
    (∀ (off : Nat) (named mask value : BitVec 32),
      (off = 0x5A0000 ∧ named = 0x1F) ∨ (off = 0x5F0010 ∧ named = 0xFFFF) ∨ (off = 0x5F0014 ∧ named = 0xFFFF0001) ∨
        (∃ p i, p < 3 ∧ i < 16 ∧ off = (R.FILT.DMAC p i).off ∧ named = 0xFFFFFFFF) →
      (let old := BitVec.ofNat 32 (reg s off)
       TakesEffect s .regWrite 0x0101 15 (bytesLE 4 1 ++ bytesLE 4 off ++ bytesLE 4 mask.toNat ++ bytesLE 4 value.toNat ++ bytesLE 24 0) [] (fun _ => [])
         (fun _ _ => setReg s off ((old &&& ~~~(mask &&& named)) ||| (value &&& mask &&& named)).toNat) (fun _ _ _ => True))) ∧
    (∀ sets a len, sets < 2048 → len < 2 ^ 32 → (let l := (List.range 11).filter (bitOf sets)
      let data (ts : Nat) : List Byte := l.flatMap (fun b => bytesLE 2 b ++ bytesLE 2 (setWords b).length ++ bytesLE 4 ts ++ bytesLE 8 0 ++
        (setWords b).flatMap (fun o => bytesLE 4 (devWord s .warden o)))
      (data 0).length ≤ len → Lp5xFree s a (data 0).length →
        TakesEffect s .snapshot 0x0002 15 (bytesLE 4 sets ++ bytesLE 12 0 ++ ownRef s a len) [] (fun _ => bytesLE 4 (data 0).length)
          (fun _ t => { s with mem := t.mem, marks := t.marks }) (fun _ ts t => MemIs s t a (data ts)))) ∧
    (∀ n cfg lend ledger, n < 12 → cfg < 2 ^ 32 → lend < 2 ^ 32 → ledger < 2 ^ 32 → 22 ≤ ledger / 2 ^ 16 % 256 →
      (let en := bitOf cfg 13
       let conflict : Prop := (en = true ∧ cfg % 4096 = 0) ∨
         (en = true ∧ ∃ q x, q < 12 ∧ x < 12 ∧ x ≠ n ∧ bitOf cfg q = true ∧ flag s (R.PART_CFG.EN x) = true ∧ bitOf (fld s (R.PART_CFG.QMASK x)) q = true) ∨
         ((bitOf cfg 14 = true ∨ bitOf cfg 16 = true) ∧ bitOf cfg 12 = false) ∨ bitOf lend n = true ∨
         (∃ x, x < 12 ∧ x ≠ n ∧ bitOf lend x = true ∧ flag s (R.PART_CFG.LEND x) = false) ∨
         (bitOf cfg 14 = false ∧ ∃ x, x < 12 ∧ x ≠ n ∧ flag s (R.PART_CFG.EN x) = true ∧ bitOf (reg s (R.PART_LEND.val x).off) n = true)
       (conflict → ∀ r, Asks s 0x0201 1 (partPayload n cfg lend ledger) r → ∃ t, exec (.partSet r) s = .next t ∧ Replied t r 0x0201 8 [] s) ∧
       (¬ conflict → fld s R.PWR_STATE.STATE < 2 → (∀ x, x < 12 → flag s (R.PART_CFG.EN x) = false) → s.wdn.ckpt = [] → Unheard s 2 →
         TakesEffect s .partSet 0x0201 1 (partPayload n cfg lend ledger) [] (fun _ => []) (fun _ t => otherwise s t) (fun r _ t => NoVector s r →
           (let regs := [(R.PART_CFG.QMASK n).off, (R.PART_LEND.val n).off, (R.PART_LEDGER.LEAD n).off, R.CKPT_STAT.VALID.off] ++ planRegs
            t = { s with cores := t.cores, regs := t.regs, wdn := t.wdn, out := t.out, fabric := t.fabric } ∧ RegsBut regs s t ∧
              t.wdn = { s.wdn with mails := t.wdn.mails, power := { s.wdn.power with
                planCap := min (fld s R.PWR_CAP.val) s.wdn.power.planCap, cap := fld s R.PWR_CAP.val } } ∧
              reg t (R.PART_CFG.QMASK n).off = cfg % 2 ^ 17 ∧ reg t (R.PART_LEND.val n).off = lend % 2 ^ 12 ∧
              reg t (R.PART_LEDGER.LEAD n).off = ledger % 2 ^ 24 - bitsOf ledger 7 6 * 2 ^ 6 ∧
              (∀ p, p < 12 → bitOf (fld t R.CKPT_STAT.VALID) p = (bitOf (fld s R.CKPT_STAT.VALID) p && decide (p ≠ n))) ∧
              (∀ q, q < 12 → flag t (R.QCLK.GATED q) = (flag s (R.QCLK.GATED q) && !(en && bitOf cfg q))) ∧
              ∀ c, c < 96 → core t c = if en = true ∧ bitOf cfg (c / 8) = true ∧ (core s c).run = .inReset then { core s c with run := .idle } else core s c))))) ∧
    (∀ n, n < 12 → (∀ c, (core s c).claim = none ∧ (core s c).asyncs = [] ∧ ∀ o ch k rd x, (core s c).run ≠ .wait o ch k rd x) →
      (∀ x, x ∈ s.sched.tasks → x.part ≠ n) → (∀ p, p ∈ s.syncs → p.2.waiters = []) → s.marks.candidates = [] →
      (∀ q, q < 1024 → fld s (R.QCFG.MODE q) = 1 ∨ fld s (R.QCFG.MODE q) = 2 → quarterHome s (fld s (R.QCFG.CONSUMER q) / 8) ≠ some n) →
      TakesEffect s .partReset 0x0202 1 (bytesLE 4 n) [] (fun _ => []) (fun _ t => otherwise s t) (fun r _ t => NoVector s r →
        t = { s with
          cores := t.cores, regs := t.regs, syncs := t.syncs, queues := { s.queues with staging := t.queues.staging }, time := t.time, marks := t.marks
          out := t.out, fabric := t.fabric, sched := { s.sched with
            fell := s.sched.fell.filter (fun x => x.1.1 ≠ n), notDone := s.sched.notDone.filter (fun x => x.1 ≠ n) }
          wdn := { s.wdn with mails := t.wdn.mails, ckpt := s.wdn.ckpt.filter (fun k => k.part ≠ n) } } ∧
        RegsBut [(R.PART_STAT.TASKS n).off, (R.PART_EVT.FALLBACKS n).off, R.CKPT_STAT.VALID.off] s t ∧
        reg t (R.PART_STAT.TASKS n).off = 0 ∧ reg t (R.PART_EVT.FALLBACKS n).off = 0 ∧
        (∀ p, p < 12 → bitOf (fld t R.CKPT_STAT.VALID) p = (bitOf (fld s R.CKPT_STAT.VALID) p && decide (p ≠ n))) ∧
        (∀ m, syncObj t m = if (syncObj s m).owner = n then { syncObj s m with value := 0, ovf := false } else syncObj s m) ∧
        ∀ c, c < 96 → (let k := core s c
          core t c = if quarterHome s (c / 8) = some n then { Core.reset with
            sys := k.sys.map (fun x => (x.1, BitVec.ofNat 32 (sysKept x.1 x.2.toNat))), run := if k.run = .inReset then .inReset else .idle
            lanes := { Lanes.reset with active := k.lanes.active, shadow := k.lanes.shadow } } else k))) ∧
    (∀ mw floor soc hor, mw < 2 ^ 32 → floor < 2 ^ 32 → soc ≤ 1000 → hor = 0 ∨ (10 ≤ hor ∧ hor ≤ 3600) → fld s R.PWR_STATE.STATE < 2 →
      (let l := s.wdn.power.samples
       let ovh := if l = [] then 4000 else max 4000 ((l.map (fun x => x.mod - x.chip)).sum / l.length)
       let cap := max 12000 (min 55000 (mw - ovh))
       let told : State := { setFlag s R.PWR_STATE.LEASE_EXPIRED false with
         wdn := { s.wdn with power := { s.wdn.power with budget := some ⟨mw, floor, soc, hor, extTime s⟩ } } }
       let capped := setFld (setFld told R.PWR_CAP.val cap) R.PWR_STATE.STATE (if cap = 55000 then 0 else 1)
       ∀ u, exec .powerPlan capped = .next u → u.out = s.out → u.fabric = s.fabric → u.wdn.mails = s.wdn.mails →
         TakesEffect s .powerBudget 0x0301 5 (bytesLE 4 mw ++ bytesLE 4 floor ++ bytesLE 2 soc ++ bytesLE 2 hor) [] (fun _ => bytesLE 4 cap)
           (fun _ _ => u) (fun _ _ _ => True))) ∧
    (∀ st cap, st < 2 → cap < 2 ^ 32 → (st = 1 → 12000 ≤ cap ∧ cap ≤ 55000) → fld s R.PWR_STATE.STATE < 2 → flag s R.PWR_STATE.LEASE_EXPIRED = false →
      ∀ u, exec .powerPlan (setFld (setFld s R.PWR_STATE.STATE st) R.PWR_CAP.val (if st = 0 then 55000 else cap)) = .next u →
        TakesEffect s .powerState 0x0302 5 (bytesLE 4 st ++ bytesLE 4 cap) [] (fun _ => []) (fun _ _ => u) (fun _ _ _ => True)) ∧
    (∀ cap, cap < 2 ^ 32 →
      (let off := setFlag (setFlag s R.KCTL.RX_EN false) R.KCTL.TX_EN false
       let enters (st : Nat) : State := { off with wdn := { s.wdn with power := { s.wdn.power with entering := some (st, extTime s), wakeDue := false } } }
       (selfState s ≠ 2 → Answers s .powerState 0x0302 5 (bytesLE 4 4 ++ bytesLE 4 cap) [] (enters 4) ∧
         TakesEffect s .powerState 0x0302 5 (bytesLE 4 3 ++ bytesLE 4 cap) [] (fun _ => []) (fun _ _ => enters 3) (fun _ _ _ => True)) ∧
       (nightOk s = false → fld s R.PWR_STATE.STATE ≠ 3 → ∀ r, Asks s 0x0302 5 (bytesLE 4 2 ++ bytesLE 4 cap) r → ∃ t, exec (.powerState r) s = .next t ∧
         Replied t r 0x0302 8 [] s) ∧
       (nightOk s = true → fld s R.PWR_STATE.STATE ≠ 3 → (∀ r, Asks s 0x0302 5 (bytesLE 4 2 ++ bytesLE 4 cap) r → exec (.powerState r) s = .next (acceptedState s r 0x0302 [])) ∧
         (fld s R.PWR_STATE.STATE < 2 → ∀ key n seq at_ ts, seq < 2 ^ 16 →
           ∃ t, finish (runB s ⟨key, n, wantMessage 0x0302 0 seq (bytesLE 4 2 ++ bytesLE 4 cap) 0 0, at_, []⟩ ts) = .next t ∧
             fld t R.PWR_STATE.STATE = 2 ∧ flag t (R.WV_CTL.EN 1) = false)))) ∧
    TakesEffect s .radioStop 0x0502 1 [] [] (fun _ => []) (fun _ _ => setFlag (setFlag s R.KCTL.RX_EN false) R.KCTL.TX_EN false) (fun _ _ _ => True) ∧
    (∀ w p, w < 2 → p < 2 → (fld s R.PWR_STATE.STATE < 2 ∨ w = 0) → bitOf (fld s (R.WV_PSTAT.VALID w)) p = true →
      TakesEffect s .weaveSelect 0x0504 1 (bytesLE 1 w ++ bytesLE 1 p) [] (fun _ => [])
        (fun _ _ => setFlag (setFld s (R.WV_CTL.SEL w) p) (R.WV_CTL.EN w) true) (fun _ _ _ => True))

/-- TABLE_CREATE installs a descriptor and a shard map, checks the own shards of an enabled table against flash and lets it serve; TABLE_SWAP pauses a table
for staging, discards the staged rows, or commits them at a new generation under a new descriptor; TABLE_DELETE disables a table (R287, R288, R304, R314,
R487). -/
def Obligations.TablesAreManaged : Prop :=
  ∀ (s : State) (tb : Nat), s.Inv → s.posted = [] → s.wdn.jobs = [] → tb < 64 →
    (let obj := fld s (R.TD_STATE.READY_SYNC tb)
     let state (st : Nat) (s : State) := setFld s (R.TD_STATE.STATE tb) st
     let pay (op ctl rows seed : Nat) (ref : List Byte) := bytesLE 1 tb ++ bytesLE 1 op ++ bytesLE 2 0 ++ bytesLE 4 ctl ++ bytesLE 4 rows ++ bytesLE 4 seed ++ ref
     (∀ ctl rows seed a len, ctl < 2 ^ 32 → 1 ≤ rows → rows ≤ 2 ^ 24 → seed < 2 ^ 32 → 128 ≤ len → len < 2 ^ 32 → Lp5xSound s a 128 →
       (let map := memBytes s a 128
        let u := describedTable s tb ctl rows seed map
        (flag s (R.TD_CTL.EN tb) = true → ∀ r, Asks s 0x0401 1 (pay 0 ctl rows seed (ownRef s a len)) r →
          ∃ t, exec (.tableCreate r) s = .next t ∧ Replied t r 0x0401 8 [] s) ∧
        (flag s (R.TD_CTL.EN tb) = false →
          (bitOf ctl 0 = false → TakesEffect s .tableCreate 0x0401 1 (pay 0 ctl rows seed (ownRef s a len)) map (fun _ => []) (fun _ _ => u)
            (fun _ _ _ => True)) ∧
          (bitOf ctl 0 = true → fld s R.POOL_GEN.val ≠ 0 → FreeSemaphore s obj →
            TakesEffect s .tableCreate 0x0401 1 (pay 0 ctl rows seed (ownRef s a len)) map (fun _ => [])
              (fun _ t => { state 0 u with syncs := t.syncs, pool := { s.pool with unavail := t.pool.unavail } })
              (fun _ _ t => ObjectIs s t obj { syncObj s obj with value := (syncObj s obj).value + 1 } ∧
                (∀ sh, sh < 256 → (256 * tb + sh ∈ t.pool.unavail ↔
                  shardOwner u tb sh = chipId s ∧ tabFind s.pool.crcs (256 * tb + sh) ≠ some (shardCrc u tb sh))) ∧
                ∀ x, x / 256 ≠ tb → (x ∈ t.pool.unavail ↔ x ∈ s.pool.unavail)))))) ∧
     (∀ ctl rows seed, ctl < 2 ^ 32 → rows < 2 ^ 32 → seed < 2 ^ 32 → flag s (R.TD_CTL.EN tb) = true → (syncObj s obj).type = 0 →
       (syncObj s obj).waiters = [] →
       (let layout := if rows = 0 then (reg s (R.TD_CTL.EN tb).off, tdRows s tb) else (ctl % 2 ^ 21 - bitsOf ctl 7 7 * 2 ^ 7, rows % 2 ^ 25)
        (fld s (R.TD_STATE.STATE tb) = 0 → TakesEffect s .tableSwap 0x0404 1 (pay 0 ctl rows seed (bytesLE 16 0)) [] (fun _ => [])
          (fun _ t => { state 1 s with syncs := t.syncs, pool := { s.pool with
            staged := tabSet s.pool.staged tb [], layout := tabSet s.pool.layout tb layout } })
          (fun _ _ t => ObjectIs s t obj { syncObj s obj with value := 0 })) ∧
        (fld s (R.TD_STATE.STATE tb) = 1 → FreeSemaphore s obj →
          TakesEffect s .tableSwap 0x0404 1 (pay 2 ctl rows seed (bytesLE 16 0)) [] (fun _ => [])
            (fun _ t => { state 0 s with syncs := t.syncs, pool := { s.pool with
              staged := tabErase s.pool.staged tb, layout := tabErase s.pool.layout tb } })
            (fun _ _ t => ObjectIs s t obj { syncObj s obj with value := (syncObj s obj).value + 1 })) ∧
        (fld s (R.TD_STATE.STATE tb) ≠ 1 → ∀ r op, op = 1 ∨ op = 2 → 1 ≤ rows → rows ≤ 2 ^ 24 → ∀ a, Lp5xSound s a 128 →
          Asks s 0x0404 1 (pay op ctl rows seed (ownRef s a 128)) r → ∃ t, exec (.tableSwap r) s = .next t ∧ Replied t r 0x0404 8 [] s) ∧
        (fld s (R.TD_STATE.STATE tb) = 1 → FreeSemaphore s obj → 1 ≤ rows → rows ≤ 2 ^ 24 → fld s R.POOL_GEN.val ≠ 0 → s.coh.dir = [] → s.coh.serving = [] → ∀ a, Lp5xSound s a 128 →
          (let map := memBytes s a 128
           let g := (fld s R.POOL_GEN.val + 1) % 2 ^ 32
           TakesEffect s .tableSwap 0x0404 1 (pay 1 ctl rows seed (ownRef s a 128)) map (fun _ => bytesLE 4 g) (fun _ t => otherwise s t)
             (fun _ _ t => fld t R.POOL_GEN.val = g ∧ fld t (R.TD_SWAP_GEN.val tb) = g ∧ fld t (R.TD_STATE.STATE tb) = 0 ∧
               reg t (R.TD_CTL.EN tb).off = ctl % 2 ^ 21 - bitsOf ctl 7 7 * 2 ^ 7 ∧ reg t (R.TD_ROWS.val tb).off = rows ∧
               reg t (R.TD_SEED.val tb).off = seed ∧ (∀ i, i < 32 → reg t (0x410000 + 0x80 * tb + 4 * i) = fieldLE map (4 * i) 4) ∧
               t.pool.staged = tabErase s.pool.staged tb ∧ t.pool.layout = tabErase s.pool.layout tb ∧ t.pool.genFlash = g))))) ∧
     (fld s (R.TD_STATE.STATE tb) ≠ 0 → s.coh.dir = [] → s.coh.serving = [] →
       TakesEffect s .tableDelete 0x0405 1 (bytesLE 1 tb) [] (fun _ => []) (fun _ t => otherwise s t)
         (fun _ _ t => reg t (R.TD_CTL.EN tb).off = 0 ∧ reg t (R.TD_ROWS.val tb).off = 0 ∧ reg t (R.TD_SEED.val tb).off = 0 ∧
           reg t (R.TD_SWAP_GEN.val tb).off = 0 ∧ fld t (R.TD_STATE.STATE tb) = 0 ∧
           t.pool.staged = tabErase s.pool.staged tb ∧ t.pool.policy = tabErase s.pool.policy tb ∧
           t.pool.unavail = s.pool.unavail.filter (fun x => x / 256 ≠ tb))))

namespace Sys2Proof.Machine

/-! ### Class L commands and their jobs (R481, R484, R490 to R492) -/

/-- The state after a class L request has been accepted: its job holds what its reference gave. -/
def begun (s : State) (r : Sys2Proof.MailReq) (code : Nat) (data : List Byte) : State :=
  let key := ringsOf r
  let j : Job := ⟨s.wdn.nextJob, key, (mail s key).ticket, wantMessage code 0 r.seq r.payload 0 0, data, false, none, false⟩
  { s with wdn := { s.wdn with jobs := [j], nextJob := (s.wdn.nextJob + 1) % 2 ^ 16 } }

/-- A class L command is answered ACCEPTED with its JOB_ID, and its job starts; `u` is the state beside that. -/
def Starts (s : State) (row : Sys2Proof.MailReq → Instr) (code groups : Nat) (payload data : List Byte) : Prop :=
  ∀ r, Asks s code groups payload r → ∃ t, exec (row r) s = .next t ∧ Replied t r code 1 (bytesLE 2 s.wdn.nextJob) (begun s r code data)

/-- A notice (Table 15-3, R477, R492). -/
def wantNotice (code seq : Nat) (body : List Byte) (ts : Nat) : List Byte :=
  let h := bytesLE 2 code ++ bytesLE 1 1 ++ bytesLE 1 7 ++ bytesLE 2 seq ++ bytesLE 1 body.length ++ bytesLE 1 0 ++ bytesLE 4 ts
  h ++ bytesLE 4 (crc32c (h ++ body)) ++ sliceBytes body 0 48

/-- The only job has ended with a status and results: the notice JOB_DONE is posted on its pair, and kept with its request; `u` is the state with the
job's own effect. -/
def JobEnds (s t : State) (j : Job) (status : Nat) (results : List Byte) (u : State) : Prop :=
  let x := mail u j.key
  let d := bytesLE 2 j.id ++ bytesLE 2 (fieldLE j.msg 0 2) ++ bytesLE 4 status ++ results
  let n := wantNotice 0x8001 x.ntcSeq d (nowNs s)
  let tail := (x.ntcTail + 1) % 2 ^ 16
  let carried : Bool := 32 ≤ j.key || j.key = 12 || j.key = 13
  let y : Mail := { x with
    kept := x.kept.map (fun k => if k.ticket = j.ticket then { k with done := some d } else k)
    ntc := tabSet x.ntc (x.ntcTail % 16) n, ntcTail := tail, ntcSeq := (x.ntcSeq + 1) % 2 ^ 16
    rspHead := if carried then x.rspTail else x.rspHead, ntcHead := if carried then tail else x.ntcHead }
  t = { u with
    wdn := { u.wdn with jobs := [], mails := tabSet u.wdn.mails j.key y }
    out := t.out, fabric := t.fabric, regs := t.regs } ∧ Leaves u t j.key n

/-- Does the signature in the block at `at_` verify over the bytes before it, under the key that the block names (R358)? The algorithm is a free value. -/
def signatureHolds (s : State) (d : List Byte) (at_ : Nat) : Bool :=
  Sys2Proof.Config.verify (s.wdn.otp.keys.getD (fieldLE d at_ 1) 0) (d.take at_) (sliceBytes d (at_ + 8) 96)

/-- A signature block names a key of the four that is not revoked, nor lost to an error of the shadow (R358, R552). -/
def NamesKey (s : State) (d : List Byte) (at_ : Nat) : Prop := fieldLE d at_ 1 < 4 ∧ bitOf (s.wdn.otp.revoked ||| s.wdn.otp.badKeys) (fieldLE d at_ 1) = false

/-- A Weave image whose header, key, rollback version and frames pass their checks (R358, R359). -/
structure GoodWeaveImage (s : State) (d : List Byte) : Prop where
  magic : fieldLE d 0 4 = 0x31575657 ∧ fieldLE d 4 2 = 1
  kind : 1 ≤ fieldLE d 6 2 ∧ fieldLE d 6 2 ≤ 5
  size : d.length = fieldLE d 0x14 4 ∧ d.length < 2 ^ 20
  cfgs : fieldLE d 0x18 2 ≤ 16 ∧ fieldLE d 0x1C 4 + 160 * fieldLE d 0x18 2 ≤ d.length
  frames : fieldLE d 0x20 4 = 0x100 ∧ ∀ c, c < 4096 → frameOk (cellFrame (d.drop 0x100) c) = true
  block : 0x10100 ≤ fieldLE d 0x24 4 ∧ fieldLE d 0x24 4 + 104 ≤ d.length
  key : NamesKey s d (fieldLE d 0x24 4)
  rollback : s.wdn.otp.badFloor = false ∧ s.wdn.otp.floor ≤ fieldLE d 0xC 4

/-- A firmware image whose header, key and version pass their checks (R539; the header's layout is that of log entry 36). -/
structure GoodFirmware (s : State) (d : List Byte) : Prop where
  magic : fieldLE d 0 4 = 0x31574657 ∧ fieldLE d 4 4 = 1
  size : d.length = fieldLE d 0x10 4 ∧ 128 ≤ d.length ∧ d.length ≤ 448 * 1024
  key : NamesKey s d (d.length - 104)
  version : s.wdn.otp.badFloor = false ∧ s.wdn.otp.floor ≤ fieldLE d 8 4

/-- The command starts its job where the image's signature holds, and is answered AUTH_FAIL where it does not. -/
def StartsIf (signed : Bool) (s : State) (row : Sys2Proof.MailReq → Instr) (code groups : Nat) (payload data : List Byte) : Prop :=
  if signed then Starts s row code groups payload data
  else ∀ r, Asks s code groups payload r → ∃ t, exec (row r) s = .next t ∧ Replied t r code 12 [] s

/-- What a self-test asks of its target (Table 18-8). -/
def TestMay (s : State) (target mask : Nat) : Prop :=
  target ≤ 5 ∧ mask < [4096, 4096, 4096, 4, 4, 16].getD target 0 ∧
    (target ≤ 2 → ∀ q, q < 12 → bitOf mask q = true → quarterHome s q = none) ∧
    (target = 3 → ∀ w, w < 2 → bitOf mask w = true → flag s (R.WV_CTL.EN w) = false ∧ (weave s w).bound = []) ∧
    (target = 4 → ∀ d, d < 2 → bitOf mask d = true → flashBusy s d = false)

/-- Registers that RADIO_START writes before the link is up. -/
def radioRegs : List Nat :=
  [R.JRX_CTL.EN.off, R.JTX_CTL.EN.off, R.JRX_DLAT.val.off, R.JTX_DLAT.val.off, R.KCTL.BW.off, R.KSLOT_PHASE.val.off, R.KSLOT_NUM.val.off,
    R.JSYSREF.ARM.off, R.JRX_STAT.LINK_UP.off]

/-- Registers of the domain that an accepted block sets. -/
def blockRegs : List Nat :=
  [R.ADR_CHIP.ID.off, R.ADR_MEMBERS.CURRENT.off, R.ADR_PEERS.LOST.off, R.ADR_LEADER.LEADER.off, R.ADR_BENIGN.val.off,
    R.ADR_DIGEST.val.off, R.ADR_DIGEST.val_HI.off, R.ADR_DIGEST.val_W2.off, R.ADR_DIGEST.val_W3.off]

end Sys2Proof.Machine

/-- A class L command that passes its checks is answered ACCEPTED with the next JOB_ID, and its job holds what its reference gave: TABLE_FILL, TABLE_REPLACE,
WEAVE_LOAD, FLASH_UPDATE, TEST_BIST and TEST_BATHTUB; RADIO_START also configures the links and the slot clock and arms SYSREF, and DOMAIN_CONFIG has the
chip join with the canonical block (R347, R426, R427, R429, R481, R484, R490, R491, R562, R563). -/
def Obligations.JobsStart : Prop :=
  ∀ (s : State), s.Inv → s.posted = [] → s.wdn.jobs = [] →
    (∀ tb staged first count a len, tb < 64 → staged ≤ 1 → first < 2 ^ 32 → count < 2 ^ 32 → len < 2 ^ 32 →
      (let u := if staged = 1 then underLayout s tb else s
       let n := count * tdRowBytes u tb
       first + count ≤ tdRows u tb → n ≤ len → Lp5xSound s a n →
       (if staged = 1 then flag s (R.TD_CTL.EN tb) = true ∧ fld s (R.TD_STATE.STATE tb) = 1 else flag s (R.TD_CTL.EN tb) = false) →
       Starts s .tableFill 0x0402 1 (bytesLE 1 tb ++ bytesLE 1 staged ++ bytesLE 2 0 ++ bytesLE 4 first ++ bytesLE 4 count ++ bytesLE 4 0 ++ ownRef s a len)
         (memBytes s a n))) ∧
    (∀ tb count a len, tb < 64 → 1 ≤ count → count ≤ 65536 → len < 2 ^ 32 → flag s (R.TD_CTL.EN tb) = true → fld s (R.TD_STATE.STATE tb) = 0 →
      (let n := 4 + tdRowBytes s tb
       count * n ≤ len → Lp5xSound s a (count * n) → (∀ i, i < count → fieldLE (memBytes s (a + n * i) 4) 0 4 < tdRows s tb) →
       Starts s .tableReplace 0x0403 1 (bytesLE 4 tb ++ bytesLE 4 count ++ bytesLE 8 0 ++ ownRef s a len) (memBytes s a (count * n)))) ∧
    (∀ (jrx jtx rlat tlat phase num : BitVec 32) bw sector, bitsOf jrx.toNat 4 1 ≤ 11 → bitsOf jrx.toNat 11 8 < 12 → 3 ≤ bitsOf jtx.toNat 4 1 →
      bitsOf jtx.toNat 4 1 ≤ 11 → bw ≤ 2 → sector < 256 → radioOff s = true → ∀ r, NoVector s r →
      Asks s 0x0501 1 (bytesLE 4 jrx.toNat ++ bytesLE 4 jtx.toNat ++ bytesLE 4 rlat.toNat ++ bytesLE 4 tlat.toNat ++ bytesLE 1 bw ++ bytesLE 1 sector ++
        bytesLE 2 0 ++ bytesLE 4 phase.toNat ++ bytesLE 4 num.toNat) r →
      ∃ t, exec (.radioStart r) s = .next t ∧
        (let u : State := { begun s r 0x0501 [] with regs := t.regs, radio := { s.radio with seq := t.radio.seq, rxNext := t.radio.rxNext } }
         let changes := flag t R.JRX_CTL.EN ≠ flag s R.JRX_CTL.EN ∨ fld t R.JRX_CTL.MODE ≠ fld s R.JRX_CTL.MODE
         Replied t r 0x0501 1 (bytesLE 2 s.wdn.nextJob) u ∧ RegsBut radioRegs s t ∧
         reg t R.JRX_CTL.EN.off = (jrx &&& 0xF1F).toNat ∧ reg t R.JTX_CTL.EN.off = jtx.toNat % 32 ∧ reg t R.JRX_DLAT.val.off = rlat.toNat ∧
         reg t R.JTX_DLAT.val.off = tlat.toNat ∧ fld t R.KCTL.BW = bw ∧ fld t R.KCTL.SECTOR_ID = sector ∧ radioOff t = true ∧
         fld t R.KSLOT_PHASE.val = phase.toNat ∧ fld t R.KSLOT_NUM.val = num.toNat ∧ flag t R.JSYSREF.ARM = true ∧ flag t R.JSYSREF.SENT = false ∧
         flag t R.JSYSREF.PERIODIC = flag s R.JSYSREF.PERIODIC ∧
         (changes → flag t R.JRX_STAT.LINK_UP = false ∧ flag t R.JRX_STAT.EMB_LOCK = false ∧ fld t R.JRX_STAT.LANE_LOCK = 0) ∧
         (¬ changes → reg t R.JRX_STAT.LINK_UP.off = reg s R.JRX_STAT.LINK_UP.off) ∧
         (t.radio.seq, t.radio.rxNext) = if flag t R.JRX_CTL.EN = true ∧ flag s R.JRX_CTL.EN = false then (0, 0) else (s.radio.seq, s.radio.rxNext))) ∧
    (∀ w a len n, w < 2 → len < 2 ^ 32 → n ≤ len → Lp5xSound s a n → GoodWeaveImage s (memBytes s a n) → (fld s R.PWR_STATE.STATE < 2 ∨ w = 0) →
      (∃ p, p < 2 ∧ planeInUse s w p = false) →
      StartsIf (signatureHolds s (memBytes s a n) (fieldLE (memBytes s a n) 0x24 4)) s .weaveLoad 0x0503 1 (bytesLE 4 w ++ bytesLE 12 0 ++ ownRef s a len) (memBytes s a n)) ∧
    (∀ a len own, 0x4000 ≤ len → len < 2 ^ 32 → Lp5xSound s a 0x4000 →
      (let b := memBytes s a 0x4000
       let c := canonBlock b
       let members := fieldLE b 0xC 2
       blockOk s b = true → own < 16 → bitOf members own = true → blockDie b own = s.domain.die → 3 ≤ (maskList members).length →
       (∀ p, p < 8 → portState s p = 0 ∧ (blockPort b own p).2.2 = flag s (R.ADR_PCTL.EN p)) → ∀ r, NoVector s r →
       Asks s 0x0601 1 (bytesLE 16 0 ++ ownRef s a len) r → ∃ t, exec (.domainConfig r) s = .next t ∧
         Replied t r 0x0601 1 (bytesLE 2 s.wdn.nextJob) { begun s r 0x0601 b with
           regs := t.regs, time := { s.time with sinceAdmit := t.time.sinceAdmit, goodRun := t.time.goodRun }
           domain := { s.domain with
             block := some c, own := own, admitted := false, joinSent := false, reach := [], pend := [], left := [], dies := [], routesDue := true } } ∧
         RegsBut blockRegs s t ∧ selfState t = 1 ∧ chipId t = 0 ∧ fld t R.ADR_CHIP.MEPOCH = fld s R.ADR_CHIP.MEPOCH ∧
         fld t R.ADR_MEMBERS.CONFIGURED = members ∧ fld t R.ADR_MEMBERS.CURRENT = 0 ∧ fld t R.ADR_PEERS.QUARANTINED = 0 ∧
         fld t R.ADR_PEERS.LOST = fld s R.ADR_PEERS.LOST ∧ digest t = digestOf c ∧ flag t R.ADR_LEADER.QUORUM = false ∧
         flag t R.ADR_LEADER.LEADER_VALID = false ∧ fld t R.ADR_BENIGN.val = (fld s R.ADR_BENIGN.val + if c = b then 0 else 1) % 2 ^ 32)) ∧
    (∀ dev a len n, dev = 1 - fld s R.WDN_STAT.IMAGE → len < 2 ^ 32 → n ≤ len → Lp5xSound s a n →
      (let d := memBytes s a n
       GoodFirmware s d →
         StartsIf (signatureHolds s d (n - 104)) s .flashUpdate 0x0701 5 (bytesLE 4 dev ++ bytesLE 12 0 ++ ownRef s a len) d)) ∧
    (∀ target mask, TestMay s target mask → Starts s .testBist 0x0902 9 (bytesLE 4 target ++ bytesLE 4 mask) []) ∧
    (∀ link port lane a len, link ≤ 4 → link ≠ 3 → (port < if link = 1 then 3 else if link = 4 then 8 else 1) →
      (lane < if link = 1 then 1 else if link = 4 then 4 else 8) → a + 1024 ≤ lp5xEnd → 1024 ≤ len → len < 2 ^ 32 →
      Starts s .testBathtub 0x0903 9 (bytesLE 1 link ++ bytesLE 1 port ++ bytesLE 1 lane ++ bytesLE 13 0 ++ ownRef s a len) [])

/-- JOB_DONE posts the notice with the job's status and results: TABLE_FILL with its rows written in canonical form, TABLE_REPLACE once its generation is
committed, RADIO_START with the slot, WEAVE_LOAD with the plane loaded, DOMAIN_CONFIG with the chip's standing, FLASH_UPDATE with the image and the boot
configuration block written, TEST_BIST with the elements that failed, TEST_BATHTUB with its points written, and IO_ERROR where the job met one (R290,
R301, R313, R347, R359, R462, R478, R490 to R492, R537, R562, R563). -/
def Obligations.JobsEnd : Prop :=
  ∀ (s : State) (id key ticket seq : Nat) (o : Sys2Proof.JobOut), s.Inv → seq < 2 ^ 16 → key < 48 → bitOf s.wdn.ready (pairOf key) = true →
    ((mail s key).ntcTail + 2 ^ 16 - (mail s key).ntcHead) % 2 ^ 16 < 16 →
    (let job (code : Nat) (payload data : List Byte) (bad : Bool) (value : Option Nat) (done : Bool) : Job :=
       ⟨id, key, ticket, wantMessage code 0 seq payload 0 0, data, bad, value, done⟩
     let ends (j : Job) (st : Nat) (results : List Byte) (u : State → State) (P : State → Prop) : Prop :=
       s.wdn.jobs = [j] → s.posted = [] → ∃ t, exec (.jobDone id o) s = .next t ∧ JobEnds s t j st results (u t) ∧ P t
     let fails (j : Job) : Prop := ends j 14 [] (fun _ => s) (fun _ => True)
     let waits (j : Job) : Prop := s.wdn.jobs = [j] → exec (.jobDone id o) s = .next s
     ((∀ j, j ∈ s.wdn.jobs → j.id ≠ id) → exec (.jobDone id o) s = .next s) ∧
     (∀ code payload data bad, code ∈ [0x0402, 0x0503, 0x0601, 0x0701, 0x0902] → bad = true ∨ o.io = true → fails (job code payload data bad none false)) ∧
     (∀ payload data bad v done,
       (let j := job 0x0403 payload data bad v done
        (bad = false → done = true → ends j 0 (bytesLE 4 (v.getD 0)) (fun _ => s) (fun _ => True)) ∧
        (v = none → (bad = true ∨ (o.io = true ∧ done = false)) → fails j) ∧
        (bad = false → o.io = false → done = false → waits j) ∧
        (done = false → v ≠ none → waits j))) ∧
     (∀ payload bad,
       (∀ n done, ends (job 0x0501 payload [] bad (some n) done) 0 (bytesLE 4 n) (fun _ => s) (fun _ => True)) ∧
       (flag s R.JRX_STAT.LINK_UP = true → waits (job 0x0501 payload [] bad none false)) ∧
       (flag s R.JRX_STAT.LINK_UP = false → fails (job 0x0501 payload [] bad none false))) ∧
     (o.io = false →
       (∀ tb first count ref, tb < 64 → first < 2 ^ 32 → count < 2 ^ 32 → ref.length = 16 →
         (let pay (staged : Nat) := bytesLE 1 tb ++ bytesLE 1 staged ++ bytesLE 2 0 ++ bytesLE 4 first ++ bytesLE 4 count ++ bytesLE 4 0 ++ ref
          (∀ data : List Byte,
            (let u := underLayout s tb
             let n := tdRowBytes u tb
             let rows := (List.range count).map (fun i => (first + i, sliceBytes data (i * n) n))
             let l := rows.foldl (fun l r => tabSet l r.1 (canonRow u tb r.2)) (tabGet s.pool.staged tb [])
             ends (job 0x0402 (pay 1) data false none false) 0 (bytesLE 4 count)
               (fun t => { s with regs := t.regs, pool := { s.pool with staged := tabSet s.pool.staged tb l } })
               (fun t => ((mail s key).vecEn = false → RegsBut [R.BENIGN_DIVERGENCE.val.off] s t) ∧ fld t R.BENIGN_DIVERGENCE.val =
                 (fld s R.BENIGN_DIVERGENCE.val + (rows.filter (fun r => decide (canonRow u tb r.2 ≠ r.2))).length) % 2 ^ 32))) ∧
          (∀ (row : List Byte) k, count = 1 → shardOwner s tb (shardOf s tb first) = chipId s → row.length = tdRowBytes s tb → freeSlot s tb = some k →
            (let at_ := dirAddr s tb first
             let slot := slotAddr s tb k
             let g := fld s R.POOL_GEN.val
             let new := Entry.bytes ⟨k, true, false, 1, false, g, 0, 0⟩
             (dirEntry s tb first).curValid = false → (dirEntry s tb first).prevValid = false → Lp5xSound s at_ 16 → Lp5xFree s slot row.length →
             (at_ + 16 ≤ slot ∨ slot + row.length ≤ at_) → at_ % 16 = 0 →
             ends (job 0x0402 (pay 0) row false none false) 0 (bytesLE 4 1)
               (fun t => { s with regs := t.regs, mem := t.mem, marks := t.marks, pool := { s.pool with
                 used := setAdd s.pool.used (2 ^ 24 * tb + k), crcs := t.pool.crcs, genFlash := g } })
               (fun t => ((mail s key).vecEn = false → RegsBut [R.BENIGN_DIVERGENCE.val.off] s t) ∧ BytesAt t at_ new ∧ BytesAt t slot (canonRow s tb row) ∧
                 (∀ x, ¬ (at_ ≤ x ∧ x < at_ + 16) → ¬ (slot ≤ x ∧ x < slot + row.length) → memRead t.mem x = memRead s.mem x) ∧
                 fld t R.BENIGN_DIVERGENCE.val = (fld s R.BENIGN_DIVERGENCE.val + if canonRow s tb row = row then 0 else 1) % 2 ^ 32 ∧
                 ∀ sh, sh < 256 → shardOwner s tb sh = chipId s → tabFind t.pool.crcs (256 * tb + sh) = some (shardCrc t tb sh)))))) ∧
       (∀ w p ref (d : List Byte), w < 2 → ref.length = 16 → p < 2 → planeInUse s w p = false → (p = 1 → planeInUse s w 0 = true) →
         (let v := weave s w
          let plane : WPlane := {
            image := fieldLE d 8 4, kind := fieldLE d 6 2, frames := (List.range 4096).flatMap (fun c => canonFrame (cellFrame (d.drop 0x100) c))
            cfgs := (List.range (fieldLE d 0x18 2)).map (fun i => sliceBytes d (fieldLE d 0x1C 4 + 160 * i) 160) }
          (mail s key).vecEn = false →
          ends (job 0x0503 (bytesLE 4 w ++ bytesLE 12 0 ++ ref) d false none false) 0 (bytesLE 4 p)
            (fun t => { s with regs := t.regs, weave := t.weave })
            (fun t => weave t w = { v with planes := tabSet v.planes p plane } ∧ (∀ x, x ≠ w → weave t x = weave s x) ∧
              RegsBut [(if p = 0 then R.WV_PLANE.val w else R.WV_PLANE.val_HI w).off, (R.WV_PSTAT.VALID w).off] s t ∧
              reg t (if p = 0 then R.WV_PLANE.val w else R.WV_PLANE.val_HI w).off = fieldLE d 8 4 ∧
              BitsAre (reg s (R.WV_PSTAT.VALID w).off) (reg t (R.WV_PSTAT.VALID w).off) [(p, true), (2 + p, false)]))) ∧
       (∀ payload data, ends (job 0x0601 payload data false none false) 0
         (bytesLE 4 (selfState s) ++ bytesLE 4 (chipId s) ++ bytesLE 4 (fld s R.ADR_LEADER.LEADER)) (fun _ => s) (fun _ => True)) ∧
       (∀ dev ref (d : List Byte), dev < 2 → ref.length = 16 → 24 ≤ d.length → d.length ≤ 0x80000 →
         (let spare := 1 - fld s R.WDN_STAT.IMAGE
          let area := flashAddr dev 0x100000
          let ver (x : Nat) : Nat := if x = dev then fieldLE d 8 4 else fieldLE (memBytes s (flashAddr x 0x100000) 24) 8 4
          let choice := bcbDecide (memBytes s (flashAddr 0 0) 4096) (memBytes s (flashAddr 1 0) 4096)
          let q := (s.wdn.boot.seq + 1) % 2 ^ 32
          ends (job 0x0701 (bytesLE 4 dev ++ bytesLE 12 0 ++ ref) d false none false) 0 (bytesLE 4 d.length)
            (fun t => { s with
              mem := t.mem, flash := { s.flash with buf := tabErase (tabErase s.flash.buf dev) spare }
              wdn := { s.wdn with
                boot := { s.wdn.boot with seq := q }
                health := { s.wdn.health with now_ := s.wdn.health.now_.set 3 (s.wdn.health.now_.getD 3 0 + 1) } } })
            (fun t => BytesAt t area (d ++ List.replicate (0x80000 - d.length) 0xFF) ∧ BytesAt t (flashAddr spare 0) (wantBcb q choice.2.1 (ver 0) (ver 1)) ∧
              ∀ x, ¬ (area ≤ x ∧ x < area + 0x80000) → ¬ (flashAddr spare 0 ≤ x ∧ x < flashAddr spare 4096) → memRead t.mem x = memRead s.mem x))) ∧
       (∀ target mask, target ≤ 5 → mask < 4096 →
         (let on (q : Nat) : Bool := bitOf mask q
          let weaveRegs (w : Nat) : List Nat :=
            [(R.WV_FIFO.val w).off, (R.WV_CTL.EN w).off, (R.WV_PLANE.val w).off, (R.WV_PLANE.val_HI w).off, (R.WV_PSTAT.VALID w).off]
          let gone (x : Nat) : Prop := ∃ c, c < 96 ∧ on (c / 8) = true ∧ ((target = 1 ∧ tileAddr c 0 ≤ x ∧ x < tileAddr c 0x180000) ∨
            (target = 2 ∧ imemAddr c 0 ≤ x ∧ x < imemAddr c 0x20000))
          (mail s key).vecEn = false →
          ends (job 0x0902 (bytesLE 4 target ++ bytesLE 4 mask) [] false none false) 0 (bytesLE 4 (o.mask &&& mask))
            (fun t => { s with mem := t.mem, weave := t.weave, regs := t.regs })
            (fun t => (∀ x, (gone x → memRead t.mem x = 0) ∧ (¬ gone x → memRead t.mem x = memRead s.mem x)) ∧
              RegsBut (if target = 3 then ((List.range 2).filter on).flatMap weaveRegs else []) s t ∧
              ∀ w, (let lost := target = 3 ∧ w < 2 ∧ on w = true
                (lost → weave t w = weave { s with weave := [] } w) ∧ (¬ lost → weave t w = weave s w) ∧
                (lost → fld t (R.WV_PSTAT.VALID w) = 0 ∧ flag t (R.WV_CTL.EN w) = false)))))) ∧
     (∀ link port lane a len, link < 256 → port < 256 → lane < 256 → Lp5xFree s a 1024 → a < 2 ^ 44 → len < 2 ^ 32 →
       (let l := (o.points.take 64).zipIdx.flatMap (fun p => bytesLE 2 (wrapTo 16 ((p.2 : Int) - 32)) ++ bytesLE 2 0 ++ bytesLE 4 p.1.1 ++ bytesLE 8 p.1.2)
        ends (job 0x0903 (bytesLE 1 link ++ bytesLE 1 port ++ bytesLE 1 lane ++ bytesLE 13 0 ++ ownRef s a len) [] false none false)
          (if o.io then 14 else 0) (bytesLE 4 (min 64 o.points.length)) (fun t => { s with mem := t.mem, marks := t.marks }) (fun t => MemIs s t a l))))

namespace Sys2Proof.Machine

/-! ### Power and the Energy Guard (R35, R503 to R523, R543, R588, R591) -/

/-- The power of a Quarter at a divisor code in mW, the rail target in mV, and 24 divided by the divisor (Table 16-2). -/
def wantPq (code : Nat) : Nat := [4000, 2400, 1600, 1000, 750].getD code 0
def wantRail (code : Nat) : Nat := [800, 750, 700, 660, 650].getD code 0
def wantShare (code : Nat) : Nat := [24, 16, 12, 8, 6].getD code 0

/-- The slowest divisor code of a plan (R272, R516). -/
def wantSlowest (s : State) : Nat :=
  let has (f : Nat → Fld) : Bool := (List.range 12).any (fun p => flag s (R.PART_CFG.EN p) && flag s (f p))
  min (if has R.PART_CFG.RADIO then fld s R.PWR_RADIO.DIV_MAX else 4) (if has R.PART_CFG.LEND then 2 else 4)

/-- Quarters that a plan may remove: those of enabled tile-task partitions without RADIO. -/
def servingQuarters (s : State) : List Nat :=
  (List.range 12).filter (fun q => match quarterHome s q with
    | some p => flag s (R.PART_CFG.MODE p) && !flag s (R.PART_CFG.RADIO p)
    | none => false)

/-- Quarters of enabled partitions. -/
def assignedQuarters (s : State) : List Nat := (List.range 12).filter (fun q => (quarterHome s q).isSome)

/-- A pair of a divisor code and a number of serving Quarters fits a cap (R516). -/
def PairFits (s : State) (cap d n : Nat) : Prop :=
  let nMax := (servingQuarters s).length
  let k := (assignedQuarters s).length - nMax
  d ≤ min 4 (wantSlowest s) ∧ n ≤ nMax ∧ 6000 + (k + n) * wantPq d + (12 - k - n) * 50 ≤ cap

/-- The plan that sets a divisor and keeps `n` serving Quarters, the lowest ones, where none was gated or draining (R503, R516, R518). -/
def Planned (s t : State) (d n : Nat) : Prop :=
  let drained := (servingQuarters s).drop n
  RegsBut planRegs s t ∧ fld t R.VCORE.MARGIN = min 30 (5 * ((s.wdn.health.now_.getD 0 0 + 99) / 100)) ∧
    (∀ q, q < 12 → fld t (R.QCLK.DIV q) = (if q ∈ assignedQuarters s then d else fld s (R.QCLK.DIV q)) ∧ flag t (R.QCLK.GATED q) = false ∧
      flag t (R.QCLK.DRAINING q) = decide (q ∈ drained)) ∧
    (∀ p, p < 12 → fld t (R.PWR_PCAP.val p) =
      ((List.range 12).filter (fun q => decide (quarterHome s q = some p) && !decide (q ∈ drained))).length * wantPq d) ∧
    fld t R.VCORE.TARGET = wantRail (((List.range 12).map (fun q => fld t (R.QCLK.DIV q))).foldl min d) + fld t R.VCORE.MARGIN

/-- The input voltage that the guard measures, in units of 10 mV (R521). -/
def withVin (s : State) (at_ vin : Nat) : State :=
  setFld { s with guard := { s.guard with vin := vin, goodSince := if vin < 3500 then none else some (s.guard.goodSince.getD at_) } } R.EG_STAT.VIN (min 8191 vin)

/-- PWRFAIL_N has been asserted on `u` (R523): nothing where it stood; its count in OFF and DORMANT; and otherwise, with nothing to checkpoint, no command
accepted and no work under way, entry to DORMANT with what the retention domain holds. -/
def PwrfailAsserted (u t : State) : Prop :=
  (flag u R.PWR_STATE.PWRFAIL = true → t = u) ∧
  (flag u R.PWR_STATE.PWRFAIL = false →
    fld t R.EG_PFCOUNT.val = (fld u R.EG_PFCOUNT.val + 1) % 2 ^ 16 ∧ flag t R.PWR_STATE.PWRFAIL = true ∧ flag t R.EG_STAT.PWRFAIL_N = false ∧
    (u.wdn.boot.power = false ∨ u.wdn.boot.dormant = true →
      t = { u with regs := t.regs } ∧ RegsBut [R.PWR_STATE.STATE.off, R.EG_STAT.VIN.off, R.EG_PFCOUNT.val.off] u t ∧
        BitsAre (reg u R.PWR_STATE.STATE.off) (reg t R.PWR_STATE.STATE.off) [(3, true)] ∧
        BitsAre (reg u R.EG_STAT.VIN.off) (reg t R.EG_STAT.VIN.off) [(16, false)]) ∧
    (u.wdn.boot.power = true → u.wdn.boot.dormant = false →
      t.wdn.boot = { u.wdn.boot with rom := false, recovery := false, dormant := true, brownout := true, leaving := none } ∧ t.guard = u.guard ∧
        t.cores = [] ∧ t.syncs = [] ∧ t.queues = Queues.reset ∧ t.sched = Sched.reset ∧ t.coh = Coh.reset ∧ t.ports = [] ∧ t.weave = [] ∧
        t.radio = RadioSt.reset ∧ t.events = [] ∧ t.wdn.mails = [] ∧ t.wdn.jobs = [] ∧ t.wdn.accepted = [] ∧
        t.wdn.otp = u.wdn.otp ∧ t.wdn.health.recs = u.wdn.health.recs ∧ t.wdn.epoch = u.wdn.epoch ∧
        flag t R.CLK_STAT.PLL_LOCK = false ∧ flag t R.PWR_STATE.SHED = false ∧ flag t R.WDN_STAT.RUNNING = false))

/-- The chip is OFF: memory, cores and registers of its rails are lost; flash, OTP and the identity are kept (R523, R550). -/
def TurnedOff (s t : State) : Prop :=
  t.wdn.boot = { s.wdn.boot with power := false, rom := false, recovery := false, dormant := false, brownout := false, leaving := none } ∧
    t.wdn.otp = s.wdn.otp ∧ t.wdn.health.recs = s.wdn.health.recs ∧ t.domain.die = s.domain.die ∧ t.cores = [] ∧ t.syncs = [] ∧ t.weave = [] ∧
    t.wdn.mails = [] ∧ t.wdn.ckpt = [] ∧ flag t R.CLK_STAT.PLL_LOCK = false ∧ flag t R.WDN_STAT.RUNNING = false ∧
    (∀ x, x < lp5xEnd ∨ (tileAddr 0 0 ≤ x ∧ x < tileAddr 96 0) → memRead t.mem x = 0) ∧
    ∀ x, flashAddr 0 0 ≤ x → x < flashAddr 2 0 → memRead t.mem x = memRead s.mem x

end Sys2Proof.Machine

/-- TELEMETRY_SAMPLE keeps the last 10 samples, collects hot rows, and reports what is given once a second. POWER_PLAN sets the pair of divisor and serving
Quarters with the largest n/d that fits the cap, ties to the slower divisor, with the rail target and the shares; the heat rule lowers its cap, and an expired
lease plans with the floor. QUARTER_GATE gates a draining Quarter that is idle. LEASE_EXPIRY puts the floor in force; POWER_OVERRUN notes an overrun;
DROOP_STRETCH and DROOP_RECOVER stretch a clock and end it; WHISPER_WAKE leaves WATCH for NIGHT (R35, R306, R503, R505, R513, R515 to R519, R556, R571). -/
def Obligations.PowerIsPlanned : Prop :=
  ∀ (s : State), s.Inv →
    (let capReg := fld s R.PWR_CAP.val
     let p := s.wdn.power
     let withPower (x : PowerSt) : State := { s with wdn := { s.wdn with power := x } }
     (∀ x : Sys2Proof.TelemIn, s.events.length + s.radio.crcSec.length + p.stretches.length ≤ 256 →
       (let now := extTime s
        let hot := (List.range 64).filter (fun i => flag s (R.HOT.VALID i))
        let seen := hot.map (fun i => Sys2Proof.SkewReport.mk (fld s (R.HOT.TABLE i)) (fld s (R.HOT.ROW i)) (chipId s) (fld s (R.HOT.COUNT i)))
        ∃ t, exec (.telemetrySample x) s = .next t ∧
          t = { withPower { p with samples := (⟨x.vin, x.iin, x.chip, x.mod, x.temps, x.parts, now⟩ :: p.samples).take 10, stretches := [] } with
            regs := t.regs, events := t.events, radio := { s.radio with crcSec := [] }, pool := { s.pool with seen := seen.reverse ++ s.pool.seen } } ∧
          t.events = s.events ++ s.radio.crcSec.map (fun y => Event.mk 0x0401 101 [y.1, y.2] now) ++
            p.stretches.map (fun y => Event.mk 0x0703 0x7F [y.1, y.2] now) ∧
          RegsBut (hot.flatMap (fun i => [(R.HOT.ROW i).off, (R.HOT.COUNT i).off])) s t ∧
          ∀ i, i ∈ hot → reg t (R.HOT.ROW i).off = 0 ∧ reg t (R.HOT.COUNT i).off = 0)) ∧
     (p.budget = none ∨ flag s R.PWR_STATE.LEASE_EXPIRED = false → p.samples = [] → Unheard s 2 →
       (∀ q, q < 12 → flag s (R.QCLK.GATED q) = false ∧ flag s (R.QCLK.DRAINING q) = false) →
       (let planned (d n : Nat) (x : PowerSt) : Prop := ∃ t, exec .powerPlan s = .next t ∧ t = { withPower x with regs := t.regs } ∧ Planned s t d n
        let x : PowerSt := { p with planCap := capReg, cap := capReg }
        (fld s R.PWR_STATE.STATE < 2 →
          (∀ d n, PairFits s capReg d n → (∀ d' n', PairFits s capReg d' n' →
              n' * wantShare d' < n * wantShare d ∨ (n' * wantShare d' = n * wantShare d ∧ d' ≤ d)) → planned d n x) ∧
          ((∀ d n, ¬ PairFits s capReg d n) → planned (min 4 (wantSlowest s)) 0 x)) ∧
        (fld s R.PWR_STATE.STATE = 2 → planned (min 4 (fld s R.PWR_RADIO.DIV_MAX)) 12 p) ∧
        (fld s R.PWR_STATE.STATE = 3 → ∃ t, exec .powerPlan s = .next t ∧ t = { s with regs := t.regs } ∧ RegsBut [R.VCORE.MARGIN.off] s t ∧
          fld t R.VCORE.TARGET = fld s R.VCORE.TARGET ∧ fld t R.VCORE.MARGIN = min 30 (5 * ((s.wdn.health.now_.getD 0 0 + 99) / 100))))) ∧
     (∀ (x : Telem) rest (hot : Int), fld s R.PWR_STATE.STATE < 2 → p.budget = none → p.samples = x :: rest → x.temps.length = 12 → hot ∈ x.temps →
       (∀ y, y ∈ x.temps → y ≤ hot) → ∃ t, exec .powerPlan s = .next t ∧ t.wdn.power = { p with
         cap := capReg
         planCap := if 1000 ≤ hot then max 12000 (min capReg (p.planCap * 9 / 10)) else if 950 ≤ hot ∧ p.planCap < p.cap then min capReg p.planCap else capReg }) ∧
     (∀ b, p.budget = some b → flag s R.PWR_STATE.LEASE_EXPIRED = true → fld s R.PWR_STATE.STATE < 2 → p.samples = [] →
       (let cap := max 12000 (min 55000 (b.mw - 4000))
        ∃ t, exec .powerPlan s = .next t ∧ fld t R.PWR_CAP.val = cap ∧ fld t R.PWR_STATE.STATE = (if cap = 55000 then 0 else 1) ∧
          t.wdn.power = { p with cap := cap, planCap := cap })) ∧
     (∀ q, q < 12 →
       (let idle := ∀ i, i < 8 → (core s (8 * q + i)).task = none ∧ (core s (8 * q + i)).claim = none
        let mine (x : Nat) : Prop := ∃ c, c < 96 ∧ c / 8 = q ∧ ((tileAddr c 0 ≤ x ∧ x < tileAddr c 0x200000) ∨ (imemAddr c 0 ≤ x ∧ x < imemAddr c 0x20000))
        (flag s (R.QCLK.DRAINING q) = false ∨ ¬ idle → exec (.quarterGate q) s = .next s) ∧
        (flag s (R.QCLK.DRAINING q) = true → idle → ∃ t, exec (.quarterGate q) s = .next t ∧
          t = { s with
            regs := t.regs, mem := t.mem, cores := s.cores.filter (fun x => decide (x.1 / 8 ≠ q)), marks := { s.marks with poisonWords := t.marks.poisonWords } } ∧
          RegsBut [(R.QCLK.DIV q).off] s t ∧ flag t (R.QCLK.GATED q) = true ∧ flag t (R.QCLK.DRAINING q) = false ∧ flag t (R.QCLK.STRETCH q) = false ∧
          fld t (R.QCLK.DIV q) = fld s (R.QCLK.DIV q) ∧ fld t (R.QCLK.DROOP_THR q) = fld s (R.QCLK.DROOP_THR q) ∧
          (∀ x, (mine x → memRead t.mem x = 0) ∧ (¬ mine x → memRead t.mem x = memRead s.mem x)) ∧
          ∀ w, w ∈ t.marks.poisonWords ↔ w ∈ s.marks.poisonWords ∧ ¬ mine (8 * w)) ∧
        (let stands := flag s (R.QCLK.GATED q) = true ∨ flag s (R.QCLK.STRETCH q) = true
         (stands → exec (.droopStretch q) s = .next s) ∧
         (¬ stands → ∃ t, exec (.droopStretch q) s = .next t ∧
           t = { withPower { p with stretches := tabSet p.stretches q (tabGet p.stretches q 0 + 1) } with regs := t.regs } ∧
           RegsBut [(R.QCLK.DIV q).off, (R.DROOP_CNT.val q).off] s t ∧ BitsAre (reg s (R.QCLK.DIV q).off) (reg t (R.QCLK.DIV q).off) [(5, true)] ∧
           fld t (R.DROOP_CNT.val q) = (fld s (R.DROOP_CNT.val q) + 1) % 2 ^ 32)) ∧
        (∀ good, (good < 64 → exec (.droopRecover q good) s = .next s) ∧
          (64 ≤ good → ∃ t, exec (.droopRecover q good) s = .next t ∧ t = { s with regs := t.regs } ∧ RegsBut [(R.QCLK.DIV q).off] s t ∧
            BitsAre (reg s (R.QCLK.DIV q).off) (reg t (R.QCLK.DIV q).off) [(5, false)])))) ∧
     (∀ after, (let s' := advance s after
       (s'.wdn.power.budget = none → exec (.leaseExpiry after) s = .next s') ∧
       (∀ b, s'.wdn.power.budget = some b →
         (let lapses := b.horizon ≠ 0 ∧ flag s' R.PWR_STATE.LEASE_EXPIRED = false ∧ b.at_ + b.horizon * 1000000000 ≤ extTime s'
          (¬ lapses → exec (.leaseExpiry after) s = .next s') ∧
          (lapses → Unheard s' 2 → ∃ t, exec (.leaseExpiry after) s = .next t ∧
            t = { s' with regs := t.regs, wdn := { s'.wdn with power := { s'.wdn.power with budget := some { b with mw := b.floor } } } } ∧
            RegsBut [R.PWR_STATE.STATE.off] s' t ∧ BitsAre (reg s' R.PWR_STATE.STATE.off) (reg t R.PWR_STATE.STATE.off) [(5, true)]))))) ∧
     (∀ chip mod, (let beyond := 110 * capReg < 100 * chip ∨ 72000 < mod
       (beyond → exec (.powerOverrun chip mod) s = .next (withPower { p with overrun := true })) ∧
       (¬ beyond → exec (.powerOverrun chip mod) s = .next s))) ∧
     (let wakes := fld s R.PWR_STATE.STATE = 3 ∧ flag s R.PWR_WAKE.WAKE_ON_WHISPER = true
      (¬ wakes → (∀ t, p.entering ≠ some (3, t)) ∨ flag s R.PWR_WAKE.WAKE_ON_WHISPER = false → exec .whisperWake s = .next s) ∧
      (∀ t, ¬ wakes → p.entering = some (3, t) → flag s R.PWR_WAKE.WAKE_ON_WHISPER = true →
        exec .whisperWake s = .next (withPower { p with wakeDue := true })) ∧
      (∀ n (cfg lend ledger kctl jrx jtx wv : BitVec 32) plane, wakes → n < 12 → p.plane = some plane →
        p.saved = [((R.PART_CFG.QMASK n).off, cfg.toNat), ((R.PART_LEND.val n).off, lend.toNat), ((R.PART_LEDGER.LEAD n).off, ledger.toNat),
          (R.KCTL.RX_EN.off, kctl.toNat), (R.JRX_CTL.EN.off, jrx.toNat), (R.JTX_CTL.EN.off, jtx.toNat), ((R.WV_CTL.EN 0).off, wv.toNat)] →
        ∃ t, exec .whisperWake s = .next t ∧
          t = { s with regs := t.regs, cores := t.cores, weave := t.weave, radio := t.radio, syncs := t.syncs, wdn := { s.wdn with
            power := { p with wakeUp := true, plane := none, objs := [] }, ready := if flag s R.WDN_STAT.RUNNING then readyMask t else 0 } } ∧
          (∀ m, syncObj t m = ((p.objs.reverse.find? (fun x => x.1 = m)).map (fun x => x.2)).getD (syncObj s m)) ∧
          flag t R.JSYSREF.ARM = true ∧
          RegsBut ([R.PWR_STATE.STATE.off, R.JSYSREF.ARM.off, R.JRX_STAT.LINK_UP.off, (R.WV_PLANE.val 0).off, (R.WV_PLANE.val_HI 0).off, (R.WV_PSTAT.VALID 0).off] ++
            p.saved.map Prod.fst ++ planRegs) s t ∧
          fld t R.PWR_STATE.STATE = 2 ∧ reg t (R.PART_CFG.QMASK n).off = cfg.toNat ∧ reg t (R.PART_LEND.val n).off = lend.toNat ∧
          reg t (R.PART_LEDGER.LEAD n).off = ledger.toNat ∧ reg t R.JRX_CTL.EN.off = jrx.toNat ∧ reg t R.JTX_CTL.EN.off = jtx.toNat ∧
          reg t (R.WV_CTL.EN 0).off = wv.toNat ∧ reg t R.KCTL.RX_EN.off = reg s R.KCTL.RX_EN.off ∧
          tabFind (weave t 0).planes (fld t (R.WV_CTL.SEL 0)) = some plane ∧
          ∀ q, q < 12 → bitOf cfg.toNat 13 = true → bitOf cfg.toNat q = true → flag t (R.QCLK.GATED q) = false)))

/-- The Energy Guard follows its input. PWRFAIL asserts PWRFAIL_N below 34.0 V, and PWRFAIL_N_DEASSERT releases it; OVERCURRENT and OVERVOLTAGE open the input
switch, the third over-current opening in 60 s for good; SWITCH_RECLOSE and INPUT_SWITCH_CLOSE close it under its condition. INPUT_REMOVED, RAILS_FALL and
THERMAL_TRIP turn the chip OFF, and THERM_N follows the hottest Quarter (R519, R521, R523, R549, R550, R588, R591). -/
def Obligations.GuardActs : Prop :=
  ∀ (s : State), s.Inv →
    (let g := s.guard
     -- nothing to checkpoint, and nobody to answer
     let calm := (∀ n, n < 12 → flag s (R.PART_CFG.EN n) = false) ∧ (∀ c, c < 96 → (core s c).claim = none) ∧ s.wdn.accepted = [] ∧ selfState s = 0
     let opened (u t : State) : Prop := PwrfailAsserted (setFlag { u with guard := { u.guard with closed := false } } R.EG_STAT.SWITCH_ON false) t
     let closes (u : State) (at_ : Nat) (t : State) : Prop :=
       (let may := 3500 ≤ u.guard.vin ∧ u.guard.vin ≤ 6200 ∧ u.guard.latched = false ∧ u.guard.tripped = false ∧
          (∀ o rest, u.guard.opens = o :: rest → o + 1000000 ≤ at_)
        (may → t = setFlag (setFlag { u with guard := { u.guard with closed := true } } R.EG_STAT.SWITCH_ON true) R.EG_STAT.OV false) ∧ (¬ may → t = u))
     (calm → ∀ at_ vin, (3400 ≤ vin → exec (.pwrfail at_ vin) s = .next (withVin s at_ vin)) ∧
       (vin < 3400 → ∃ t, exec (.pwrfail at_ vin) s = .next t ∧ PwrfailAsserted (withVin s at_ vin) t)) ∧
     (∀ at_ bulk,
       (let good := (∃ since, g.goodSince = some since ∧ since + 10000 ≤ at_) ∧ g.closed = true ∧ 95 * g.vin ≤ 100 * bulk
        (good → exec (.pwrfailNDeassert at_ bulk) s = .next (setFlag (setFlag s R.PWR_STATE.PWRFAIL false) R.EG_STAT.PWRFAIL_N true)) ∧
        (¬ good → exec (.pwrfailNDeassert at_ bulk) s = .next s))) ∧
     (calm → ∀ at_ ma us,
       (let beyond := g.closed = true ∧ (10000 < ma ∨ (3000 < ma ∧ 1000 < us))
        let l := at_ :: g.opens.filter (fun o => decide (at_ < o + 60000000))
        (¬ beyond → exec (.overcurrent at_ ma us) s = .next s) ∧
        (beyond → ∃ t, exec (.overcurrent at_ ma us) s = .next t ∧
          opened { s with guard := { g with opens := l, latched := g.latched || decide (3 ≤ l.length) } } t))) ∧
     (calm → ∀ at_ vin, (vin ≤ 6200 → exec (.overvoltage at_ vin) s = .next (withVin s at_ vin)) ∧
       (6200 < vin → ∃ t, exec (.overvoltage at_ vin) s = .next t ∧ opened (setFlag (withVin s at_ vin) R.EG_STAT.OV true) t)) ∧
     (∀ at_, ∃ t, exec (.switchReclose at_) s = .next t ∧ closes s at_ t) ∧
     (∀ at_ vin, ∃ t, exec (.inputSwitchClose at_ vin) s = .next t ∧ closes (withVin s at_ vin) at_ t) ∧
     (∃ t, exec .railsFall s = .next t ∧ TurnedOff s t ∧ t.guard = g ∧ reg t R.EG_STAT.VIN.off = reg s R.EG_STAT.VIN.off) ∧
     (∀ vin, (2000 ≤ vin → exec (.inputRemoved vin) s = .next s) ∧
       (vin < 2000 → calm → ∃ t, exec (.inputRemoved vin) s = .next t ∧ TurnedOff s t ∧ flag t R.PWR_STATE.PWRFAIL = true ∧
         flag t R.EG_STAT.SWITCH_ON = false ∧ fld t R.EG_STAT.VIN = vin ∧
         t.guard = { g with closed := false, vin := vin, goodSince := none, opens := [], latched := false, tripped := false, thermN := false })) ∧
     (∀ temp, (temp < 1150 → exec (.thermalTrip temp) s = .next s) ∧
       (1150 ≤ temp → ∃ t, exec (.thermalTrip temp) s = .next t ∧ TurnedOff s t ∧ flag t R.PWR_STATE.PWRFAIL = true ∧
         flag t R.EG_STAT.PWRFAIL_N = false ∧ flag t R.EG_STAT.SWITCH_ON = false ∧ t.guard = { g with closed := false, tripped := true, thermN := true })) ∧
     (∀ q temp, q < 12 → s.events.length < 256 →
       (let asserts := 1000 ≤ temp ∧ g.thermN = false
        let releases := temp < 950 ∧ g.thermN = true ∧ g.tripped = false
        (asserts → ∃ t, exec (.thermN q temp) s = .next t ∧
          t = { s with guard := { g with thermN := true }, out := ⟨.pin, [0, 1], []⟩ :: s.out, events := t.events } ∧ Reported s t 0x0702 0x7F [q, temp]) ∧
        (releases → exec (.thermN q temp) s = .next { s with guard := { g with thermN := false }, out := ⟨.pin, [0, 0], []⟩ :: s.out }) ∧
        (¬ asserts → ¬ releases → exec (.thermN q temp) s = .next s))))

namespace Sys2Proof.Machine

/-! ### Start-up and resets (R216, R217, R406, R512, R528 to R545) -/

/-- The boot code has chosen an image from what flash and OTP held in `s` (R516, R535 to R540); `avoid` is an image that reached three
watchdog restarts, and `err` names the flash reads that fail: a copy of the BCB is not read, or an image fails with code 5 (R550). -/
def Booted (s t : State) (avoid : Option Nat) (err : Nat) : Prop :=
  let copy (i : Nat) : List Byte := if bitOf err i then [] else memBytes s (flashAddr i 0) 4096
  let d := bcbDecide (copy 0) (copy 1)
  let chk (i : Nat) : Nat := if avoid = some i then 6 else if bitOf err (i + 2) then 5 else imageCheck s (memBytes s (flashAddr i 0x100000) (448 * 1024))
  let fail (i : Nat) : Nat := if i = 0 then fld t R.BOOT_STAT.FAIL_A else fld t R.BOOT_STAT.FAIL_B
  let first := match avoid with
    | some i => 1 - i
    | none => d.2.1
  let listed (n : Nat) (page : Bool) : Prop := ∃ l, l ∈ s.wdn.boot.journals ∧ ∃ e, e ∈ l.2 ∧ e.page = page ∧ e.num = n
  let runs (i : Nat) : Prop := flag t R.WDN_STAT.RUNNING = true ∧ fld t R.WDN_STAT.IMAGE = i ∧ fld t R.BOOT_STAT.IMAGE = i ∧
    t.wdn.boot.rom = false ∧ t.wdn.boot.recovery = false ∧ t.wdn.boot.boots = s.wdn.boot.boots + 1 ∧ flag t R.HIF_STAT.POOL_READY = true ∧
    t.wdn.ready = readyMask t ∧ (∀ n, (n ∈ t.marks.pages ↔ listed n true) ∧ (n ∈ t.marks.rows ↔ listed n false))
  fld t R.BOOT_STAT.BCB = d.1 ∧ t.wdn.boot.seq = d.2.2.1 ∧ t.wdn.otp = s.wdn.otp ∧
    (∀ i, avoid = some i → fail i = 6) ∧
    (chk first = 0 → runs first ∧ flag t R.BOOT_STAT.FALLBACK = decide (first ≠ d.2.1)) ∧
    (chk first ≠ 0 → fail first = chk first ∧
      (chk (1 - first) = 0 → runs (1 - first) ∧ flag t R.BOOT_STAT.FALLBACK = true) ∧
      (chk (1 - first) ≠ 0 → fail (1 - first) = chk (1 - first) ∧ t.wdn.boot.rom = true))

/-- OTP has been sensed into the shadow anew (R538). -/
def Sensed (s : State) : State := { s with wdn := { s.wdn with otp := { s.wdn.otp with badKeys := 0, badFloor := false } } }

/-- The clocks and the flash run (R468, R538), and RST_CAUSE names the causes given. -/
def Clocked (t : State) (cause : Nat) : Prop :=
  t.time.running = true ∧ flag t R.CLK_STAT.PLL_LOCK = true ∧ flag t R.CLK_STAT.REF_OK = true ∧ flag t R.XSPI_CTL.MODE_8D = true ∧ fld t R.XSPI_CTL.CLK = 0 ∧
    flag t R.XSPI_STAT.PRESENT_A = true ∧ flag t R.XSPI_STAT.PRESENT_B = true ∧ reg t R.RST_CAUSE.POWER_ON.off = cause

/-- What a power-on and a warm reset leave of the functional state: nothing but what memory keeps (R217, R530, R534). -/
def Cleared (s t : State) : Prop :=
  t.cores = [] ∧ t.syncs = [] ∧ t.queues = Queues.reset ∧ t.sched = Sched.reset ∧ t.coh = Coh.reset ∧ t.fabric = Fabric.reset ∧ t.ports = [] ∧
    t.weave = [] ∧ t.radio = RadioSt.reset ∧ t.posted = [] ∧ t.events = [] ∧ t.wdn.mails = [] ∧ t.wdn.jobs = [] ∧ t.wdn.accepted = [] ∧ t.wdn.ckpt = [] ∧
    t.domain = { Domain.reset with die := s.domain.die } ∧ t.guard = s.guard ∧ t.wdn.health.recs = s.wdn.health.recs ∧
    t.wdn.boot.leaving = none ∧ t.wdn.boot.dormant = false ∧ fld t R.PWR_STATE.STATE = 1 ∧ fld t R.PWR_CAP.val = 12000 ∧
    flag t R.WDN_STAT.SEALED = false ∧ counter t = 0 ∧
    (∀ x, tileAddr 0 0 ≤ x → x < tileAddr 96 0 → memRead t.mem x = 0) ∧
    ∀ x, flashAddr 0 0 ≤ x → x < flashAddr 2 0 → memRead t.mem x = memRead s.mem x

/-- A warm reset (R534): LP5X keeps its content. -/
def WarmStarted (s t : State) (cause : Nat) (avoid : Option Nat) (err : Nat) : Prop :=
  Cleared s t ∧ Clocked t cause ∧ Booted s t avoid err ∧ t.wdn.boot.power = s.wdn.boot.power ∧ t.wdn.epoch = s.wdn.epoch ∧
    ∀ x, x < lp5xEnd → memRead t.mem x = memRead s.mem x

/-- The clocks have stopped (R528). -/
def ClocksStopped (s t : State) (ref : Bool) : Prop :=
  let n := min (fld s R.CLK_STAT.REF_LOSS + 1) 255
  t = { s with regs := t.regs, events := t.events, time := { s.time with running := false } } ∧ RegsBut [R.CLK_STAT.PLL_LOCK.off] s t ∧
    flag t R.CLK_STAT.PLL_LOCK = false ∧ flag t R.CLK_STAT.REF_OK = (flag s R.CLK_STAT.REF_OK && ref) ∧ fld t R.CLK_STAT.REF_LOSS = n ∧
    Reported s t 0x0704 0x7F [n]

end Sys2Proof.Machine

/-- POWER_ON runs the power-on sequence once the switch is closed and PWRFAIL_N is released. WARM_RESET and CORE_RESET reset what Table 17-1 says once their leave
has run. REFCLK_LOSS and PLL_LOCK_LOSS stop the clocks, and REFCLK_RETURN leads to a warm reset. BOOT_FALLBACK boots the other image after three attempts, and
BOOT_ATTEMPTS_CLEAR clears their count after 60 s. WAKE_N and BROWNOUT_RESTART leave DORMANT. CHECKPOINT_EXPIRY drops a checkpoint after 600 s, and
ROLLBACK_RAISE raises the floor after 24 h (R468, R512, R528, R530, R533, R534, R537 to R540, R545). -/
def Obligations.ChipStartsAndResets : Prop :=
  ∀ (s : State), s.Inv →
    (let boot := s.wdn.boot
     let attempts := fld s R.BOOT_STAT.BOOT_ATTEMPTS
     (∀ role err, (let may := boot.power = false ∧ s.guard.closed = true ∧ flag s R.EG_STAT.PWRFAIL_N = true
       (¬ may → exec (.powerOn role err) s = .next s) ∧
       (may → ∃ t, exec (.powerOn role err) s = .next t ∧ Cleared s t ∧ Clocked t 1 ∧ Booted (Sensed s) t none err ∧ t.wdn.boot.power = true ∧ t.wdn.boot.brownout = false ∧
         flag t R.HIF_STAT.ROLE = role ∧ t.wdn.epoch = 0 ∧ ∀ x, x < lp5xEnd → memRead t.mem x = 0))) ∧
     ((∀ c, boot.leaving ≠ some (2, c)) → ∀ err, exec (.warmReset err) s = .next s) ∧
     (∀ c err, boot.leaving = some (2, c) → ∃ t, exec (.warmReset err) s = .next t ∧ WarmStarted s t (if c = 2 then 4 else if c = 3 then 8 else 2) none err) ∧
     ((∀ c, boot.leaving ≠ some (1, c)) → exec .coreReset s = .next s) ∧
     (∀ c, boot.leaving = some (1, c) → s.domain.block = none → selfState s ≠ 4 → ∃ t, exec .coreReset s = .next t ∧
       t = { s with
         mem := t.mem, marks := { s.marks with poisonWords := [] }, posted := [], cores := [], syncs := [], queues := Queues.reset, sched := Sched.reset
         coh := Coh.reset, fabric := Fabric.reset, ports := [], domain := { Domain.reset with die := s.domain.die }
         pool := { PoolSt.reset with used := s.pool.used, crcs := s.pool.crcs, genFlash := s.pool.genFlash }
         host := { s.host with hdma := [], hdmaAt := [] }, eth := { s.eth with done := [], paused := [] }
         time := { s.time with latchHi := [], latchFrac := [], badRun := 0, goodRun := 0, sinceAdmit := 0, lastCheck := extTime s, sent := [] }
         regs := t.regs, wdn := { s.wdn with boot := { boot with leaving := none }, ckpt := [] } } ∧
       reg t R.RST_CAUSE.POWER_ON.off = 16 ∧ flag t (R.ETH_CTL.EN 2) = flag s (R.ETH_CTL.EN 2) ∧ chipId t = 0 ∧ selfState t = 0 ∧
       flag t R.WDN_STAT.RUNNING = flag s R.WDN_STAT.RUNNING ∧ fld t R.PWR_STATE.STATE = fld s R.PWR_STATE.STATE ∧
       extTime t = extTime s ∧ (∀ x, tileAddr 0 0 ≤ x → x < tileAddr 96 0 → memRead t.mem x = 0) ∧
       ∀ x, x < lp5xEnd ∨ (flashAddr 0 0 ≤ x ∧ x < flashAddr 2 0) → memRead t.mem x = memRead s.mem x) ∧
     (s.events.length < 256 → (∃ t, exec .refclkLoss s = .next t ∧ ClocksStopped s t false) ∧ ∃ t, exec .pllLockLoss s = .next t ∧ ClocksStopped s t true) ∧
     (let stays := flag s R.CLK_STAT.PLL_LOCK = true ∨ boot.power = false ∨ boot.dormant = true
      (stays → ∀ err, exec (.refclkReturn err) s = .next s) ∧
      (¬ stays → selfState s = 0 → ∀ err, ∃ t, exec (.refclkReturn err) s = .next t ∧ WarmStarted s t 4 none err)) ∧
     (let other := if fld s R.WDN_STAT.IMAGE = 0 then fld s R.BOOT_STAT.FAIL_B else fld s R.BOOT_STAT.FAIL_A
      (attempts < 3 → ∀ err, exec (.bootFallback err) s = .next s) ∧
      (3 ≤ attempts → selfState s = 0 → other ≠ 6 → ∀ err, ∃ t, exec (.bootFallback err) s = .next t ∧
        WarmStarted s t 8 (some (fld s R.WDN_STAT.IMAGE)) err ∧ fld t R.BOOT_STAT.BOOT_ATTEMPTS = 0) ∧
      (3 ≤ attempts → selfState s = 0 → other = 6 → ∀ err, ∃ t, exec (.bootFallback err) s = .next t ∧ Cleared s t ∧ Clocked t 8 ∧ t.wdn.boot.rom = true ∧
        fld t R.BOOT_STAT.FAIL_A = 6 ∧ fld t R.BOOT_STAT.FAIL_B = 6 ∧ flag t R.WDN_STAT.RUNNING = false ∧ fld t R.BOOT_STAT.BOOT_ATTEMPTS = 0)) ∧
     (let woken (t : State) (err : Nat) : Prop := Clocked t (32 + if boot.brownout then 64 else 0) ∧ Booted s t none err ∧ t.wdn.boot.dormant = false ∧
        t.wdn.boot.brownout = false ∧ t.wdn.boot.exitAt = extTime s
      let asleep := boot.dormant = true ∧ flag s R.PWR_STATE.PWRFAIL = false
      let plain := flag s R.WDN_STAT.RUNNING = false ∧ flag s R.CKPT_STAT.COMPLETE = false
      (∀ ns err, (ns < 1000 ∨ ¬ asleep → exec (.wakeN ns err) s = .next s) ∧
        (1000 ≤ ns → asleep → plain → ∃ t, exec (.wakeN ns err) s = .next t ∧ woken t err)) ∧
      (∀ at_ err, (let due := boot.brownout = true ∧ ∃ g, s.guard.goodSince = some g ∧ g + 1000 * fld s R.PWR_WAKE.RESTART_MS ≤ at_
        (¬ due ∨ ¬ asleep → exec (.brownoutRestart at_ err) s = .next s) ∧
        (due → asleep → plain → ∃ t, exec (.brownoutRestart at_ err) s = .next t ∧ woken t err)))) ∧
     (∀ after, (let s' := advance s after
       let now := extTime s'
       let img := fld s' R.WDN_STAT.IMAGE
       let floorOf (i : Nat) : Nat := fieldLE (memBytes s (flashAddr i 0x100000) 16) 0xC 4
       let runs := flag s' R.WDN_STAT.RUNNING = true
       let raises := runs ∧ s'.wdn.boot.recovery = false ∧ s'.wdn.boot.cleanSince + 86400000000000 ≤ now ∧ s'.wdn.otp.badFloor = false ∧ s'.wdn.otp.floor < floorOf img ∧
         floorOf img ≤ 64 ∧ floorOf img ≤ floorOf (1 - img)
       (now < s'.wdn.boot.exitAt + 600000000000 → exec (.checkpointExpiry after) s = .next s') ∧
       (s'.wdn.boot.exitAt + 600000000000 ≤ now → ∃ t, exec (.checkpointExpiry after) s = .next t ∧
         t = { s' with regs := t.regs, wdn := { s'.wdn with ckpt := [] } } ∧ RegsBut [R.CKPT_STAT.VALID.off] s' t ∧ fld t R.CKPT_STAT.VALID = 0 ∧
         flag t R.CKPT_STAT.COMPLETE = flag s' R.CKPT_STAT.COMPLETE) ∧
       (runs ∧ s'.wdn.boot.at_ + 60000000000 ≤ now → ∃ t, exec (.bootAttemptsClear after) s = .next t ∧ t = { s' with regs := t.regs } ∧
         RegsBut [R.BOOT_STAT.BOOT_ATTEMPTS.off] s' t ∧ reg t R.BOOT_STAT.BOOT_ATTEMPTS.off = reg s' R.BOOT_STAT.BOOT_ATTEMPTS.off % 2 ^ 24) ∧
       (¬ (runs ∧ s'.wdn.boot.at_ + 60000000000 ≤ now) → exec (.bootAttemptsClear after) s = .next s') ∧
       (¬ raises → exec (.rollbackRaise after) s = .next s') ∧
       (raises → ∃ t, exec (.rollbackRaise after) s = .next t ∧
         t = { s' with regs := t.regs, wdn := { s'.wdn with otp := { s'.wdn.otp with floor := floorOf img } } } ∧
         RegsBut [R.BOOT_STAT.ROLLBACK.off] s' t ∧ fld t R.BOOT_STAT.ROLLBACK = floorOf img))))

namespace Sys2Proof.Machine

/-! ### Test, debug and health (R99, R559 to R579) -/

/-- The code that a TAP instruction has: SCAN_MODE and DEBUG outside their scope, RECOVER outside the boot ROM, and unlisted codes are BYPASS (R564, R566, R567). -/
def wantTap (s : State) (code : Nat) : Nat :=
  let sc := s.wdn.tap.scope
  if code ≤ 6 ∨ code = 0x10 ∨ (code = 0x11 ∧ s.wdn.boot.rom = true ∧ s.wdn.boot.power = true) ∨ (code = 0x20 ∧ bitOf sc 2 = true) ∨
      (code = 0x21 ∧ (bitOf sc 0 = true ∨ bitOf sc 1 = true)) then code else 0xFF

/-- The instruction in the TAP neither drives the pins nor stands for a mode that ends when it is replaced. -/
def TapQuiet (s : State) : Prop := s.wdn.tap.ir = 1 ∨ s.wdn.tap.ir = 2 ∨ s.wdn.tap.ir = 0x10 ∨ s.wdn.tap.ir = 0x21 ∨ s.wdn.tap.ir = 0xFF

/-- No interface is up, so that none stops. -/
def LinksIdle (s : State) : Prop :=
  (∀ p, p < 3 → flag s (R.ETH_STAT.LINK p) = false) ∧ (∀ p, p < 8 → portState s p = 0) ∧ flag s R.JRX_STAT.LINK_UP = false ∧
    flag s R.JRX_STAT.EMB_LOCK = false ∧ flag s R.HIF_STAT.LINK_UP = false ∧ fld s R.HIF_STAT.SPEED = 0 ∧ fld s R.HIF_STAT.WIDTH = 0 ∧ s.host.hdma = []

/-- The test port has changed, and what it shifts out has left. -/
def Tapped (s t : State) (x : TapSt) (o : List Out) : Prop :=
  (∀ off, reg t off = reg s off) ∧ t = { s with regs := t.regs, out := o ++ s.out, wdn := { s.wdn with tap := x } }

end Sys2Proof.Machine

/-- A TAP instruction is loaded as its code says, and its data register acts: EXTEST, SAMPLE/PRELOAD, IDCODE, CLAMP, HIGHZ, EXTEST_PULSE, EXTEST_TRAIN, MBOX
(a word of pair 14 or 15, while Warden runs firmware), RECOVER, SCAN_MODE, DEBUG and BYPASS. Replacing one that drives the pins or SCAN_MODE performs a warm
reset. PRBS_LOCK and PRBS_LOCK_LOSS count on a lane of a running checker. HOLDUP_TEST sets C_LOW, ESR and EG_HOLDUP; HEALTH_RECORD keeps one record a day;
HEALTH_FIT sets the prediction (R99, R472, R534, R559, R564 to R573, R575). -/
def Obligations.TestAndHealth : Prop :=
  ∀ (s : State), s.Inv →
    (let tap := s.wdn.tap
     let run := flag s R.WDN_STAT.RUNNING
     (TapQuiet s →
       (let pins (code : Nat) (row : Instr) (x : TapSt) (o : Out) : Prop := LinksIdle s → ∃ t, exec row s = .next t ∧ Tapped s t { x with ir := code } [o]
        (∀ d, pins 0 (.extest d) { tap with boundary := d } ⟨.jtag, [0], d⟩ ∧ pins 5 (.extestPulse d) { tap with boundary := d } ⟨.jtag, [5], d⟩ ∧
          pins 6 (.extestTrain d) { tap with boundary := d } ⟨.jtag, [6], d⟩) ∧
        pins 3 .clamp tap ⟨.jtag, [3], tap.boundary⟩ ∧ pins 4 .highz tap ⟨.jtag, [4], []⟩ ∧
        (∀ sampled preload, exec (.samplePreload sampled preload) s = .next { s with
          out := ⟨.jtag, [1], sampled⟩ :: s.out, wdn := { s.wdn with tap := { tap with ir := 1, boundary := preload } } }) ∧
        exec .idcode s = .next { s with
          out := ⟨.jtag, [2, 0x10096239], []⟩ :: s.out
          wdn := { s.wdn with tap := { tap with ir := 2, dr := if tap.ir = 2 then tap.dr else 0x10096239 } } } ∧
        exec .bypass s = .next { s with wdn := { s.wdn with tap := { tap with ir := 0xFF } } } ∧
        exec .scanMode s = .next { s with wdn := { s.wdn with tap := { tap with ir := wantTap s 0x20 } } } ∧
        (∀ code, wantTap s code ≠ 2 → ¬ (wantTap s code = 0 ∨ (3 ≤ wantTap s code ∧ wantTap s code ≤ 6)) →
          exec (.tapInstructionReplaced code) s = .next { s with wdn := { s.wdn with tap := { tap with ir := wantTap s code } } }) ∧
        (∀ v : BitVec 32, exec (.recover v.toNat) s = .next (if wantTap s 0x11 = 0x11 then
            { s with wdn := { s.wdn with tap := { tap with ir := 0x11, sram := tap.sram ++ bytesLE 4 v.toNat } } }
          else { s with wdn := { s.wdn with tap := { tap with ir := 0xFF } } })) ∧
        (∀ write pair15 word (v : BitVec 32),
          (let key := if pair15 then 15 else 14
           let x := mail s key
           let o := 4 * word
           let tapped : State := { s with wdn := { s.wdn with tap := { tap with ir := 0x10 } } }
           let row := exec (.jtagMbox write pair15 word v.toNat) s
           (run = false ∨ 519 < word → row = .next tapped) ∧
           (run = true → word ≤ 519 → write = false →
             row = .next { s with wdn := { s.wdn with tap := { tap with ir := 0x10, read := mboxWord s key o, dr := mboxWord s key o } } }) ∧
           (run = true → write = true → o < 0x200 → row = .next (withMail tapped key { x with
             req := tabSet x.req (o / 64) (putBytes (sliceBytes (tabGet x.req (o / 64) []) 0 64) (o % 64) (bytesLE 4 v.toNat)) })) ∧
           (run = true → write = true → o = 0x800 → row = .next (withMail tapped key { x with reqTail := v.toNat % 2 ^ 16 })) ∧
           (run = true → write = true → o = 0x80C → row = .next (withMail tapped key { x with rspHead := v.toNat % 2 ^ 16 })) ∧
           (run = true → write = true → o = 0x814 → row = .next (withMail tapped key { x with ntcHead := v.toNat % 2 ^ 16 })) ∧
           (run = true → write = true → (0x200 ≤ o ∧ o < 0x800 ∨ o = 0x804 ∨ o = 0x808 ∨ o = 0x810 ∨ o = 0x818) → row = .next tapped))) ∧
        (let open_ := wantTap s 0x21 = 0x21
         let loaded : State := { s with wdn := { s.wdn with tap := { tap with ir := wantTap s 0x21 } } }
         exec (.tapDebug .select) s = .next loaded ∧
         (∀ c, c < 96 →
           (let k := core s c
            let acts (op : Sys2Proof.DebugOp) (k' : Core) : Prop := ∃ t, exec (.tapDebug op) s = .next t ∧ t = { loaded with cores := t.cores } ∧ CoreIs s t c k'
            (open_ → bitOf tap.scope 0 = true → (k.run = .running → acts (.halt c) { k with run := .debug }) ∧
              (k.run = .debug → acts (.resume c) { k with run := .running })) ∧
            (¬ open_ ∨ bitOf tap.scope 0 = false → exec (.tapDebug (.halt c)) s = .next loaded ∧ exec (.tapDebug (.resume c)) s = .next loaded ∧
              exec (.tapDebug (.breakpoint c)) s = .next loaded)))))) ∧
     (∀ code, tap.ir = 0 ∨ (3 ≤ tap.ir ∧ tap.ir ≤ 6) ∨ tap.ir = 0x20 → s.wdn.boot.power = true ∨ tap.ir = 0x20 → wantTap s code = 0xFF ∨ wantTap s code = 1 →
       (let lost : State := { s with mem := s.mem.filter (fun x => decide (tap.ir ≠ 0x20 ∨ lp5xEnd ≤ x.1)) }
        ∃ t, exec (.tapInstructionReplaced code) s = .next t ∧ WarmStarted lost t 2 none 0 ∧ t.wdn.tap = { tap with ir := wantTap s code, scope := 0, sram := [] })) ∧
     (∀ link port lane, link < 5 → (port < if link = 1 then 3 else if link = 4 then 8 else 1) → (lane < if link = 1 then 1 else if link = 4 then 4 else 8) →
       (let named (x : Prbs) : Bool := x.link = link && x.port = port
        ((∀ x, x ∈ s.wdn.prbs → named x = false) → (∀ bits errs, exec (.prbsLock link port lane bits errs) s = .next s) ∧
          exec (.prbsLockLoss link port lane) s = .next s) ∧
        (∀ x before after, s.wdn.prbs = before ++ [x] ++ after → named x = true → (∀ y, y ∈ before ∨ y ∈ after → named y = false) →
          (let with_ (y : Prbs) : State := { s with wdn := { s.wdn with prbs := before ++ after ++ [y] } }
           (∀ bits errs, (x.chk = true → bitOf x.lanes lane = true → exec (.prbsLock link port lane bits errs) s = .next (with_ { x with
               lock := x.lock ||| 2 ^ lane, bits := (x.bits + bits) % 2 ^ 64
               errs := tabSet x.errs lane (min (2 ^ 32 - 1) (tabGet x.errs lane 0 + errs)) })) ∧
             (x.chk = false ∨ bitOf x.lanes lane = false → exec (.prbsLock link port lane bits errs) s = .next s)) ∧
           (bitOf x.lock lane = true → exec (.prbsLockLoss link port lane) s = .next (with_ { x with
             lock := x.lock - 2 ^ lane, losses := (x.losses + 1) % 2 ^ 32 })) ∧
           (bitOf x.lock lane = false → exec (.prbsLockLoss link port lane) s = .next s))))) ∧
     (∀ i step fall se early steady,
       (let may := run = true ∧ fld s R.PWR_STATE.STATE < 3 ∧ 4000 ≤ s.guard.vin ∧ s.guard.closed = true ∧ flag s R.PWR_STATE.PWRFAIL = false ∧
          steady = true ∧ early = false ∧ i ≠ 0 ∧ fall ≠ 0
        let esr := 1000 * step / i
        let low := (1800 * i / fall - 3 * se) * 98 / 100
        let h := s.wdn.health
        let due := low < 5517 ∧ ∀ a, h.noticeAt = some a → a + 3600000000000 ≤ extTime s
        (¬ may → exec (.holdupTest i step fall se early steady) s = .next s) ∧
        (may → Unheard s 6 → s.events.length < 256 → ∃ t, exec (.holdupTest i step fall se early steady) s = .next t ∧
          t = { s with regs := t.regs, events := t.events, wdn := { s.wdn with health := { h with
            now_ := (h.now_.set 4 esr).set 5 low, testAt := some (extTime s), noticeAt := t.wdn.health.noticeAt } } } ∧
          RegsBut [R.HOLDUP_C.C_LOW.off, R.HOLDUP_AGE.VALID.off, R.EG_HOLDUP.val.off] s t ∧
          fld t R.HOLDUP_C.C_LOW = min 65535 low ∧ fld t R.HOLDUP_C.ESR = min 65535 esr ∧ fld t R.EG_HOLDUP.val = min 65535 (145 * low / 100) ∧
          flag t R.HOLDUP_AGE.VALID = true ∧ Reported s t 0x0705 0x7F [low, esr] ∧
          (due → t.wdn.health.noticeAt = some (extTime s)) ∧ (¬ due → t.wdn.health.noticeAt = h.noticeAt)))) ∧
     (∀ day lp5x, (run = false → exec (.healthRecord day lp5x) s = .next s) ∧
       (run = true → (let h := s.wdn.health
         let v := h.now_.set 2 lp5x
         exec (.healthRecord day lp5x) s = .next { s with wdn := { s.wdn with health := { h with
           now_ := v, recs := h.recs.filter (fun x => decide (x.day ≠ day)) ++ [⟨day, v, v.getD 3 0, 1 - fld s R.WDN_STAT.IMAGE, h.pred⟩] } } }))) ∧
     (∀ (drift : List Int) eye proj, (run = false → exec (.healthFit drift eye proj) s = .next s) ∧
       (run = true → drift.length ≤ 12 → proj.length = 7 → Unheard s 6 →
         (let h := s.wdn.health
          let days := min 365 h.recs.length
          let conf := if 90 ≤ days then 90 else if 14 ≤ days then 50 else 0
          let dates (f : Nat × Nat × Nat → Nat) : List Nat := proj.map (fun x => (x.map f).getD 0xFFFFFFFF)
          let d := (dates (fun x => x.1)).foldl min 0xFFFFFFFF
          ∃ t p, exec (.healthFit drift eye proj) s = .next t ∧
            t = { s with regs := t.regs, wdn := { s.wdn with health := { h with
              now_ := (h.now_.set 0 (drift.foldl (fun m x => max m x.toNat) 0)).set 1 eye, pred := p, noticeAt := t.wdn.health.noticeAt } } } ∧
            p.conf = conf ∧ p.at_ = nowNs s ∧
            (conf ≠ 0 → p.days = d ∧ p.lo = (dates (fun x => x.2.1)).foldl min 0xFFFFFFFF ∧ p.hi = (dates (fun x => x.2.2)).foldl min 0xFFFFFFFF ∧
              (d = 0xFFFFFFFF → p.dom = 0) ∧
              (d < 0xFFFFFFFF → 1 ≤ p.dom ∧ p.dom ≤ 7 ∧ (dates (fun x => x.1)).getD (p.dom - 1) 0 = d)) ∧
            RegsBut ((List.range 12).map (fun q => (R.RO_DRIFT.val q).off)) s t ∧
            ∀ q, q < 12 → fld t (R.RO_DRIFT.val q) =
              if q < drift.length ∧ flag s (R.QCLK.GATED q) = false then wrapTo 16 (drift.getD q 0) else fld s (R.RO_DRIFT.val q)))))

namespace Sys2Proof.Machine

/-! ### The machine -/

/-- The chip at reset: no Quarter belongs to a partition, every core is held in reset with its registers zero and its PC at the RESET
vector, every queue is in MODE 0 and every object is disabled with VALUE 0, no table is enabled, the chip is SOLO with chip ID 0 and every
port DOWN, the time unit stands at 0 with its Reset rate, and the state is CAPPED at 12 000 mW. -/
structure AtReset (s : State) : Prop where
  parts : ∀ p, p < 12 → reg s (R.PART_CFG.QMASK p).off = 0
  cores : ∀ c, c < 96 → (core s c).pc = 0 ∧ (core s c).run = .inReset ∧ (core s c).delayed = [] ∧ (∀ r, (core s c).sreg r = 0) ∧
    (∀ n, tabGet (core s c).a n 0 = 0 ∧ tabGet (core s c).acc n 0 = 0) ∧ (core s c).sysWord c R.VBASE.val.off = 0 ∧
    (core s c).sysWord c R.PSTAT.IE.off = 0 ∧ (core s c).sysWord c R.CORE_ID.val.off = c
  queues : ∀ q, q < 1024 → fld s (R.QCFG.MODE q) = 0
  objects : ∀ n, n < 16384 → (syncObj s n).value = 0 ∧ (syncObj s n).en = false
  pool : fld s R.POOL_GEN.val = 0 ∧ ∀ n, n < 64 → flag s (R.TD_CTL.EN n) = false
  domain : fld s R.ADR_CHIP.ID = 0 ∧ fld s R.ADR_CHIP.SELF_STATE = 0
  ports : ∀ p, p < 8 → portState s p = 0 ∧ flag s (R.ADR_PCTL.EN p) = false
  time : nowNs s = 0 ∧ s.time.running = false ∧ fld s R.TIME_INC.INC = 68266667 ∧ fld s R.TIME_EPOCH.EPOCH = 0
  power : fld s R.PWR_STATE.STATE = 1 ∧ s.wdn.power.cap = 12000
  caches : s.coh.dir = [] ∧ s.coh.lines = []
  quiet : s.pending = [] ∧ s.out = [] ∧ s.events = []

end Sys2Proof.Machine

/-- A step takes the command at the front of the queue of waiting commands and runs it with the rest of the queue; while none waits, one
tick of CK_TIME passes (the model's choice, log entry 1). -/
def Obligations.StepRunsFrontCommand : Prop :=
  ∀ s : State,
    (∀ (c : Instr) (rest : List Instr), step { s with pending := c :: rest } = exec c { s with pending := rest }) ∧
    step { s with pending := [] } = finish (advance { s with pending := [] } 1)

/-- State.reset holds what the spec gives the chip at power-on, and meets the invariant of every step. -/
def Obligations.ResetState : Prop :=
  AtReset State.reset ∧ State.reset.Inv

/-- From every state in which memory is in canonical form and no store waits, every command, and every tick while no command waits, leaves
memory in canonical form with no store waiting. -/
def Obligations.EveryStepKeepsMemoryCanonical : Prop :=
  ∀ s t : State, s.Inv → step s = .next t → t.Inv

/-- Every Pilot and vector operation whose fields are in range has a 32-bit word that decodes to it, and every word that does not decode to
ILLEGAL decodes to an operation whose fields are in range, with no reserved value among them. -/
def Obligations.PilotOpRoundTrip : Prop :=
  (∀ op : PilotOp, op.fits = true → encodeOp op < 2 ^ 32 ∧ decodeOp (encodeOp op) = op) ∧
  ∀ w : Nat, decodeOp w = .illegal ∨ (decodeOp w).fits = true
end

