-- ==== Sys2Proof/Laws/Memory.lean ====
section
/-!
SUPPORT. Tables and memory: a read after a write, and the canonical form.
-/
namespace Sys2Proof.Machine

/-! ### Tables -/

@[simp] theorem tabFind_tabSet_same {α : Type} (t : List (Nat × α)) (x : Nat) (w : α) : tabFind (tabSet t x w) x = some w := by
  induction t with
  | nil => simp [tabSet, tabFind]
  | cons p t ih =>
    obtain ⟨k, v⟩ := p
    simp only [tabSet]
    split
    · simp [tabFind]
    · split
      · simp [tabFind]
      · rename_i h1 h2; simp [tabFind, h1, h2, ih]

theorem tabFind_tabSet_ne {α : Type} (t : List (Nat × α)) {x y : Nat} (w : α) (h : y ≠ x) :
    tabFind (tabSet t x w) y = tabFind t y := by
  induction t with
  | nil => simp [tabSet, tabFind, h]
  | cons p t ih =>
    obtain ⟨k, v⟩ := p
    simp only [tabSet]
    split
    · rename_i hx
      subst hx
      simp [tabFind, h]
    · split
      · simp only [tabFind, h, if_false]
        split
        · split
          · omega
          · split
            · rfl
            · omega
        · rfl
      · simp [tabFind, ih]

@[simp] theorem tabGet_tabSet_same {α : Type} (t : List (Nat × α)) (x : Nat) (w d : α) : tabGet (tabSet t x w) x d = w := by
  simp [tabGet]

theorem tabGet_tabSet_ne {α : Type} (t : List (Nat × α)) {x y : Nat} (w d : α) (h : y ≠ x) :
    tabGet (tabSet t x w) y d = tabGet t y d := by
  simp [tabGet, tabFind_tabSet_ne t w h]

/-! ### The canonical form of memory -/

theorem wf_iff_pairwise (m : List Host.Cell) :
    Memory.wf m = true ↔ m.Pairwise (fun p q => p.1 < q.1) ∧ ∀ p ∈ m, p.2 ≠ 0 := by
  induction m with
  | nil => simp [Memory.wf]
  | cons p t ih =>
    cases t with
    | nil => simp [Memory.wf]
    | cons q t =>
      have hc : (∀ x ∈ p :: q :: t, x.2 ≠ 0) ↔ p.2 ≠ 0 ∧ ∀ x ∈ q :: t, x.2 ≠ 0 := List.forall_mem_cons
      rw [List.pairwise_cons, hc]
      simp only [Memory.wf, Bool.and_eq_true, decide_eq_true_eq, ih]
      constructor
      · rintro ⟨⟨h1, h2⟩, h3, h4⟩
        refine ⟨⟨?_, h3⟩, h1, h4⟩
        intro x hx
        rcases List.mem_cons.1 hx with rfl | hx
        · exact h2
        · exact Nat.lt_trans h2 ((List.pairwise_cons.1 h3).1 x hx)
      · rintro ⟨⟨h1, h3⟩, h2, h4⟩
        exact ⟨⟨h2, h1 q (by simp)⟩, h3, h4⟩

theorem mem_of_tabSet {α : Type} {t : List (Nat × α)} {x : Nat} {w : α} {p : Nat × α} (h : p ∈ tabSet t x w) : p = (x, w) ∨ p ∈ t := by
  induction t with
  | nil => simpa [tabSet] using h
  | cons q t ih =>
    obtain ⟨k, v⟩ := q
    simp only [tabSet] at h
    split at h
    · rcases List.mem_cons.1 h with h | h
      · exact .inl h
      · exact .inr (List.mem_cons_of_mem _ h)
    · split at h
      · rcases List.mem_cons.1 h with h | h
        · exact .inl h
        · exact .inr h
      · rcases List.mem_cons.1 h with h | h
        · exact .inr (by simp [h])
        · rcases ih h with h | h
          · exact .inl h
          · exact .inr (List.mem_cons_of_mem _ h)

theorem tabSet_sorted {α : Type} (t : List (Nat × α)) (x : Nat) (w : α) (h : t.Pairwise (fun p q => p.1 < q.1)) :
    (tabSet t x w).Pairwise (fun p q => p.1 < q.1) := by
  induction t with
  | nil => simp [tabSet]
  | cons q t ih =>
    obtain ⟨k, v⟩ := q
    rw [List.pairwise_cons] at h
    simp only [tabSet]
    split
    · rename_i hx
      exact List.pairwise_cons.2 ⟨fun p hp => by rw [hx]; exact h.1 p hp, h.2⟩
    · split
      · rename_i hx
        refine List.pairwise_cons.2 ⟨fun p hp => ?_, List.pairwise_cons.2 h⟩
        rcases List.mem_cons.1 hp with rfl | hp
        · exact hx
        · exact Nat.lt_trans hx (h.1 p hp)
      · refine List.pairwise_cons.2 ⟨fun p hp => ?_, ih h.2⟩
        rcases mem_of_tabSet hp with rfl | hp
        · show k < x; omega
        · exact h.1 p hp

theorem memWrite_wf (m : List Host.Cell) (a : Nat) (b : Byte) (h : Memory.wf m = true) : Memory.wf (memWrite m a b) = true := by
  rw [wf_iff_pairwise] at h ⊢
  unfold memWrite
  split
  · exact ⟨h.1.sublist List.filter_sublist, fun p hp => h.2 p (List.mem_filter.1 hp).1⟩
  · rename_i hb
    refine ⟨tabSet_sorted _ _ _ h.1, fun p hp => ?_⟩
    rcases mem_of_tabSet hp with rfl | hp
    · exact hb
    · exact h.2 p hp

theorem memApply_wf (w : List (Nat × Byte)) (m : List Host.Cell) (h : Memory.wf m = true) : Memory.wf (memApply w m) = true := by
  induction w with
  | nil => exact h
  | cons p t ih => exact memWrite_wf _ _ _ ih

/-- Memory in canonical form is what its own cells, stored into empty memory, give. -/
theorem memApply_self (m : List Host.Cell) (h : Memory.wf m = true) : memApply m [] = m := by
  induction m with
  | nil => rfl
  | cons p t ih =>
    rw [wf_iff_pairwise, List.pairwise_cons] at h
    have ht : memApply t [] = t := ih ((wf_iff_pairwise t).2 ⟨h.1.2, fun q hq => h.2 q (List.mem_cons_of_mem _ hq)⟩)
    show memWrite (memApply t []) p.1 p.2 = p :: t
    rw [ht]
    have hp : p.2 ≠ 0 := h.2 p (by simp)
    unfold memWrite
    rw [if_neg hp]
    cases t with
    | nil => rfl
    | cons q t =>
      have hq := h.1.1 q (by simp)
      obtain ⟨k, v⟩ := q
      simp only [tabSet]
      rw [if_neg (by simp at hq; omega), if_pos (by simpa using hq)]

theorem memApply_append (w v : List (Nat × Byte)) (m : List Host.Cell) : memApply (w ++ v) m = memApply w (memApply v m) :=
  List.foldr_append

theorem eraseRange_wf (s : State) (a n : Nat) (h : Memory.wf s.mem = true) : Memory.wf (eraseRange s a n).mem = true := by
  rw [wf_iff_pairwise] at h ⊢
  exact ⟨h.1.sublist List.filter_sublist, fun p hp => h.2 p (List.mem_filter.1 hp).1⟩

/-! ### Reading after writing -/

theorem memRead_memWrite_same (m : List Host.Cell) (a : Nat) (b : Byte) : memRead (memWrite m a b) a = b := by
  unfold memRead memWrite
  split
  · rename_i hb
    have hn : ∀ t : List Host.Cell, tabFind (tabErase t a) a = none := by
      intro t
      induction t with
      | nil => rfl
      | cons p t ih =>
        obtain ⟨k, v⟩ := p
        by_cases hk : k = a
        · simpa [tabErase, hk] using ih
        · have : tabErase ((k, v) :: t) a = (k, v) :: tabErase t a := by simp [tabErase, hk]
          rw [this]
          simp only [tabFind]
          rw [if_neg (fun h => hk h.symm)]
          split
          · rfl
          · exact ih
    simp [tabGet, hn, hb]
  · simp

theorem tabFind_below {α : Type} {t : List (Nat × α)} {y : Nat} (h : ∀ p ∈ t, y < p.1) : tabFind t y = none := by
  cases t with
  | nil => rfl
  | cons p t =>
    obtain ⟨k, v⟩ := p
    have := h (k, v) (by simp)
    simp only [tabFind]
    rw [if_neg (by simp at this; omega), if_pos (by simpa using this)]

theorem memRead_memWrite_ne (m : List Host.Cell) {a y : Nat} (b : Byte) (hw : Memory.wf m = true) (h : y ≠ a) :
    memRead (memWrite m a b) y = memRead m y := by
  unfold memRead memWrite
  split
  · have hs := ((wf_iff_pairwise m).1 hw).1
    have : ∀ t : List Host.Cell, t.Pairwise (fun p q => p.1 < q.1) → tabFind (tabErase t a) y = tabFind t y := by
      intro t
      induction t with
      | nil => intro _; rfl
      | cons p t ih =>
        obtain ⟨k, v⟩ := p
        intro hp
        rw [List.pairwise_cons] at hp
        by_cases hk : k = a
        · have : tabErase ((k, v) :: t) a = tabErase t a := by simp [tabErase, hk]
          rw [this, ih hp.2]
          simp only [tabFind]
          rw [if_neg (by omega)]
          split
          · exact tabFind_below (fun q hq => Nat.lt_trans ‹y < k› (hp.1 q hq))
          · rfl
        · have : tabErase ((k, v) :: t) a = (k, v) :: tabErase t a := by simp [tabErase, hk]
          rw [this]
          simp only [tabFind, ih hp.2]
    simp [tabGet, this m hs]
  · exact tabGet_tabSet_ne _ _ _ h

/-- After a list of stores a byte reads as its newest store, or as before where none names it. -/
theorem memRead_memApply (w : List (Nat × Byte)) (m : List Host.Cell) (a : Nat) (hw : Memory.wf m = true) :
    memRead (memApply w m) a = (storeFind w a).getD (memRead m a) := by
  induction w with
  | nil => rfl
  | cons p t ih =>
    obtain ⟨k, v⟩ := p
    show memRead (memWrite (memApply t m) k v) a = _
    simp only [storeFind]
    split
    · rename_i h; subst h; simp [memRead_memWrite_same]
    · rename_i h; rw [memRead_memWrite_ne _ _ (memApply_wf t m hw) h, ih]

/-! ### The end of a command -/

/-- Everything the end of a command does. -/
theorem finish_eq (s : State) : finish s = .next { s with mem := memApply (s.stores ++ s.mem) [], stores := [] } := rfl

/-- Whatever state a command ends in, the invariant holds of it. -/
theorem finish_inv {s t : State} (h : finish s = .next t) : t.Inv := by
  cases h
  exact ⟨memApply_wf _ _ rfl, rfl⟩

/-- Where memory is canonical, the end of a command applies its stores to it. -/
theorem finish_of_wf (s : State) (h : Memory.wf s.mem = true) : finish s = .next { s with mem := memApply s.stores s.mem, stores := [] } := by
  rw [finish_eq, memApply_append, memApply_self _ h]

/-- A command that stores nothing ends as it stands. -/
theorem finish_of_inv (s : State) (h : s.Inv) : finish s = .next s := by
  obtain ⟨hm, hs⟩ := h
  rw [finish_of_wf s hm, hs]
  show Host.Outcome.next { s with mem := s.mem, stores := [] } = _
  congr 1
  rw [← hs]

/-- Between steps a byte as a command sees it is the byte of memory. -/
theorem byteAt_of_inv (s : State) (h : s.Inv) (a : Nat) : byteAt s a = memRead s.mem a := by
  simp [byteAt, h.2, storeFind]

end Sys2Proof.Machine
end

