-- ==== Sys2Proof/Laws/State.lean ====
section
/-!
SUPPORT. What each update of the state leaves as it was, a lemma per update over every other field, and the fields it writes.
-/
namespace Sys2Proof.Machine

@[simp] theorem setReg_frame (s : State) (off v : Nat) :
    (setReg s off v).pending = s.pending ∧ (setReg s off v).mem = s.mem ∧ (setReg s off v).stores = s.stores ∧
    (setReg s off v).posted = s.posted ∧ (setReg s off v).marks = s.marks ∧ (setReg s off v).cores = s.cores ∧
    (setReg s off v).syncs = s.syncs ∧ (setReg s off v).queues = s.queues ∧ (setReg s off v).sched = s.sched ∧
    (setReg s off v).coh = s.coh ∧ (setReg s off v).fabric = s.fabric ∧ (setReg s off v).time = s.time ∧
    (setReg s off v).pool = s.pool ∧ (setReg s off v).radio = s.radio ∧ (setReg s off v).weave = s.weave ∧
    (setReg s off v).ports = s.ports ∧ (setReg s off v).domain = s.domain ∧ (setReg s off v).host = s.host ∧
    (setReg s off v).eth = s.eth ∧ (setReg s off v).flash = s.flash ∧ (setReg s off v).wdn = s.wdn ∧
    (setReg s off v).guard = s.guard ∧ (setReg s off v).events = s.events ∧ (setReg s off v).out = s.out ∧
    (setReg s off v).fresh = s.fresh := by
  exact ⟨rfl, rfl, rfl, rfl, rfl, rfl, rfl, rfl, rfl, rfl, rfl, rfl,
    rfl, rfl, rfl, rfl, rfl, rfl, rfl, rfl, rfl, rfl, rfl, rfl, rfl⟩

@[simp] theorem setFld_frame (s : State) (f : Fld) (v : Nat) :
    (setFld s f v).pending = s.pending ∧ (setFld s f v).mem = s.mem ∧ (setFld s f v).stores = s.stores ∧
    (setFld s f v).posted = s.posted ∧ (setFld s f v).marks = s.marks ∧ (setFld s f v).cores = s.cores ∧
    (setFld s f v).syncs = s.syncs ∧ (setFld s f v).queues = s.queues ∧ (setFld s f v).sched = s.sched ∧
    (setFld s f v).coh = s.coh ∧ (setFld s f v).fabric = s.fabric ∧ (setFld s f v).time = s.time ∧ (setFld s f v).pool = s.pool ∧
    (setFld s f v).radio = s.radio ∧ (setFld s f v).weave = s.weave ∧ (setFld s f v).ports = s.ports ∧
    (setFld s f v).domain = s.domain ∧ (setFld s f v).host = s.host ∧ (setFld s f v).eth = s.eth ∧
    (setFld s f v).flash = s.flash ∧ (setFld s f v).wdn = s.wdn ∧ (setFld s f v).guard = s.guard ∧
    (setFld s f v).events = s.events ∧ (setFld s f v).out = s.out ∧ (setFld s f v).fresh = s.fresh := by
  exact ⟨rfl, rfl, rfl, rfl, rfl, rfl, rfl, rfl, rfl, rfl, rfl, rfl,
    rfl, rfl, rfl, rfl, rfl, rfl, rfl, rfl, rfl, rfl, rfl, rfl, rfl⟩

@[simp] theorem setFlag_frame (s : State) (f : Fld) (b : Bool) :
    (setFlag s f b).pending = s.pending ∧ (setFlag s f b).mem = s.mem ∧ (setFlag s f b).stores = s.stores ∧
    (setFlag s f b).posted = s.posted ∧ (setFlag s f b).marks = s.marks ∧ (setFlag s f b).cores = s.cores ∧
    (setFlag s f b).syncs = s.syncs ∧ (setFlag s f b).queues = s.queues ∧ (setFlag s f b).sched = s.sched ∧
    (setFlag s f b).coh = s.coh ∧ (setFlag s f b).fabric = s.fabric ∧ (setFlag s f b).time = s.time ∧
    (setFlag s f b).pool = s.pool ∧ (setFlag s f b).radio = s.radio ∧ (setFlag s f b).weave = s.weave ∧
    (setFlag s f b).ports = s.ports ∧ (setFlag s f b).domain = s.domain ∧ (setFlag s f b).host = s.host ∧
    (setFlag s f b).eth = s.eth ∧ (setFlag s f b).flash = s.flash ∧ (setFlag s f b).wdn = s.wdn ∧
    (setFlag s f b).guard = s.guard ∧ (setFlag s f b).events = s.events ∧ (setFlag s f b).out = s.out ∧
    (setFlag s f b).fresh = s.fresh := by
  exact ⟨rfl, rfl, rfl, rfl, rfl, rfl, rfl, rfl, rfl, rfl, rfl, rfl,
    rfl, rfl, rfl, rfl, rfl, rfl, rfl, rfl, rfl, rfl, rfl, rfl, rfl⟩

@[simp] theorem bump_frame (s : State) (f : Fld) :
    (bump s f).pending = s.pending ∧ (bump s f).mem = s.mem ∧ (bump s f).stores = s.stores ∧ (bump s f).posted = s.posted ∧
    (bump s f).marks = s.marks ∧ (bump s f).cores = s.cores ∧ (bump s f).syncs = s.syncs ∧ (bump s f).queues = s.queues ∧
    (bump s f).sched = s.sched ∧ (bump s f).coh = s.coh ∧ (bump s f).fabric = s.fabric ∧ (bump s f).time = s.time ∧
    (bump s f).pool = s.pool ∧ (bump s f).radio = s.radio ∧ (bump s f).weave = s.weave ∧ (bump s f).ports = s.ports ∧
    (bump s f).domain = s.domain ∧ (bump s f).host = s.host ∧ (bump s f).eth = s.eth ∧ (bump s f).flash = s.flash ∧
    (bump s f).wdn = s.wdn ∧ (bump s f).guard = s.guard ∧ (bump s f).events = s.events ∧ (bump s f).out = s.out ∧
    (bump s f).fresh = s.fresh := by
  exact ⟨rfl, rfl, rfl, rfl, rfl, rfl, rfl, rfl, rfl, rfl, rfl, rfl,
    rfl, rfl, rfl, rfl, rfl, rfl, rfl, rfl, rfl, rfl, rfl, rfl, rfl⟩

@[simp] theorem bumpSat_frame (s : State) (f : Fld) :
    (bumpSat s f).pending = s.pending ∧ (bumpSat s f).mem = s.mem ∧ (bumpSat s f).stores = s.stores ∧
    (bumpSat s f).posted = s.posted ∧ (bumpSat s f).marks = s.marks ∧ (bumpSat s f).cores = s.cores ∧
    (bumpSat s f).syncs = s.syncs ∧ (bumpSat s f).queues = s.queues ∧ (bumpSat s f).sched = s.sched ∧ (bumpSat s f).coh = s.coh ∧
    (bumpSat s f).fabric = s.fabric ∧ (bumpSat s f).time = s.time ∧ (bumpSat s f).pool = s.pool ∧ (bumpSat s f).radio = s.radio ∧
    (bumpSat s f).weave = s.weave ∧ (bumpSat s f).ports = s.ports ∧ (bumpSat s f).domain = s.domain ∧
    (bumpSat s f).host = s.host ∧ (bumpSat s f).eth = s.eth ∧ (bumpSat s f).flash = s.flash ∧ (bumpSat s f).wdn = s.wdn ∧
    (bumpSat s f).guard = s.guard ∧ (bumpSat s f).events = s.events ∧ (bumpSat s f).out = s.out ∧ (bumpSat s f).fresh = s.fresh := by
  exact ⟨rfl, rfl, rfl, rfl, rfl, rfl, rfl, rfl, rfl, rfl, rfl, rfl,
    rfl, rfl, rfl, rfl, rfl, rfl, rfl, rfl, rfl, rfl, rfl, rfl, rfl⟩

@[simp] theorem setCore_frame (s : State) (c : Nat) (k : Core) :
    (setCore s c k).pending = s.pending ∧ (setCore s c k).mem = s.mem ∧ (setCore s c k).stores = s.stores ∧
    (setCore s c k).posted = s.posted ∧ (setCore s c k).marks = s.marks ∧ (setCore s c k).regs = s.regs ∧
    (setCore s c k).syncs = s.syncs ∧ (setCore s c k).queues = s.queues ∧ (setCore s c k).sched = s.sched ∧
    (setCore s c k).coh = s.coh ∧ (setCore s c k).fabric = s.fabric ∧ (setCore s c k).time = s.time ∧
    (setCore s c k).pool = s.pool ∧ (setCore s c k).radio = s.radio ∧ (setCore s c k).weave = s.weave ∧
    (setCore s c k).ports = s.ports ∧ (setCore s c k).domain = s.domain ∧ (setCore s c k).host = s.host ∧
    (setCore s c k).eth = s.eth ∧ (setCore s c k).flash = s.flash ∧ (setCore s c k).wdn = s.wdn ∧
    (setCore s c k).guard = s.guard ∧ (setCore s c k).events = s.events ∧ (setCore s c k).out = s.out ∧
    (setCore s c k).fresh = s.fresh := by
  exact ⟨rfl, rfl, rfl, rfl, rfl, rfl, rfl, rfl, rfl, rfl, rfl, rfl,
    rfl, rfl, rfl, rfl, rfl, rfl, rfl, rfl, rfl, rfl, rfl, rfl, rfl⟩

@[simp] theorem onCore_frame (s : State) (c : Nat) (g : Core → Core) :
    (onCore s c g).pending = s.pending ∧ (onCore s c g).mem = s.mem ∧ (onCore s c g).stores = s.stores ∧
    (onCore s c g).posted = s.posted ∧ (onCore s c g).marks = s.marks ∧ (onCore s c g).regs = s.regs ∧
    (onCore s c g).syncs = s.syncs ∧ (onCore s c g).queues = s.queues ∧ (onCore s c g).sched = s.sched ∧
    (onCore s c g).coh = s.coh ∧ (onCore s c g).fabric = s.fabric ∧ (onCore s c g).time = s.time ∧ (onCore s c g).pool = s.pool ∧
    (onCore s c g).radio = s.radio ∧ (onCore s c g).weave = s.weave ∧ (onCore s c g).ports = s.ports ∧
    (onCore s c g).domain = s.domain ∧ (onCore s c g).host = s.host ∧ (onCore s c g).eth = s.eth ∧
    (onCore s c g).flash = s.flash ∧ (onCore s c g).wdn = s.wdn ∧ (onCore s c g).guard = s.guard ∧
    (onCore s c g).events = s.events ∧ (onCore s c g).out = s.out ∧ (onCore s c g).fresh = s.fresh := by
  exact ⟨rfl, rfl, rfl, rfl, rfl, rfl, rfl, rfl, rfl, rfl, rfl, rfl,
    rfl, rfl, rfl, rfl, rfl, rfl, rfl, rfl, rfl, rfl, rfl, rfl, rfl⟩

@[simp] theorem raiseIrq_frame (s : State) (c code : Nat) :
    (raiseIrq s c code).pending = s.pending ∧ (raiseIrq s c code).mem = s.mem ∧ (raiseIrq s c code).stores = s.stores ∧
    (raiseIrq s c code).posted = s.posted ∧ (raiseIrq s c code).marks = s.marks ∧ (raiseIrq s c code).regs = s.regs ∧
    (raiseIrq s c code).syncs = s.syncs ∧ (raiseIrq s c code).queues = s.queues ∧ (raiseIrq s c code).sched = s.sched ∧
    (raiseIrq s c code).coh = s.coh ∧ (raiseIrq s c code).fabric = s.fabric ∧ (raiseIrq s c code).time = s.time ∧
    (raiseIrq s c code).pool = s.pool ∧ (raiseIrq s c code).radio = s.radio ∧ (raiseIrq s c code).weave = s.weave ∧
    (raiseIrq s c code).ports = s.ports ∧ (raiseIrq s c code).domain = s.domain ∧ (raiseIrq s c code).host = s.host ∧
    (raiseIrq s c code).eth = s.eth ∧ (raiseIrq s c code).flash = s.flash ∧ (raiseIrq s c code).wdn = s.wdn ∧
    (raiseIrq s c code).guard = s.guard ∧ (raiseIrq s c code).events = s.events ∧ (raiseIrq s c code).out = s.out ∧
    (raiseIrq s c code).fresh = s.fresh := by
  exact ⟨rfl, rfl, rfl, rfl, rfl, rfl, rfl, rfl, rfl, rfl, rfl, rfl,
    rfl, rfl, rfl, rfl, rfl, rfl, rfl, rfl, rfl, rfl, rfl, rfl, rfl⟩

@[simp] theorem tickFresh_frame (s : State) :
    (tickFresh s).pending = s.pending ∧ (tickFresh s).mem = s.mem ∧ (tickFresh s).stores = s.stores ∧
    (tickFresh s).posted = s.posted ∧ (tickFresh s).marks = s.marks ∧ (tickFresh s).regs = s.regs ∧
    (tickFresh s).cores = s.cores ∧ (tickFresh s).syncs = s.syncs ∧ (tickFresh s).queues = s.queues ∧
    (tickFresh s).sched = s.sched ∧ (tickFresh s).coh = s.coh ∧ (tickFresh s).fabric = s.fabric ∧ (tickFresh s).time = s.time ∧
    (tickFresh s).pool = s.pool ∧ (tickFresh s).radio = s.radio ∧ (tickFresh s).weave = s.weave ∧ (tickFresh s).ports = s.ports ∧
    (tickFresh s).domain = s.domain ∧ (tickFresh s).host = s.host ∧ (tickFresh s).eth = s.eth ∧ (tickFresh s).flash = s.flash ∧
    (tickFresh s).wdn = s.wdn ∧ (tickFresh s).guard = s.guard ∧ (tickFresh s).events = s.events ∧ (tickFresh s).out = s.out := by
  exact ⟨rfl, rfl, rfl, rfl, rfl, rfl, rfl, rfl, rfl, rfl, rfl, rfl,
    rfl, rfl, rfl, rfl, rfl, rfl, rfl, rfl, rfl, rfl, rfl, rfl, rfl⟩

@[simp] theorem emit_frame (s : State) (k : OutKind) (args : List Nat) (data : List Byte) :
    (emit s k args data).pending = s.pending ∧ (emit s k args data).mem = s.mem ∧ (emit s k args data).stores = s.stores ∧
    (emit s k args data).posted = s.posted ∧ (emit s k args data).marks = s.marks ∧ (emit s k args data).regs = s.regs ∧
    (emit s k args data).cores = s.cores ∧ (emit s k args data).syncs = s.syncs ∧ (emit s k args data).queues = s.queues ∧
    (emit s k args data).sched = s.sched ∧ (emit s k args data).coh = s.coh ∧ (emit s k args data).fabric = s.fabric ∧
    (emit s k args data).time = s.time ∧ (emit s k args data).pool = s.pool ∧ (emit s k args data).radio = s.radio ∧
    (emit s k args data).weave = s.weave ∧ (emit s k args data).ports = s.ports ∧ (emit s k args data).domain = s.domain ∧
    (emit s k args data).host = s.host ∧ (emit s k args data).eth = s.eth ∧ (emit s k args data).flash = s.flash ∧
    (emit s k args data).wdn = s.wdn ∧ (emit s k args data).guard = s.guard ∧ (emit s k args data).events = s.events ∧
    (emit s k args data).fresh = s.fresh := by
  exact ⟨rfl, rfl, rfl, rfl, rfl, rfl, rfl, rfl, rfl, rfl, rfl, rfl,
    rfl, rfl, rfl, rfl, rfl, rfl, rfl, rfl, rfl, rfl, rfl, rfl, rfl⟩

@[simp] theorem report_frame (s : State) (code agent : Nat) (args : List Nat) :
    (report s code agent args).pending = s.pending ∧ (report s code agent args).mem = s.mem ∧
    (report s code agent args).stores = s.stores ∧ (report s code agent args).posted = s.posted ∧
    (report s code agent args).marks = s.marks ∧ (report s code agent args).cores = s.cores ∧
    (report s code agent args).syncs = s.syncs ∧ (report s code agent args).queues = s.queues ∧
    (report s code agent args).sched = s.sched ∧ (report s code agent args).coh = s.coh ∧
    (report s code agent args).fabric = s.fabric ∧ (report s code agent args).time = s.time ∧
    (report s code agent args).pool = s.pool ∧ (report s code agent args).radio = s.radio ∧
    (report s code agent args).weave = s.weave ∧ (report s code agent args).ports = s.ports ∧
    (report s code agent args).domain = s.domain ∧ (report s code agent args).host = s.host ∧
    (report s code agent args).eth = s.eth ∧ (report s code agent args).flash = s.flash ∧ (report s code agent args).wdn = s.wdn ∧
    (report s code agent args).guard = s.guard ∧ (report s code agent args).out = s.out ∧
    (report s code agent args).fresh = s.fresh := by
  unfold report
  split <;> simp

@[simp] theorem sendPkt_frame (s : State) (dst ptype agent ga : Nat) (inl data : List Byte) :
    (sendPkt s dst ptype agent ga inl data).pending = s.pending ∧ (sendPkt s dst ptype agent ga inl data).mem = s.mem ∧
    (sendPkt s dst ptype agent ga inl data).stores = s.stores ∧ (sendPkt s dst ptype agent ga inl data).posted = s.posted ∧
    (sendPkt s dst ptype agent ga inl data).marks = s.marks ∧ (sendPkt s dst ptype agent ga inl data).regs = s.regs ∧
    (sendPkt s dst ptype agent ga inl data).cores = s.cores ∧ (sendPkt s dst ptype agent ga inl data).syncs = s.syncs ∧
    (sendPkt s dst ptype agent ga inl data).queues = s.queues ∧ (sendPkt s dst ptype agent ga inl data).sched = s.sched ∧
    (sendPkt s dst ptype agent ga inl data).coh = s.coh ∧ (sendPkt s dst ptype agent ga inl data).time = s.time ∧
    (sendPkt s dst ptype agent ga inl data).pool = s.pool ∧ (sendPkt s dst ptype agent ga inl data).radio = s.radio ∧
    (sendPkt s dst ptype agent ga inl data).weave = s.weave ∧ (sendPkt s dst ptype agent ga inl data).ports = s.ports ∧
    (sendPkt s dst ptype agent ga inl data).domain = s.domain ∧ (sendPkt s dst ptype agent ga inl data).host = s.host ∧
    (sendPkt s dst ptype agent ga inl data).eth = s.eth ∧ (sendPkt s dst ptype agent ga inl data).flash = s.flash ∧
    (sendPkt s dst ptype agent ga inl data).wdn = s.wdn ∧ (sendPkt s dst ptype agent ga inl data).guard = s.guard ∧
    (sendPkt s dst ptype agent ga inl data).events = s.events ∧ (sendPkt s dst ptype agent ga inl data).out = s.out ∧
    (sendPkt s dst ptype agent ga inl data).fresh = s.fresh := by
  exact ⟨rfl, rfl, rfl, rfl, rfl, rfl, rfl, rfl, rfl, rfl, rfl, rfl,
    rfl, rfl, rfl, rfl, rfl, rfl, rfl, rfl, rfl, rfl, rfl, rfl, rfl⟩

@[simp] theorem storeBytes_frame (s : State) (a : Nat) (d : List Byte) :
    (storeBytes s a d).pending = s.pending ∧ (storeBytes s a d).mem = s.mem ∧ (storeBytes s a d).posted = s.posted ∧
    (storeBytes s a d).marks = s.marks ∧ (storeBytes s a d).regs = s.regs ∧ (storeBytes s a d).cores = s.cores ∧
    (storeBytes s a d).syncs = s.syncs ∧ (storeBytes s a d).queues = s.queues ∧ (storeBytes s a d).sched = s.sched ∧
    (storeBytes s a d).coh = s.coh ∧ (storeBytes s a d).fabric = s.fabric ∧ (storeBytes s a d).time = s.time ∧
    (storeBytes s a d).pool = s.pool ∧ (storeBytes s a d).radio = s.radio ∧ (storeBytes s a d).weave = s.weave ∧
    (storeBytes s a d).ports = s.ports ∧ (storeBytes s a d).domain = s.domain ∧ (storeBytes s a d).host = s.host ∧
    (storeBytes s a d).eth = s.eth ∧ (storeBytes s a d).flash = s.flash ∧ (storeBytes s a d).wdn = s.wdn ∧
    (storeBytes s a d).guard = s.guard ∧ (storeBytes s a d).events = s.events ∧ (storeBytes s a d).out = s.out ∧
    (storeBytes s a d).fresh = s.fresh := by
  exact ⟨rfl, rfl, rfl, rfl, rfl, rfl, rfl, rfl, rfl, rfl, rfl, rfl,
    rfl, rfl, rfl, rfl, rfl, rfl, rfl, rfl, rfl, rfl, rfl, rfl, rfl⟩

@[simp] theorem eraseRange_frame (s : State) (a n : Nat) :
    (eraseRange s a n).pending = s.pending ∧ (eraseRange s a n).posted = s.posted ∧ (eraseRange s a n).marks = s.marks ∧
    (eraseRange s a n).regs = s.regs ∧ (eraseRange s a n).cores = s.cores ∧ (eraseRange s a n).syncs = s.syncs ∧
    (eraseRange s a n).queues = s.queues ∧ (eraseRange s a n).sched = s.sched ∧ (eraseRange s a n).coh = s.coh ∧
    (eraseRange s a n).fabric = s.fabric ∧ (eraseRange s a n).time = s.time ∧ (eraseRange s a n).pool = s.pool ∧
    (eraseRange s a n).radio = s.radio ∧ (eraseRange s a n).weave = s.weave ∧ (eraseRange s a n).ports = s.ports ∧
    (eraseRange s a n).domain = s.domain ∧ (eraseRange s a n).host = s.host ∧ (eraseRange s a n).eth = s.eth ∧
    (eraseRange s a n).flash = s.flash ∧ (eraseRange s a n).wdn = s.wdn ∧ (eraseRange s a n).guard = s.guard ∧
    (eraseRange s a n).events = s.events ∧ (eraseRange s a n).out = s.out ∧ (eraseRange s a n).fresh = s.fresh := by
  exact ⟨rfl, rfl, rfl, rfl, rfl, rfl, rfl, rfl, rfl, rfl, rfl, rfl,
    rfl, rfl, rfl, rfl, rfl, rfl, rfl, rfl, rfl, rfl, rfl, rfl⟩

@[simp] theorem cleanRange_frame (s : State) (a n : Nat) :
    (cleanRange s a n).pending = s.pending ∧ (cleanRange s a n).mem = s.mem ∧ (cleanRange s a n).stores = s.stores ∧
    (cleanRange s a n).posted = s.posted ∧ (cleanRange s a n).regs = s.regs ∧ (cleanRange s a n).cores = s.cores ∧
    (cleanRange s a n).syncs = s.syncs ∧ (cleanRange s a n).queues = s.queues ∧ (cleanRange s a n).sched = s.sched ∧
    (cleanRange s a n).coh = s.coh ∧ (cleanRange s a n).fabric = s.fabric ∧ (cleanRange s a n).time = s.time ∧
    (cleanRange s a n).pool = s.pool ∧ (cleanRange s a n).radio = s.radio ∧ (cleanRange s a n).weave = s.weave ∧
    (cleanRange s a n).ports = s.ports ∧ (cleanRange s a n).domain = s.domain ∧ (cleanRange s a n).host = s.host ∧
    (cleanRange s a n).eth = s.eth ∧ (cleanRange s a n).flash = s.flash ∧ (cleanRange s a n).wdn = s.wdn ∧
    (cleanRange s a n).guard = s.guard ∧ (cleanRange s a n).events = s.events ∧ (cleanRange s a n).out = s.out ∧
    (cleanRange s a n).fresh = s.fresh := by
  unfold cleanRange
  repeat' split
  all_goals simp

@[simp] theorem poisonRange_frame (s : State) (a n : Nat) :
    (poisonRange s a n).pending = s.pending ∧ (poisonRange s a n).mem = s.mem ∧ (poisonRange s a n).stores = s.stores ∧
    (poisonRange s a n).posted = s.posted ∧ (poisonRange s a n).regs = s.regs ∧ (poisonRange s a n).cores = s.cores ∧
    (poisonRange s a n).syncs = s.syncs ∧ (poisonRange s a n).queues = s.queues ∧ (poisonRange s a n).sched = s.sched ∧
    (poisonRange s a n).coh = s.coh ∧ (poisonRange s a n).fabric = s.fabric ∧ (poisonRange s a n).time = s.time ∧
    (poisonRange s a n).pool = s.pool ∧ (poisonRange s a n).radio = s.radio ∧ (poisonRange s a n).weave = s.weave ∧
    (poisonRange s a n).ports = s.ports ∧ (poisonRange s a n).domain = s.domain ∧ (poisonRange s a n).host = s.host ∧
    (poisonRange s a n).eth = s.eth ∧ (poisonRange s a n).flash = s.flash ∧ (poisonRange s a n).wdn = s.wdn ∧
    (poisonRange s a n).guard = s.guard ∧ (poisonRange s a n).events = s.events ∧ (poisonRange s a n).out = s.out ∧
    (poisonRange s a n).fresh = s.fresh := by
  unfold poisonRange
  repeat' split
  all_goals simp

@[simp] theorem writeMem_frame (s : State) (a : Nat) (d : List Byte) (p : Bool) :
    (writeMem s a d p).pending = s.pending ∧ (writeMem s a d p).mem = s.mem ∧ (writeMem s a d p).posted = s.posted ∧
    (writeMem s a d p).regs = s.regs ∧ (writeMem s a d p).cores = s.cores ∧ (writeMem s a d p).syncs = s.syncs ∧
    (writeMem s a d p).queues = s.queues ∧ (writeMem s a d p).sched = s.sched ∧ (writeMem s a d p).coh = s.coh ∧
    (writeMem s a d p).fabric = s.fabric ∧ (writeMem s a d p).time = s.time ∧ (writeMem s a d p).pool = s.pool ∧
    (writeMem s a d p).radio = s.radio ∧ (writeMem s a d p).weave = s.weave ∧ (writeMem s a d p).ports = s.ports ∧
    (writeMem s a d p).domain = s.domain ∧ (writeMem s a d p).host = s.host ∧ (writeMem s a d p).eth = s.eth ∧
    (writeMem s a d p).flash = s.flash ∧ (writeMem s a d p).wdn = s.wdn ∧ (writeMem s a d p).guard = s.guard ∧
    (writeMem s a d p).events = s.events ∧ (writeMem s a d p).out = s.out ∧ (writeMem s a d p).fresh = s.fresh := by
  unfold writeMem
  cases p <;> simp

@[simp] theorem onTime_frame (s : State) (g : TimeSt → TimeSt) :
    (onTime s g).pending = s.pending ∧ (onTime s g).mem = s.mem ∧ (onTime s g).stores = s.stores ∧
    (onTime s g).posted = s.posted ∧ (onTime s g).marks = s.marks ∧ (onTime s g).regs = s.regs ∧ (onTime s g).cores = s.cores ∧
    (onTime s g).syncs = s.syncs ∧ (onTime s g).queues = s.queues ∧ (onTime s g).sched = s.sched ∧ (onTime s g).coh = s.coh ∧
    (onTime s g).fabric = s.fabric ∧ (onTime s g).pool = s.pool ∧ (onTime s g).radio = s.radio ∧ (onTime s g).weave = s.weave ∧
    (onTime s g).ports = s.ports ∧ (onTime s g).domain = s.domain ∧ (onTime s g).host = s.host ∧ (onTime s g).eth = s.eth ∧
    (onTime s g).flash = s.flash ∧ (onTime s g).wdn = s.wdn ∧ (onTime s g).guard = s.guard ∧ (onTime s g).events = s.events ∧
    (onTime s g).out = s.out ∧ (onTime s g).fresh = s.fresh := by
  exact ⟨rfl, rfl, rfl, rfl, rfl, rfl, rfl, rfl, rfl, rfl, rfl, rfl,
    rfl, rfl, rfl, rfl, rfl, rfl, rfl, rfl, rfl, rfl, rfl, rfl, rfl⟩

@[simp] theorem setReg_regs (s : State) (off v : Nat) : (setReg s off v).regs = tabSet s.regs off (BitVec.ofNat 32 v) := rfl
@[simp] theorem setCore_cores (s : State) (c : Nat) (k : Core) : (setCore s c k).cores = tabSet s.cores c k := rfl
@[simp] theorem onCore_cores (s : State) (c : Nat) (g : Core → Core) : (onCore s c g).cores = tabSet s.cores c (g (core s c)) := rfl
@[simp] theorem tickFresh_fresh (s : State) : (tickFresh s).fresh = s.fresh + 1 := rfl
@[simp] theorem emit_out (s : State) (k : OutKind) (args : List Nat) (data : List Byte) : (emit s k args data).out = ⟨k, args, data⟩ :: s.out := rfl
@[simp] theorem onTime_time (s : State) (g : TimeSt → TimeSt) : (onTime s g).time = g s.time := rfl

end Sys2Proof.Machine
end

