-- ==== Sys2Proof/Laws/Registers.lean ====
section
/-!
SUPPORT. Fields of registers: a field reads as it was written, and the other fields stay.
-/
namespace Sys2Proof.Machine

/-! ### Bits -/

/-- What a replaced field leaves: the bits above it, the new field, the bits below it. -/
theorem putBits_eq (x hi lo v : Nat) :
    putBits x hi lo v = x / 2 ^ lo / 2 ^ (hi + 1 - lo) * 2 ^ (hi + 1 - lo) * 2 ^ lo + v % 2 ^ (hi + 1 - lo) * 2 ^ lo + x % 2 ^ lo := by
  unfold putBits bitsOf
  generalize hi + 1 - lo = w
  have h1 : x = x / 2 ^ lo * 2 ^ lo + x % 2 ^ lo := (Nat.div_add_mod' x (2 ^ lo)).symm
  have h2 : x / 2 ^ lo = x / 2 ^ lo / 2 ^ w * 2 ^ w + x / 2 ^ lo % 2 ^ w := (Nat.div_add_mod' _ (2 ^ w)).symm
  have h3 : x / 2 ^ lo * 2 ^ lo = x / 2 ^ lo / 2 ^ w * 2 ^ w * 2 ^ lo + x / 2 ^ lo % 2 ^ w * 2 ^ lo := by
    conv => lhs; rw [h2]
    rw [Nat.add_mul]
  omega

theorem putBits_lt (x hi lo v n : Nat) (hx : x < 2 ^ n) (h : hi < n) (hl : lo ≤ hi) : putBits x hi lo v < 2 ^ n := by
  rw [putBits_eq]
  obtain ⟨k, rfl⟩ : ∃ k, n = lo + (hi + 1 - lo) + k := ⟨n - (hi + 1), by omega⟩
  generalize hi + 1 - lo = w at *
  have hq : x / 2 ^ lo / 2 ^ w < 2 ^ k := by
    rw [Nat.div_div_eq_div_mul, ← Nat.pow_add]
    exact Nat.div_lt_of_lt_mul (by rw [← Nat.pow_add]; exact hx)
  have hv : v % 2 ^ w < 2 ^ w := Nat.mod_lt _ (Nat.two_pow_pos _)
  have hr : x % 2 ^ lo < 2 ^ lo := Nat.mod_lt _ (Nat.two_pow_pos _)
  rw [Nat.pow_add, Nat.pow_add]
  generalize x / 2 ^ lo / 2 ^ w = q at *
  generalize v % 2 ^ w = u at *
  generalize x % 2 ^ lo = r at *
  generalize 2 ^ w = W at *
  generalize 2 ^ lo = L at *
  generalize 2 ^ k = K at *
  have h1 : q * W + u + 1 ≤ W * K := by
    calc q * W + u + 1 ≤ q * W + W := by omega
      _ = (q + 1) * W := by rw [Nat.add_mul, Nat.one_mul]
      _ ≤ K * W := Nat.mul_le_mul_right _ hq
      _ = W * K := Nat.mul_comm ..
  calc q * W * L + u * L + r < q * W * L + u * L + L := by omega
    _ = (q * W + u + 1) * L := by rw [Nat.add_mul, Nat.add_mul, Nat.one_mul]
    _ ≤ W * K * L := Nat.mul_le_mul_right _ h1
    _ = L * W * K := by rw [Nat.mul_comm (W * K) L, Nat.mul_assoc]

theorem bitsOf_putBits_same (x hi lo v : Nat) : bitsOf (putBits x hi lo v) hi lo = v % 2 ^ (hi + 1 - lo) := by
  rw [putBits_eq]
  unfold bitsOf
  generalize hi + 1 - lo = w
  have hr : x % 2 ^ lo < 2 ^ lo := Nat.mod_lt _ (Nat.two_pow_pos _)
  have : (x / 2 ^ lo / 2 ^ w * 2 ^ w * 2 ^ lo + v % 2 ^ w * 2 ^ lo + x % 2 ^ lo) / 2 ^ lo = x / 2 ^ lo / 2 ^ w * 2 ^ w + v % 2 ^ w := by
    rw [← Nat.add_mul, Nat.add_comm, Nat.add_mul_div_right _ _ (Nat.two_pow_pos _), Nat.div_eq_of_lt hr, Nat.zero_add]
  rw [this, Nat.mul_comm, Nat.mul_add_mod, Nat.mod_mod]

theorem testBit_bitsOf (x hi lo i : Nat) : (bitsOf x hi lo).testBit i = (decide (i < hi + 1 - lo) && x.testBit (lo + i)) := by
  unfold bitsOf
  rw [Nat.testBit_mod_two_pow, Nat.testBit_div_two_pow, Nat.add_comm i lo]

theorem testBit_putBits_outside (x hi lo v i : Nat) (h : i < lo ∨ hi < i) (hl : lo ≤ hi) :
    (putBits x hi lo v).testBit i = x.testBit i := by
  rw [putBits_eq]
  generalize hw : hi + 1 - lo = w
  have e1 : x / 2 ^ lo / 2 ^ w * 2 ^ w * 2 ^ lo + v % 2 ^ w * 2 ^ lo + x % 2 ^ lo
      = 2 ^ lo * (2 ^ w * (x / 2 ^ lo / 2 ^ w) + v % 2 ^ w) + x % 2 ^ lo := by
    rw [← Nat.add_mul, Nat.mul_comm (x / 2 ^ lo / 2 ^ w) (2 ^ w), Nat.mul_comm]
  rw [e1, Nat.testBit_two_pow_mul_add _ (Nat.mod_lt _ (Nat.two_pow_pos _))]
  split
  · rename_i hi'
    rw [Nat.testBit_mod_two_pow]
    simp [hi']
  · rename_i hi'
    have hlt : hi < i := by omega
    rw [Nat.testBit_two_pow_mul_add _ (Nat.mod_lt _ (Nat.two_pow_pos _)), if_neg (by omega),
      Nat.testBit_div_two_pow, Nat.testBit_div_two_pow]
    congr 1
    omega

/-- Bits outside a replaced field stay. -/
theorem bitsOf_putBits_disjoint (x hi lo v hi' lo' : Nat) (h : hi < lo' ∨ hi' < lo) (hl : lo ≤ hi) (hl' : lo' ≤ hi') :
    bitsOf (putBits x hi lo v) hi' lo' = bitsOf x hi' lo' := by
  apply Nat.eq_of_testBit_eq
  intro i
  rw [testBit_bitsOf, testBit_bitsOf]
  by_cases hi0 : i < hi' + 1 - lo'
  · rw [testBit_putBits_outside _ _ _ _ _ (by omega) hl]
  · simp [hi0]

/-! ### Device registers -/

@[simp] theorem reg_setReg_same (s : State) (off v : Nat) : reg (setReg s off v) off = v % 2 ^ 32 := by
  simp [reg]

theorem reg_setReg_ne (s : State) {off x : Nat} (v : Nat) (h : x ≠ off) : reg (setReg s off v) x = reg s x := by
  simp [reg, tabFind_tabSet_ne _ _ h]

/-- A device register is a word, or its Reset value. -/
theorem reg_lt (s : State) (off : Nat) (h : tabFind s.regs off ≠ none) : reg s off < 2 ^ 32 := by
  unfold reg
  split
  · exact BitVec.isLt _
  · contradiction

theorem fld_setReg_ne (s : State) (f : Fld) {off : Nat} (v : Nat) (h : f.off ≠ off) : fld (setReg s off v) f = fld s f := by
  simp [fld, reg_setReg_ne s v h]

theorem fld_setFld_ne (s : State) (f g : Fld) (v : Nat) (h : g.off ≠ f.off) : fld (setFld s f v) g = fld s g :=
  fld_setReg_ne s g _ h

theorem bitsOf_mod_word (x hi lo : Nat) (h : hi < 32) (hl : lo ≤ hi) : bitsOf (x % 2 ^ 32) hi lo = bitsOf x hi lo := by
  apply Nat.eq_of_testBit_eq
  intro i
  rw [testBit_bitsOf, testBit_bitsOf, Nat.testBit_mod_two_pow]
  by_cases hi0 : i < hi + 1 - lo
  · have : lo + i < 32 := by omega
    simp [this]
  · simp [hi0]

/-- A field reads as it was stored. -/
theorem fld_setFld_same (s : State) (f : Fld) (v : Nat) (h : f.hi < 32) (hl : f.lo ≤ f.hi) :
    fld (setFld s f v) f = v % 2 ^ (f.hi + 1 - f.lo) := by
  simp only [fld, setFld, reg_setReg_same]
  rw [bitsOf_mod_word _ _ _ h hl, bitsOf_putBits_same]

/-- A field beside the stored one stays. -/
theorem fld_setFld_disjoint (s : State) (f g : Fld) (v : Nat) (ho : g.off = f.off) (h : f.hi < g.lo ∨ g.hi < f.lo) (hf : f.hi < 32)
    (hg : g.hi < 32) (hl : f.lo ≤ f.hi) (hl' : g.lo ≤ g.hi) : fld (setFld s f v) g = fld s g := by
  have : f.hi < 32 := hf
  simp only [fld, setFld, ho, reg_setReg_same]
  rw [bitsOf_mod_word _ _ _ hg hl', bitsOf_putBits_disjoint _ _ _ _ _ _ h hl hl']

@[simp] theorem num_lt (b : Bool) : num b < 2 := by cases b <;> decide

theorem flag_setFlag_same (s : State) (f : Fld) (b : Bool) (h : f.hi < 32) (hl : f.lo = f.hi) : flag (setFlag s f b) f = b := by
  unfold flag setFlag
  rw [fld_setFld_same _ _ _ h (by omega)]
  have : f.hi + 1 - f.lo = 1 := by omega
  rw [this]
  cases b <;> decide

theorem reg_report (s : State) (code agent : Nat) (args : List Nat) (off : Nat) (h : off ≠ R.EVT_LOST.val.off) :
    reg (report s code agent args) off = reg s off := by
  unfold report
  split
  · rfl
  · exact reg_setReg_ne _ _ h

/-- An event goes to the end of Warden's FIFO while it has room (R554). -/
theorem report_events (s : State) (code agent : Nat) (args : List Nat) (h : s.events.length < 256) :
    (report s code agent args).events = s.events ++ [⟨code, agent, args, extTime s⟩] := by
  simp [report, h]

/-! ### Cores -/

@[simp] theorem core_setCore_same (s : State) (c : Nat) (k : Core) : core (setCore s c k) c = k := by simp [core]

theorem core_setCore_ne (s : State) {c d : Nat} (k : Core) (h : d ≠ c) : core (setCore s c k) d = core s d := by
  simp [core, tabGet_tabSet_ne _ _ _ h]

@[simp] theorem core_onCore_same (s : State) (c : Nat) (g : Core → Core) : core (onCore s c g) c = g (core s c) := by simp [core]

theorem core_onCore_ne (s : State) {c d : Nat} (g : Core → Core) (h : d ≠ c) : core (onCore s c g) d = core s d := by
  simp [core, tabGet_tabSet_ne _ _ _ h]

theorem Core.sysWord_setSys_ne (k : Core) (c : Nat) (f : Fld) (v : Nat) {i : Nat} (h : i ≠ f.off) :
    (k.setSys f v).sysWord c i = k.sysWord c i := by
  simp only [Core.sysWord, Core.setSys]
  split
  · rfl
  · rw [tabFind_tabSet_ne _ _ h]

theorem Core.sysFld_setSys_ne (k : Core) (f g : Fld) (v : Nat) (h : g.off ≠ f.off) : (k.setSys f v).sysFld g = k.sysFld g := by
  simp only [Core.sysFld]
  rw [Core.sysWord_setSys_ne _ _ _ _ h]

theorem Core.sysFld_setSys_same (k : Core) (f : Fld) (v : Nat) (h : f.hi < 32) (hl : f.lo ≤ f.hi) (hid : f.off ≠ R.CORE_ID.val.off) :
    (k.setSys f v).sysFld f = v % 2 ^ (f.hi + 1 - f.lo) := by
  simp only [Core.sysFld, Core.sysWord, Core.setSys, if_neg hid, tabFind_tabSet_same]
  rw [BitVec.toNat_ofNat, bitsOf_mod_word _ _ _ h hl, bitsOf_putBits_same]

theorem Core.sysFld_setSys_disjoint (k : Core) (f g : Fld) (v : Nat) (ho : g.off = f.off) (h : f.hi < g.lo ∨ g.hi < f.lo)
    (hf : f.hi < 32) (hg : g.hi < 32) (hl : f.lo ≤ f.hi) (hl' : g.lo ≤ g.hi) (hid : f.off ≠ R.CORE_ID.val.off) :
    (k.setSys f v).sysFld g = k.sysFld g := by
  have : f.hi < 32 := hf
  simp only [Core.sysFld, Core.sysWord, Core.setSys, ho, if_neg hid, tabFind_tabSet_same]
  rw [BitVec.toNat_ofNat, bitsOf_mod_word _ _ _ hg hl', bitsOf_putBits_disjoint _ _ _ _ _ _ h hl hl']

/-- S_0 reads as zero whatever is written (R65). -/
@[simp] theorem Core.sreg_zero (k : Core) : k.sreg 0 = 0 := rfl

/-- A scalar register after a write (R65). -/
theorem Core.sreg_setSreg (k : Core) (i j : Nat) (v : W32) :
    (k.setSreg i v).sreg j = if j = i ∧ i ≠ 0 then v else k.sreg j := by
  unfold Core.setSreg
  by_cases hi : i = 0
  · simp [hi]
  · simp only [if_neg hi, Core.sreg]
    by_cases hj : j = 0
    · subst hj
      simp [hi, Ne.symm hi]
    · by_cases h : j = i
      · subst h; simp [hi]
      · simp [h, hj, tabGet_tabSet_ne _ _ _ h]

end Sys2Proof.Machine
end

