-- ==== Sys2Proof/Laws/Pilot.lean ====
section
/-!
SUPPORT. What a bundle of straight-line code does, said once: the proofs about Pilot's operations cite these lemmas.
-/
namespace Sys2Proof.Machine

theorem firstRadio_unclaimed (s : State) (c : Nat) (h : (core s c).claim = none) : firstRadio s c = s := by
  simp [firstRadio, h]

/-- A core that is ready issues the bundle at its PC. -/
theorem runBundle_ready (s : State) (c : Nat) (h : Ready s c) (hf : fenceHolds s c (bundleAt s c).1 = false)
    (hz : freezes (bundleAt s c).1 = false) : runBundle s c = issueBundle s c (bundleAt s c).1 (bundleAt s c).2 := by
  have hp : ¬ 0x20000 ≤ (core s c).pc := Nat.not_le.2 h.pc
  simp only [runBundle, firstRadio_unclaimed s c h.claim, h.run, if_neg hp, h.sound, Bool.false_eq_true, if_false, hf, hz]

/-- The row of an operation that the bundle at PC holds runs that bundle. -/
theorem issueOp_ready (s : State) (i : Issue) (op : PilotOp) (h : Ready s i.core) (ho : Holds s i op) :
    issueOp i op s = finish (runBundle s i.core) := by
  have hc : ¬ 96 ≤ i.core := Nat.not_le.2 h.lt
  unfold Holds at ho
  cases hs : i.slot1 <;> simp [issueOp, hc, h.issue, hs, ho]

/-- An operation that reads and writes registers alone. -/
def PilotOp.regOnly : PilotOp → Bool
  | .load .. => false
  | .store .. => false
  | .eng .. => false
  | .vec _ => false
  | _ => true

/-- A bundle of two register operations without a trap completes. -/
theorem issueBundle_regs (s : State) (c : Nat) (op0 op1 : PilotOp) (hr : op1.regOnly = true)
    (hc : slotsClash s c (core s c) op0 op1 = false) (h0 : trap0 s c (core s c) op0 = none) (h1 : trap1 (core s c) op1 = none) :
    issueBundle s c op0 op1 = complete (setCore s c (ageStores (core s c))) c (core s c) op0
      (regEff (setCore s c (ageStores (core s c))) c (core s c) op0) (regEff (setCore s c (ageStores (core s c))) c (core s c) op1) := by
  simp only [issueBundle, hc, h0, h1, trapIf, lowerTrap, Bool.false_eq_true, if_false]
  cases op1 <;> first | rfl | simp [PilotOp.regOnly] at hr

/-- Operations after which the next bundle in line follows, and which change no system register of their own. -/
def PilotOp.plain : PilotOp → Bool
  | .nop => true
  | .alu .. => true
  | .alui .. => true
  | .lui .. => true
  | .dsp .. => true
  | .amov .. => true
  | .aaddi .. => true
  | .aaddm .. => true
  | .mfa .. => true
  | .fence _ => true
  | .mfs .. => true
  | _ => false

/-- What the completion of a plain bundle of straight-line code makes of the core. -/
def Core.after (k : Core) (e0 e1 : Eff) : Core :=
  let k' := (k.commit e0 e1).stick e0 e1
  { k' with pc := (k.pc + 8) % 2 ^ 32, dslots := 0, atHeel := false, loopTop := true, run := .running }.cycles (1 + e0.cost + e1.cost)

/-! ### Register writes leave everything but the register files -/

@[simp] theorem setSreg_frame (k : Core) (i : Nat) (w : W32) :
    (k.setSreg i w).acc = k.acc ∧ (k.setSreg i w).a = k.a ∧ (k.setSreg i w).b = k.b ∧ (k.setSreg i w).l = k.l ∧
    (k.setSreg i w).m = k.m ∧ (k.setSreg i w).pc = k.pc ∧ (k.setSreg i w).sys = k.sys ∧ (k.setSreg i w).delayed = k.delayed ∧
    (k.setSreg i w).dslots = k.dslots ∧ (k.setSreg i w).land = k.land ∧ (k.setSreg i w).atHeel = k.atHeel ∧
    (k.setSreg i w).loopTop = k.loopTop ∧ (k.setSreg i w).runLen = k.runLen ∧ (k.setSreg i w).stale = k.stale ∧
    (k.setSreg i w).run = k.run ∧ (k.setSreg i w).v = k.v ∧ (k.setSreg i w).k = k.k ∧ (k.setSreg i w).vparity = k.vparity ∧
    (k.setSreg i w).lanes = k.lanes ∧ (k.setSreg i w).rescale = k.rescale ∧ (k.setSreg i w).dmas = k.dmas ∧
    (k.setSreg i w).asyncs = k.asyncs ∧ (k.setSreg i w).task = k.task ∧ (k.setSreg i w).abortCause = k.abortCause ∧
    (k.setSreg i w).claim = k.claim ∧ (k.setSreg i w).held = k.held := by
  unfold Core.setSreg
  split <;> simp

@[simp] theorem setSys_frame (k : Core) (f : Fld) (w : Nat) :
    (k.setSys f w).s = k.s ∧ (k.setSys f w).acc = k.acc ∧ (k.setSys f w).a = k.a ∧ (k.setSys f w).b = k.b ∧ (k.setSys f w).l = k.l ∧
    (k.setSys f w).m = k.m ∧ (k.setSys f w).pc = k.pc ∧ (k.setSys f w).delayed = k.delayed ∧ (k.setSys f w).dslots = k.dslots ∧
    (k.setSys f w).land = k.land ∧ (k.setSys f w).atHeel = k.atHeel ∧ (k.setSys f w).loopTop = k.loopTop ∧
    (k.setSys f w).runLen = k.runLen ∧ (k.setSys f w).stale = k.stale ∧ (k.setSys f w).run = k.run ∧ (k.setSys f w).v = k.v ∧
    (k.setSys f w).k = k.k ∧ (k.setSys f w).vparity = k.vparity ∧ (k.setSys f w).lanes = k.lanes ∧
    (k.setSys f w).rescale = k.rescale ∧ (k.setSys f w).dmas = k.dmas ∧ (k.setSys f w).asyncs = k.asyncs ∧
    (k.setSys f w).task = k.task ∧ (k.setSys f w).abortCause = k.abortCause ∧ (k.setSys f w).claim = k.claim ∧
    (k.setSys f w).held = k.held := by
  simp [Core.setSys]

theorem put_frame (k : Core) (w : RegW) :
    (RegW.put k w).pc = k.pc ∧ (RegW.put k w).sys = k.sys ∧ (RegW.put k w).delayed = k.delayed ∧ (RegW.put k w).dslots = k.dslots ∧
    (RegW.put k w).land = k.land ∧ (RegW.put k w).atHeel = k.atHeel ∧ (RegW.put k w).loopTop = k.loopTop ∧
    (RegW.put k w).runLen = k.runLen ∧ (RegW.put k w).stale = k.stale ∧ (RegW.put k w).run = k.run ∧ (RegW.put k w).v = k.v ∧
    (RegW.put k w).k = k.k ∧ (RegW.put k w).vparity = k.vparity ∧ (RegW.put k w).lanes = k.lanes ∧
    (RegW.put k w).rescale = k.rescale ∧ (RegW.put k w).dmas = k.dmas ∧ (RegW.put k w).asyncs = k.asyncs ∧
    (RegW.put k w).task = k.task ∧ (RegW.put k w).abortCause = k.abortCause ∧ (RegW.put k w).claim = k.claim ∧
    (RegW.put k w).held = k.held := by
  unfold RegW.put
  split <;> simp

theorem puts_frame (l : List RegW) (k : Core) :
    (l.foldl RegW.put k).pc = k.pc ∧ (l.foldl RegW.put k).sys = k.sys ∧ (l.foldl RegW.put k).delayed = k.delayed ∧
    (l.foldl RegW.put k).dslots = k.dslots ∧ (l.foldl RegW.put k).land = k.land ∧ (l.foldl RegW.put k).atHeel = k.atHeel ∧
    (l.foldl RegW.put k).loopTop = k.loopTop ∧ (l.foldl RegW.put k).runLen = k.runLen ∧ (l.foldl RegW.put k).stale = k.stale ∧
    (l.foldl RegW.put k).run = k.run ∧ (l.foldl RegW.put k).v = k.v ∧ (l.foldl RegW.put k).k = k.k ∧
    (l.foldl RegW.put k).vparity = k.vparity ∧ (l.foldl RegW.put k).lanes = k.lanes ∧ (l.foldl RegW.put k).rescale = k.rescale ∧
    (l.foldl RegW.put k).dmas = k.dmas ∧ (l.foldl RegW.put k).asyncs = k.asyncs ∧ (l.foldl RegW.put k).task = k.task ∧
    (l.foldl RegW.put k).abortCause = k.abortCause ∧ (l.foldl RegW.put k).claim = k.claim ∧ (l.foldl RegW.put k).held = k.held := by
  induction l generalizing k with
  | nil => simp
  | cons w t ih =>
    have h := put_frame k w
    simp only [List.foldl_cons]
    have g := ih (RegW.put k w)
    simpa only [h] using g

theorem landAll_frame (d : List DWrite) (k : Core) :
    (k.landAll d).acc = k.acc ∧ (k.landAll d).a = k.a ∧ (k.landAll d).b = k.b ∧ (k.landAll d).l = k.l ∧ (k.landAll d).m = k.m ∧
    (k.landAll d).pc = k.pc ∧ (k.landAll d).sys = k.sys ∧ (k.landAll d).delayed = k.delayed ∧ (k.landAll d).dslots = k.dslots ∧
    (k.landAll d).land = k.land ∧ (k.landAll d).atHeel = k.atHeel ∧ (k.landAll d).loopTop = k.loopTop ∧
    (k.landAll d).runLen = k.runLen ∧ (k.landAll d).stale = k.stale ∧ (k.landAll d).run = k.run ∧ (k.landAll d).v = k.v ∧
    (k.landAll d).k = k.k ∧ (k.landAll d).vparity = k.vparity ∧ (k.landAll d).lanes = k.lanes ∧ (k.landAll d).rescale = k.rescale ∧
    (k.landAll d).dmas = k.dmas ∧ (k.landAll d).asyncs = k.asyncs ∧ (k.landAll d).task = k.task ∧
    (k.landAll d).abortCause = k.abortCause ∧ (k.landAll d).claim = k.claim ∧ (k.landAll d).held = k.held := by
  induction d generalizing k with
  | nil => simp [Core.landAll]
  | cons w t ih =>
    have h := setSreg_frame k w.dest w.val
    have g := ih (k.setSreg w.dest w.val)
    simp only [Core.landAll, List.foldl_cons] at g ⊢
    simpa only [h] using g

/-- The completion of a bundle writes the register files and the delayed writes alone. -/
theorem commit_frame (k : Core) (e0 e1 : Eff) :
    (k.commit e0 e1).pc = k.pc ∧ (k.commit e0 e1).sys = k.sys ∧ (k.commit e0 e1).dslots = k.dslots ∧
    (k.commit e0 e1).land = k.land ∧ (k.commit e0 e1).atHeel = k.atHeel ∧ (k.commit e0 e1).loopTop = k.loopTop ∧
    (k.commit e0 e1).runLen = k.runLen ∧ (k.commit e0 e1).stale = k.stale ∧ (k.commit e0 e1).run = k.run ∧
    (k.commit e0 e1).v = k.v ∧ (k.commit e0 e1).k = k.k ∧ (k.commit e0 e1).vparity = k.vparity ∧ (k.commit e0 e1).lanes = k.lanes ∧
    (k.commit e0 e1).rescale = k.rescale ∧ (k.commit e0 e1).dmas = k.dmas ∧ (k.commit e0 e1).asyncs = k.asyncs ∧
    (k.commit e0 e1).task = k.task ∧ (k.commit e0 e1).abortCause = k.abortCause ∧ (k.commit e0 e1).claim = k.claim ∧
    (k.commit e0 e1).held = k.held := by
  simp only [Core.commit, puts_frame, landAll_frame, and_self]

theorem stick_frame (k : Core) (e0 e1 : Eff) :
    (k.stick e0 e1).s = k.s ∧ (k.stick e0 e1).acc = k.acc ∧ (k.stick e0 e1).a = k.a ∧ (k.stick e0 e1).b = k.b ∧
    (k.stick e0 e1).l = k.l ∧ (k.stick e0 e1).m = k.m ∧ (k.stick e0 e1).pc = k.pc ∧ (k.stick e0 e1).delayed = k.delayed ∧
    (k.stick e0 e1).dslots = k.dslots ∧ (k.stick e0 e1).land = k.land ∧ (k.stick e0 e1).atHeel = k.atHeel ∧
    (k.stick e0 e1).loopTop = k.loopTop ∧ (k.stick e0 e1).runLen = k.runLen ∧ (k.stick e0 e1).stale = k.stale ∧
    (k.stick e0 e1).run = k.run ∧ (k.stick e0 e1).v = k.v ∧ (k.stick e0 e1).k = k.k ∧ (k.stick e0 e1).vparity = k.vparity ∧
    (k.stick e0 e1).lanes = k.lanes ∧ (k.stick e0 e1).rescale = k.rescale ∧ (k.stick e0 e1).dmas = k.dmas ∧
    (k.stick e0 e1).asyncs = k.asyncs ∧ (k.stick e0 e1).task = k.task ∧ (k.stick e0 e1).abortCause = k.abortCause ∧
    (k.stick e0 e1).claim = k.claim ∧ (k.stick e0 e1).held = k.held := by
  unfold Core.stick
  repeat' split
  all_goals simp

theorem sysFld_of_sys {k k' : Core} (h : k'.sys = k.sys) (f : Fld) : k'.sysFld f = k.sysFld f := by
  simp only [Core.sysFld, Core.sysWord, h]

@[simp] theorem tabSet_tabSet {α : Type} (t : List (Nat × α)) (x : Nat) (v w : α) : tabSet (tabSet t x v) x w = tabSet t x w := by
  induction t with
  | nil => simp [tabSet]
  | cons p t ih =>
    obtain ⟨k, u⟩ := p
    by_cases h : x = k
    · subst h; simp [tabSet]
    · by_cases h' : x < k
      · simp [tabSet, h, h']
      · simp [tabSet, h, h', ih]

@[simp] theorem setCore_setCore (s : State) (c : Nat) (k k' : Core) : setCore (setCore s c k) c k' = setCore s c k' := by
  simp [setCore]

theorem stick_depth (k : Core) (e0 e1 : Eff) : (k.stick e0 e1).depth = k.depth := by
  have h2 (k : Core) : (k.setSys R.PSTAT.SAT_STICKY 1).sysFld R.PSTAT.LDEPTH = k.sysFld R.PSTAT.LDEPTH :=
    Core.sysFld_setSys_disjoint k _ _ _ rfl (by decide) (by decide) (by decide) (by decide) (by decide) (by decide)
  have h3 (k : Core) : (k.setSys R.PSTAT.OVF_STICKY 1).sysFld R.PSTAT.LDEPTH = k.sysFld R.PSTAT.LDEPTH :=
    Core.sysFld_setSys_disjoint k _ _ _ rfl (by decide) (by decide) (by decide) (by decide) (by decide) (by decide)
  unfold Core.stick Core.depth
  repeat' split
  all_goals simp only [h2, h3]

/-- The 2048-cycle rule says nothing while the run is short (R85). -/
theorem leashRule_short (s : State) (c was : Nat) (h : (core s c).runLen < 2048) :
    leashRule s c was = if (core s c).interruptible && (core s c).open then onCore s c (fun k => { k with runLen := 0 }) else s := by
  have : ¬ 2048 ≤ (core s c).runLen := Nat.not_le.2 h
  simp only [leashRule, this, false_and, and_false, if_false]

/-- What follows a plain bundle of straight-line code on core `c`: `k` is the core before, `e0` and `e1` are the effects of the slots. -/
theorem complete_plain (s : State) (c : Nat) (k0 old : Core) (op0 : PilotOp) (e0 e1 : Eff) (hp : op0.plain = true)
    (hd : k0.depth = 0) (hs : k0.dslots = 0) (hr : k0.runLen + (1 + e0.cost + e1.cost) < 2048) :
    ∃ n, complete (setCore s c k0) c old op0 e0 e1 = setCore s c { k0.after e0 e1 with runLen := n } := by
  have hd' : ((k0.commit e0 e1).stick e0 e1).depth = 0 := by
    rw [stick_depth]
    have hc : (k0.commit e0 e1).sys = k0.sys := by simp only [commit_frame]
    unfold Core.depth
    rw [sysFld_of_sys hc]
    exact hd
  have hs' : ((k0.commit e0 e1).stick e0 e1).dslots = 0 := by simp only [stick_frame, commit_frame, hs]
  have hpc : ((k0.commit e0 e1).stick e0 e1).pc = k0.pc := by simp only [stick_frame, commit_frame]
  have hrl : ((k0.commit e0 e1).stick e0 e1).runLen = k0.runLen := by simp only [stick_frame, commit_frame]
  have hle : ((k0.commit e0 e1).stick e0 e1).loopEnd = { ((k0.commit e0 e1).stick e0 e1) with pc := (k0.pc + 8) % 2 ^ 32 } := by
    simp [Core.loopEnd, hd', hpc]
  have hflow : ((k0.commit e0 e1).stick e0 e1).flow old op0 =
      { ((k0.commit e0 e1).stick e0 e1) with pc := (k0.pc + 8) % 2 ^ 32, dslots := 0, loopTop := true } := by
    have hd2 : Core.depth { ((k0.commit e0 e1).stick e0 e1) with pc := (k0.pc + 8) % 2 ^ 32, dslots := 0 } = 0 := hd'
    have hd3 : Core.depth { ((k0.commit e0 e1).stick e0 e1) with pc := (k0.pc + 8) % 4294967296, dslots := 0 } = 0 := hd'
    cases op0 <;> first
      | (simp [PilotOp.plain] at hp; done)
      | (simp [Core.flow, hs', hle, hd2, hd3])
  have hcost : opCost old op0 = 0 := by cases op0 <;> first | rfl | simp [PilotOp.plain] at hp
  have key : complete (setCore s c k0) c old op0 e0 e1 = leashRule (setCore s c (k0.after e0 e1)) c k0.runLen := by
    have hw : (op0 = PilotOp.waiti) = False := by cases op0 <;> first
      | (simp [PilotOp.plain] at hp; done)
      | (simp only [eq_iff_iff, iff_false]; intro h; cases h)
    have hf : complete (setCore s c k0) c old op0 e0 e1 = leashRule (setCore (setCore s c k0) c
        ({ ((k0.commit e0 e1).stick e0 e1).flow old op0 with atHeel := false, run := .running }.cycles
          (1 + e0.cost + e1.cost + opCost old op0))) c k0.runLen := by
      cases op0 <;> first
        | (simp [PilotOp.plain] at hp; done)
        | simp [complete]
    rw [hf, hflow, hcost, setCore_setCore]
    rfl
  have hshort : (core (setCore s c (k0.after e0 e1)) c).runLen < 2048 := by
    rw [core_setCore_same]
    have : (k0.after e0 e1).runLen = k0.runLen + (1 + e0.cost + e1.cost) := by
      simp only [Core.after, Core.cycles, setSys_frame, hrl]
    omega
  rw [key, leashRule_short _ _ _ hshort]
  split
  · exact ⟨0, by simp [onCore]⟩
  · exact ⟨(k0.after e0 e1).runLen, rfl⟩

/-- The state with only a core changed ends a command as it stands. -/
theorem finish_setCore (s : State) (c : Nat) (k : Core) (h : s.Inv) : finish (setCore s c k) = .next (setCore s c k) :=
  finish_of_inv _ h

/-- The effects of the two slots of a bundle that holds one operation and a NOP. -/
def slotEff (i : Issue) (e : Eff) (one : Bool) : Eff := if i.slot1 = one then e else Eff.nil

/-- A plain register operation in straight-line code: its row runs the bundle to its end, and only the core changes. -/
theorem issueOp_plain (s : State) (i : Issue) (op : PilotOp) (h : Straight s i.core) (ho : Holds s i op) (hp : op.plain = true)
    (hz : freezes op = false) (h0 : trap0 s i.core (core s i.core) op = none) (h1 : i.slot1 = true → trap1 (core s i.core) op = none)
    (e : Eff) (he : regEff (setCore s i.core (ageStores (core s i.core))) i.core (core s i.core) op = e) (hcost : e.cost = 0)
    (hclash : slotsClash s i.core (core s i.core) op .nop = false ∧ slotsClash s i.core (core s i.core) .nop op = false) :
    ∃ n, issueOp i op s = .next (setCore s i.core
      { (ageStores (core s i.core)).after (slotEff i e false) (slotEff i e true) with runLen := n }) := by
  have hb := ho
  unfold Holds at hb
  rw [issueOp_ready s i op h.toReady ho]
  have hreg : op.regOnly = true := by cases op <;> first | rfl | (simp [PilotOp.plain] at hp; done)
  have hnop : trap0 s i.core (core s i.core) .nop = none := by simp [trap0, lowerTrap, trapIf, PilotOp.slot0Ok, PilotOp.notInSlot]
  have hnop1 : trap1 (core s i.core) .nop = none := by simp [trap1, lowerTrap, trapIf, PilotOp.slot1Ok]
  have hfence : fenceHolds s i.core op = false := by
    cases op <;> first
      | (simp [freezes] at hz; done)
      | simp [fenceHolds]
  have hd : (ageStores (core s i.core)).depth = 0 := h.depth
  have hs : (ageStores (core s i.core)).dslots = 0 := h.dslots
  have hrl : (ageStores (core s i.core)).runLen + 16 < 2048 := h.runLen
  have hnil : regEff (setCore s i.core (ageStores (core s i.core))) i.core (core s i.core) .nop = Eff.nil := rfl
  cases hsl : i.slot1 with
  | false =>
    rw [hsl] at hb
    simp only [Bool.false_eq_true, if_false] at hb
    rw [runBundle_ready s i.core h.toReady (by rw [hb]; exact hfence) (by rw [hb]; exact hz), hb]
    show ∃ n, finish (issueBundle s i.core op .nop) = _
    rw [issueBundle_regs s i.core op .nop rfl hclash.1 h0 hnop1, he, hnil]
    obtain ⟨n, hn⟩ := complete_plain s i.core (ageStores (core s i.core)) (core s i.core) op e Eff.nil hp hd hs
      (by rw [hcost]; show _ + (1 + 0 + 0) < 2048; omega)
    refine ⟨n, ?_⟩
    rw [hn, finish_setCore _ _ _ h.inv]
    simp [slotEff, hsl]
  | true =>
    rw [hsl] at hb
    simp only [if_true] at hb
    rw [runBundle_ready s i.core h.toReady (by rw [hb]; simp [fenceHolds]) (by rw [hb]; rfl), hb]
    show ∃ n, finish (issueBundle s i.core .nop op) = _
    rw [issueBundle_regs s i.core .nop op hreg hclash.2 hnop (h1 hsl), he, hnil]
    obtain ⟨n, hn⟩ := complete_plain s i.core (ageStores (core s i.core)) (core s i.core) .nop Eff.nil e rfl hd hs
      (by rw [hcost]; show _ + (1 + 0 + 0) < 2048; omega)
    refine ⟨n, ?_⟩
    rw [hn, finish_setCore _ _ _ h.inv]
    simp [slotEff, hsl]

end Sys2Proof.Machine
end

