-- ==== Sys2Proof/Tests/Slice0.lean ====
section
/-!
SUPPORT. Tests: ill-formed commands, words from the encoding tables, worked cases of the manual, and for every statement that has
hypotheses a state and operands that meet them.
-/
-- one test at a time: tests that wait for one another would each hold a thread and its stack
set_option Elab.async false

namespace Sys2Proof.Machine.Tests


/-! ### States to test on -/

/-- The bytes of a bundle at the start of the IMEM of core 5. -/
def bundleCells (a b : PilotOp) : List (Nat × Byte) :=
  (List.range 8).map (fun j => (imemAddr 5 j, BitVec.ofNat 8 ((encodeOp a + 2 ^ 32 * encodeOp b) / 256 ^ j)))

/-- A core that runs. -/
def running : Core := { Core.reset with run := .running }

/-- A chip whose clock runs, with core 5 as given, its Quarter not gated, and a bundle at the start of its IMEM. -/
def chip (k : Core) (a b : PilotOp) : State :=
  { State.reset with
    cores := [(5, k)]
    regs := [((R.QCLK.GATED 0).off, 0)]
    time := { TimeSt.reset with running := true }
    mem := memApply (bundleCells a b) [] }

/-- That chip with an operation in one slot, and a NOP in the other. -/
def holding (k : Core) (slot1 : Bool) (op : PilotOp) : State := if slot1 then chip k .nop op else chip k op .nop

/-- What makes core 5 ready, as one check. -/
def readyB (s : State) : Bool :=
  Memory.wf s.mem && s.stores = [] && canIssue s 5 && (core s 5).run = .running && (core s 5).pc < 0x20000 &&
    !poisoned s (imemAddr 5 (core s 5).pc) 8 && (core s 5).claim = none && (core s 5).runLen + 16 < 2048

theorem ready_of {s : State} (h : readyB s = true) : Ready s 5 := by
  simp only [readyB, Bool.and_eq_true, decide_eq_true_eq, Bool.not_eq_true'] at h
  obtain ⟨⟨⟨⟨⟨⟨⟨h1, h2⟩, h3⟩, h4⟩, h5⟩, h6⟩, h7⟩, h8⟩ := h
  exact ⟨by decide, ⟨h1, h2⟩, h3, h4, h5, h6, h7, h8⟩

/-- Core 5 is ready and holds an operation. -/
abbrev Stands (k : Core) (slot1 : Bool) (op : PilotOp) : Prop := Ready (holding k slot1 op) 5 ∧ Holds (holding k slot1 op) ⟨5, slot1⟩ op

/-- Core 5 runs straight-line code and holds an operation. -/
abbrev Sits (k : Core) (slot1 : Bool) (op : PilotOp) : Prop := Straight (holding k slot1 op) 5 ∧ Holds (holding k slot1 op) ⟨5, slot1⟩ op

theorem stands {k : Core} {slot1 : Bool} {op : PilotOp}
    (h : (readyB (holding k slot1 op) && bundleAt (holding k slot1 op) 5 = if slot1 then (.nop, op) else (op, .nop)) = true) :
    Stands k slot1 op := by
  simp only [Bool.and_eq_true, decide_eq_true_eq] at h
  exact ⟨ready_of h.1, h.2⟩

theorem sits {k : Core} {slot1 : Bool} {op : PilotOp}
    (h : (readyB (holding k slot1 op) && (core (holding k slot1 op) 5).dslots = 0 && (core (holding k slot1 op) 5).depth = 0 &&
      bundleAt (holding k slot1 op) 5 = if slot1 then (.nop, op) else (op, .nop)) = true) :
    Sits k slot1 op := by
  simp only [Bool.and_eq_true, decide_eq_true_eq] at h
  exact ⟨⟨ready_of h.1.1.1, h.1.1.2, h.1.2⟩, h.2⟩

/-! ### Ill-formed commands: one for each check -/

/-- The last issue slot. -/
def lastIssue : Issue := ⟨95, true⟩

theorem reject_core : WellFormed (.nop ⟨96, false⟩) = false ∧ WellFormed (.nop lastIssue) = true := by decide
theorem reject_quarter : WellFormed (.quarterGate 12) = false ∧ WellFormed (.quarterGate 11) = true := by decide
theorem reject_part : WellFormed (.taskDispatch 12) = false ∧ WellFormed (.taskDispatch 11) = true := by decide
theorem reject_queue : WellFormed (.consume .warden 1024 0 false) = false ∧ WellFormed (.consume .warden 1023 0 false) = true := by decide
theorem reject_object : WellFormed (.inboundSyncWrite 16384 1) = false ∧ WellFormed (.inboundSyncWrite 16383 1) = true := by decide
theorem reject_chip : WellFormed (.leave 16) = false ∧ WellFormed (.leave 15) = true := by decide
theorem reject_agent : WellFormed (.retry 0 128) = false ∧ WellFormed (.retry 0 127) = true := by decide
theorem reject_address : WellFormed (.err (2 ^ 48) 0) = false ∧ WellFormed (.err (2 ^ 48 - 1) 0) = true := by decide
theorem reject_register : WellFormed (.add lastIssue false 0 32 0) = false ∧ WellFormed (.add lastIssue false 31 31 31) = true := by decide
theorem reject_mask : WellFormed (.kand lastIssue 8 0 0) = false ∧ WellFormed (.kand lastIssue 7 7 7) = true := by decide
theorem reject_file : WellFormed (.mova lastIssue 8 0) = false ∧ WellFormed (.mova lastIssue 7 31) = true := by decide
theorem reject_accumulator : WellFormed (.aclr lastIssue false 4) = false ∧ WellFormed (.aclr lastIssue false 3) = true := by decide
theorem reject_width : WellFormed (.bcast lastIssue 0 0 4) = false ∧ WellFormed (.bcast lastIssue 31 31 3) = true := by decide
theorem reject_immediate : WellFormed (.addi lastIssue false 0 0 8192) = false ∧ WellFormed (.addi lastIssue false 0 0 8191) = true := by decide
theorem reject_length :
    WellFormed (.rep lastIssue false 0 0 0) = false ∧ WellFormed (.rep lastIssue false 0 0 1025) = false ∧
      WellFormed (.rep lastIssue false 65535 0 1024) = true := by decide
theorem reject_port : WellFormed (.retrain 8) = false ∧ WellFormed (.retrain 7) = true := by decide
theorem reject_ethernet : WellFormed (.ethLinkDown 3) = false ∧ WellFormed (.ethLinkDown 2) = true := by decide
theorem reject_channel : WellFormed (.hostCopyDone 8 [] false none) = false ∧ WellFormed (.hostCopyDone 7 [] false none) = true := by decide
theorem reject_lane : WellFormed (.laneLock 8) = false ∧ WellFormed (.laneLock 7) = true := by decide
theorem reject_table : WellFormed (.lkupReq 0 0 64 0 0 0 0) = false ∧ WellFormed (.lkupReq 15 0 63 0 0 0 0) = true := by decide
theorem reject_weave : WellFormed (.codewordDecode 2) = false ∧ WellFormed (.codewordDecode 1) = true := by decide
theorem reject_ring : WellFormed (.ethNotify 0 1 8) = false ∧ WellFormed (.ethNotify 0 1 7) = true := by decide
theorem reject_flash : WellFormed (.xspiCmdDone 2) = false ∧ WellFormed (.xspiCmdDone 1) = true := by decide
theorem reject_vector : WellFormed (.msixUnmask 128) = false ∧ WellFormed (.msixUnmask 127) = true := by decide
theorem reject_pair : WellFormed (.requestConsume 16 0 []) = false ∧ WellFormed (.requestConsume 15 15 []) = true := by decide
theorem reject_request :
    WellFormed (.identify ⟨0, 0, 65536, 1, [], []⟩) = false ∧ WellFormed (.identify ⟨0, 0, 0, 1, List.replicate 49 0, []⟩) = false ∧
      WellFormed (.identify ⟨15, 15, 65535, 255, List.replicate 48 0, []⟩) = true := by decide
theorem reject_vector_fields :
    WellFormed (.vadd lastIssue ⟨7, 0, 0, 0, false, 0, false⟩) = false ∧ WellFormed (.vadd lastIssue ⟨0, 0, 0, 0, false, 8, false⟩) = false ∧
      WellFormed (.vadd lastIssue ⟨6, 31, 31, 31, true, 7, true⟩) = true := by decide
theorem reject_agent_of_access : WellFormed (.timeNs (.weave 2)) = false ∧ WellFormed (.timeNs (.weave 1)) = true := by decide

/-! ### Words, from the manual's examples and its field layouts (Tables 3-3, 4-3, 4-5) -/

/-- The bundle of one tap of a Q15 correlation, and the gather of the page table: the words that the manual works out. -/
theorem words_of_the_manual :
    decodeOp 0x48085168 = .dsp .mac true 0 4 5 1 true false true ∧ decodeOp 0x51136001 = .load 4 2 3 1 true false 1 ∧
      decodeBundle 0x5113600148085168 = (.dsp .mac true 0 4 5 1 true false true, .load 4 2 3 1 true false 1) ∧
      decodeOp 0xBE483082 = .vec (.gather 8 6 2 0 1 false) := by decide

/-- Classes 0x0 to 0x3. -/
theorem words_control_and_arithmetic :
    decodeOp (0x0 * 2 ^ 28 + 1 * 2 ^ 24 + 0xABC) = .heel 0xABC ∧ decodeOp (0x0 * 2 ^ 28 + 3 * 2 ^ 24 + 3) = .fence .dma ∧
      decodeOp (0x0 * 2 ^ 28 + 5 * 2 ^ 24 + 9) = .trap 9 ∧
      decodeOp (0x1 * 2 ^ 28 + 1 * 2 ^ 27 + 31 * 2 ^ 22 + 30 * 2 ^ 17 + 29 * 2 ^ 12 + 0x0A) = .alu .slt true 31 30 29 ∧
      decodeOp (0x1 * 2 ^ 28 + 3 * 2 ^ 22 + 4 * 2 ^ 17 + 5 * 2 ^ 12 + 0x16) = .alu .packh false 3 4 5 ∧
      decodeOp (0x2 * 2 ^ 28 + 3 * 2 ^ 22 + 4 * 2 ^ 17 + 0xA * 2 ^ 13 + 8191) = .alui .maxi false 3 4 8191 ∧
      decodeOp (0x3 * 2 ^ 28 + 31 * 2 ^ 22 + 0x3FFFFF) = .lui 31 0x3FFFFF := by decide

/-- Classes 0x6 to 0xA, 0xC and 0xD. -/
theorem words_memory_flow_and_engines :
    decodeOp (0x6 * 2 ^ 28 + 7 * 2 ^ 22 + 5 * 2 ^ 19 + 0 * 2 ^ 16 + 2 * 2 ^ 14 + 0xFFF) = .store 7 5 0 2 false 0xFFF ∧
      decodeOp (0x7 * 2 ^ 28 + 3 * 2 ^ 25 + 6 * 2 ^ 22 + 31 * 2 ^ 17) = .amov 3 6 31 ∧
      decodeOp (0x7 * 2 ^ 28 + 6 * 2 ^ 25 + 6 * 2 ^ 22 + 9 * 2 ^ 17 + 2 * 2 ^ 15) = .mfa 9 2 6 ∧
      decodeOp (0x8 * 2 ^ 28 + 5 * 2 ^ 25 + 1 * 2 ^ 17 + 2 * 2 ^ 12 + 0x801) = .branch 5 1 2 0x801 ∧
      decodeOp (0x9 * 2 ^ 28 + 1 * 2 ^ 26 + 0x3FFF) = .jump .jal 0 0x3FFF ∧ decodeOp (0x9 * 2 ^ 28 + 3 * 2 ^ 26 + 17 * 2 ^ 17) = .jump .jalr 17 0 ∧
      decodeOp (0xA * 2 ^ 28 + 0xBEEF * 2 ^ 11 + 1023) = .rep false 0xBEEF 0 1024 ∧
      decodeOp (0xC * 2 ^ 28 + 3 * 2 ^ 22 + 1 * 2 ^ 17 + 2 * 2 ^ 12 + 3 * 2 ^ 7) = .eng .lrpass 3 1 2 3 ∧
      decodeOp (0xC * 2 ^ 28 + 6 * 2 ^ 24 + 1 * 2 ^ 17 + 2 * 2 ^ 12 + 3 * 2 ^ 7) = .eng .swait 0 1 2 3 ∧
      decodeOp (0xD * 2 ^ 28 + 1 * 2 ^ 27 + 8 * 2 ^ 22 + 0x123) = .mts 8 0x123 ∧ decodeOp (0xD * 2 ^ 28 + 8 * 2 ^ 22 + 0x123) = .mfs 8 0x123 := by decide

/-- Class 0xB: the VR layout with an S register and a mask, and the VX layout. -/
theorem words_vector :
    decodeOp (0xB * 2 ^ 28 + 1 * 2 ^ 25 + 8 * 2 ^ 20 + 9 * 2 ^ 15 + 10 * 2 ^ 10 + 1 * 2 ^ 9 + 3 * 2 ^ 6 + 1 * 2 ^ 5 + 0x01) =
        .vec (.int .adds ⟨1, 8, 9, 10, true, 3, true⟩) ∧
      decodeOp (0xB * 2 ^ 28 + 6 * 2 ^ 25 + 8 * 2 ^ 20 + 9 * 2 ^ 15 + 10 * 2 ^ 10 + 0x03) = .vec (.flt .fma ⟨6, 8, 9, 10, false, 0, false⟩) ∧
      decodeOp (0xB * 2 ^ 28 + 7 * 2 ^ 25 + 1 * 2 ^ 21 + 31 * 2 ^ 16 + 30 * 2 ^ 11 + 29 * 2 ^ 6 + 1 * 2 ^ 4 + 7 * 2 ^ 1) =
        .vec (.st 31 30 29 1 7) ∧
      decodeOp (0xB * 2 ^ 28 + 7 * 2 ^ 25 + 7 * 2 ^ 21 + 1 * 2 ^ 16 + 2 * 2 ^ 11 + 3 * 2 ^ 6 + 2 * 2 ^ 4 + 3 * 2 ^ 1) =
        .vec (.perm .perm 1 2 3 2) := by decide

/-- Reserved classes, functions, modes and sizes (R68), and their neighbours; reserved bits are ignored (R8). -/
theorem words_reserved :
    decodeOp 0xE0000000 = .illegal ∧ decodeOp 0xFFFFFFFF = .illegal ∧ decodeOp 0x08000000 = .illegal ∧
      decodeOp (0x1 * 2 ^ 28 + 0x17) = .illegal ∧ decodeOp (0x2 * 2 ^ 28 + 0xB * 2 ^ 13) = .illegal ∧ decodeOp (0x4 * 2 ^ 28 + 0xA * 2 ^ 8) = .illegal ∧
      decodeOp (0x5 * 2 ^ 28 + 6 * 2 ^ 16) = .illegal ∧ decodeOp (0x5 * 2 ^ 28 + 3 * 2 ^ 14) = .illegal ∧
      decodeOp (0x5 * 2 ^ 28 + 1 * 2 ^ 14 + 1 * 2 ^ 12) = .illegal ∧ decodeOp (0x8 * 2 ^ 28 + 6 * 2 ^ 25) = .illegal ∧
      decodeOp (0xC * 2 ^ 28 + 7 * 2 ^ 24) = .illegal ∧ decodeOp 0x00FFFFFF = .nop := by decide

/-! ### Hypotheses met: Pilot -/

theorem witness_PilotArithmeticResults :
    Sits running true (.alu .mul true 0 1 2) ∧ Sits running false (.alu .abs false 31 1 (if oneOperand .abs then 0 else 2)) ∧
      (8191 < 2 ^ 13 ∧ Sits running false (.alui .srai true 3 1 8191)) ∧ Sits running true (.lui 3 0x3FFFFF) ∧
      (0x10000017 < 2 ^ 32 ∧ 0x10000017 / 2 ^ 28 = 1 ∧ 0x16 < 0x10000017 % 64) ∧
      (0x20016000 < 2 ^ 32 ∧ 0x20016000 / 2 ^ 28 = 2 ∧ 0xA < 0x20016000 / 2 ^ 13 % 16) :=
  ⟨sits (by decide), sits (by decide), ⟨by decide, sits (by decide)⟩, sits (by decide), by decide, by decide⟩

theorem witness_DspAndAddressResults_rd :
    (Sits running false (extOp .mulq true 3 1 2 0) ∧ extRow .mulq ⟨5, false⟩ true 3 1 2 0 = some (.mulq ⟨5, false⟩ true 3 1 2)) ∧
      (Sits running false (extOp .ext16 true 3 0 31 3) ∧ 31 < 32 ∧
        extRow .ext16 ⟨5, false⟩ true 3 0 31 3 = some (.ext16 ⟨5, false⟩ true 3 31 3)) :=
  ⟨⟨sits (by decide), by decide⟩, sits (by decide), by decide, by decide⟩

theorem witness_DspAndAddressResults_acc :
    (Sits running false (accOp .dmac true 1 2 3 true false false) ∧
        accRow .dmac ⟨5, false⟩ true 1 2 3 true false false = some (.dmac ⟨5, false⟩ true 1 2 3 true)) ∧
      (Sits running false (accOp .aclr false 0 0 0 false false false) ∧
        accRow .aclr ⟨5, false⟩ false 0 0 0 false false false = some (.aclr ⟨5, false⟩ false 0)) :=
  ⟨⟨sits (by decide), by decide⟩, sits (by decide), by decide⟩

theorem witness_DspAndAddressResults_address :
    Sits running true (.amov 0 7 1) ∧ Sits running true (.amov 1 7 1) ∧ Sits running true (.amov 2 7 1) ∧ Sits running true (.amov 3 7 1) ∧
      Sits running true (.aaddi 7 8191) ∧ Sits running true (.aaddm 7 0) ∧ (Sits running false (.mfa 3 3 7) ∧ 3 < 4) ∧
      (0x7E000000 < 2 ^ 32 ∧ 0x7E000000 / 2 ^ 28 = 7 ∧ 0x7E000000 / 2 ^ 25 % 8 = 7) :=
  ⟨sits (by decide), sits (by decide), sits (by decide), sits (by decide), sits (by decide), sits (by decide), ⟨sits (by decide), by decide⟩, by decide⟩

/-- A running core with A_1 as given. -/
def pointing (a : W32) : Core := { running with a := [(1, a)] }

/-- The last word of tile memory, the last of IMEM, and LP5X through window 1. -/
theorem witness_PilotMemoryAccess_load :
    (Sits (pointing 0x17FFFC) true (.load 3 1 0 2 false false 0) ∧
        Reaches (holding (pointing 0x17FFFC) true (.load 3 1 0 2 false false 0)) 5 false 0x17FFFC (2 ^ 2) (tileAddr 5 0x17FFFC)) ∧
      (Sits (pointing 0x1FFFC) true (.load 3 1 3 2 false true 4095) ∧
        Reaches (holding (pointing 0x1FFFC) true (.load 3 1 3 2 false true 4095)) 5 true 0x1FFFC (2 ^ 2) (imemAddr 5 0x1FFFC)) ∧
      (Sits (pointing 0x10000001) true (.load 3 1 5 0 true false 2) ∧
        Reaches (holding (pointing 0x10000001) true (.load 3 1 5 0 true false 2)) 5 false 0x10000001 (2 ^ 0) 1) ∧
      wantEa (pointing 0x17FFFC) 1 0 2 0 = 0x17FFFC ∧ wantEa (pointing 0x1FFFC) 1 3 2 4095 = 0x1FFFC ∧
      wantEa (pointing 0x10000001) 1 5 0 2 = 0x10000001 ∧ inTileTask (holding (pointing 0) true .nop) 5 = false :=
  ⟨⟨sits (by decide), by decide, by decide, by decide, .inr (.inl (by decide))⟩,
    ⟨sits (by decide), by decide, by decide, by decide, .inl (by decide)⟩,
    ⟨sits (by decide), by decide, by decide, by decide, .inr (.inr ⟨by decide, 1, by decide⟩)⟩, by decide, by decide, by decide, by decide⟩

theorem witness_PilotMemoryAccess_store :
    (Sits (pointing 0x17FFFE) true (.store 3 1 0 1 false 0) ∧
        Reaches (holding (pointing 0x17FFFE) true (.store 3 1 0 1 false 0)) 5 false 0x17FFFE (2 ^ 1) (tileAddr 5 0x17FFFE)) ∧
      (Sits (pointing 0) true (.store 3 1 1 2 true 1) ∧
        Reaches (holding (pointing 0) true (.store 3 1 1 2 true 1)) 5 true 0 (2 ^ 2) (imemAddr 5 0)) ∧
      (Sits (pointing 0xFFFFFFC) true (.store 3 1 0 2 false 1) ∧
        Reaches (holding (pointing 0xFFFFFFC) true (.store 3 1 0 2 false 1)) 5 false 0x10000000 (2 ^ 2) 0) ∧
      wantEa (pointing 0x17FFFE) 1 0 1 0 = 0x17FFFE ∧ wantEa (pointing 0) 1 1 2 1 = 0 ∧ wantEa (pointing 0xFFFFFFC) 1 0 2 1 = 0x10000000 :=
  ⟨⟨sits (by decide), by decide, by decide, by decide, .inr (.inl (by decide))⟩,
    ⟨sits (by decide), by decide, by decide, by decide, .inl (by decide)⟩,
    ⟨sits (by decide), by decide, by decide, by decide, .inr (.inr ⟨by decide, 0, by decide⟩)⟩, by decide, by decide, by decide⟩

theorem witness_BranchesAndJumps :
    Sits running false (.branch 5 1 2 4095) ∧ Sits running false (.jump .j 0 0x3FFF) ∧ Sits running false (.jump .jal 0 0x3FFF) ∧
      (Sits { running with s := [(1, 8)] } false (.jump .jr 1 0) ∧ (({ running with s := [(1, 8)] } : Core).sreg 1).toNat % 8 = 0) ∧
      Sits { running with s := [(1, 8)] } false (.jump .jalr 1 0) :=
  ⟨sits (by decide), sits (by decide), sits (by decide), ⟨sits (by decide), by decide⟩, sits (by decide)⟩

/-- A core in the last delay slot of a taken branch, one after an untaken branch, and one in none. -/
theorem witness_DelaySlotsAndRepeatBodies_nop :
    (Stands { running with dslots := 1, land := .go 64 } false .nop ∧ ({ running with dslots := 1, land := .go 64 } : Core).depth = 0) ∧
      Stands { running with dslots := 1 } true .nop ∧ Stands running false .nop :=
  ⟨⟨stands (by decide), by decide⟩, stands (by decide), stands (by decide)⟩

/-- A running core at depth `d` of the repeat stack, whose innermost body runs from 0 to `le`. -/
def repeating (d count : Nat) (le : Nat := 0) : Core :=
  ((running.setSys R.PSTAT.LDEPTH d).setSys (R.LC.val (d - 1)) count).setSys (R.LE.val (d - 1)) le

theorem witness_DelaySlotsAndRepeatBodies_rep :
    (Stands running false (.rep false 0 0 1024) ∧ repTrap (holding running false (.rep false 0 0 1024)) 5 running 1024 = none) ∧
      (Stands running false (.rep false 65535 0 1) ∧ repTrap (holding running false (.rep false 65535 0 1)) 5 running 1 = none) ∧
      (Stands (repeating 3 2) false .nop ∧ (repeating 3 2).depth = 3 ∧ (repeating 3 2).pc = (repeating 3 2).le 2 ∧ 1 < (repeating 3 2).lc 2) ∧
      (Stands (repeating 1 1) false .nop ∧ (repeating 1 1).depth = 1 ∧ (repeating 1 1).pc = (repeating 1 1).le 0 ∧ (repeating 1 1).lc 0 = 1) ∧
      (Stands (repeating 1 2) false .rbrk ∧ (repeating 1 2).depth = 1 ∧ (repeating 1 2).ls 0 ≤ (repeating 1 2).pc ∧
        (repeating 1 2).pc ≤ (repeating 1 2).le 0) :=
  ⟨⟨stands (by decide), by decide⟩, ⟨stands (by decide), by decide⟩, ⟨stands (by decide), by decide⟩, ⟨stands (by decide), by decide⟩,
    stands (by decide), by decide⟩

/-- A transfer of one core. -/
def transfer : DmaOp := ⟨[], 1, false⟩

theorem witness_SpecialsAndFences :
    (Sits running false (.heel 4095) ∧ running.delayed = []) ∧ Sits running false .ifence ∧ Sits running false .waiti ∧
      Sits running false (.fence .full) ∧ (Sits running false (.fence .dma) ∧ running.dmas = []) ∧
      (Sits { running with dmas := [transfer] } false (.fence .dma) ∧ [transfer] ≠ []) ∧
      inTileTask (holding running false (.fence .dma)) 5 = false :=
  ⟨⟨sits (by decide), by decide⟩, sits (by decide), sits (by decide), sits (by decide), ⟨sits (by decide), by decide⟩,
    ⟨sits (by decide), by decide⟩, by decide⟩

theorem witness_SystemRegisterAccess :
    (Sits running false (.mfs 3 R.CORE_ID.val.off) ∧ rowsName sysRows R.CORE_ID.val.off = true) ∧
      (Sits running false (.mts 3 R.PSTAT.IE.off) ∧ rowsName sysRows R.PSTAT.IE.off = true) ∧
      (Sits running false (.mts 3 R.VL.COUNT.off) ∧ rowsName sysRows R.VL.COUNT.off = true) :=
  ⟨⟨sits (by decide), by decide⟩, ⟨sits (by decide), by decide⟩, sits (by decide), by decide⟩

theorem witness_TrapsAreTaken_trap :
    Sits running false (.trap 4095) ∧ FitsDwb running ∧ running.sysFlag R.PSTAT.EXL = false :=
  ⟨sits (by decide), by unfold FitsDwb; decide, by decide⟩

/-- A running core with two writes outstanding, the farthest 3 bundles away. -/
def owing : Core := { running with delayed := [⟨3, 7, 3, true⟩, ⟨0, 1, 1, false⟩] }

theorem witness_TrapsAreTaken_causes :
    (Stands owing false .illegal ∧ FitsDwb owing ∧ owing.sysFlag R.PSTAT.EXL = false ∧ owing.dslots = 0) ∧
      Stands owing false (.load 3 1 0 2 false false 0) ∧ Stands owing false (.store 3 1 0 2 false 0) ∧
      (Stands (pointing 1) true (.load 3 1 0 1 false false 0) ∧ wantEa (pointing 1) 1 0 1 0 % 2 ^ 1 ≠ 0) ∧
      (Stands (pointing 0x180000) true (.load 3 1 0 2 false false 0) ∧ 0x180000 ≤ wantEa (pointing 0x180000) 1 0 2 0 ∧
        wantEa (pointing 0x180000) 1 0 2 0 < 2 ^ 28) ∧
      (Stands (pointing 2) true (.store 3 1 0 2 false 0) ∧ wantEa (pointing 2) 1 0 2 0 % 2 ^ 2 ≠ 0) ∧
      (Stands (pointing 0xFFFFFFC) true (.store 3 1 0 2 false 0) ∧ 0x180000 ≤ wantEa (pointing 0xFFFFFFC) 1 0 2 0 ∧
        wantEa (pointing 0xFFFFFFC) 1 0 2 0 < 2 ^ 28) ∧
      (Stands { running with s := [(1, 4)] } false (.jump .jr 1 0) ∧ (({ running with s := [(1, 4)] } : Core).sreg 1).toNat % 8 ≠ 0) ∧
      (Stands running false (.mfs 3 4095) ∧ rowsName sysRows 4095 = false) ∧ Stands running false (.mts 3 4095) ∧
      (Stands (repeating 3 2 0x800) false (.rep false 1 0 1) ∧
        repTrap (holding (repeating 3 2 0x800) false (.rep false 1 0 1)) 5 (repeating 3 2 0x800) 1 = some ⟨9, none⟩) :=
  ⟨⟨stands (by decide), by unfold FitsDwb; decide, by decide, by decide⟩, stands (by decide), stands (by decide), ⟨stands (by decide), by decide⟩,
    ⟨stands (by decide), by decide⟩, ⟨stands (by decide), by decide⟩, ⟨stands (by decide), by decide⟩, ⟨stands (by decide), by decide⟩,
    ⟨stands (by decide), by decide⟩, stands (by decide), stands (by decide), by decide⟩

theorem witness_InterruptsReturnsAndDoubleFaults :
    (Stands (running.setSys R.PSTAT.EXL 1) false .illegal ∧ (running.setSys R.PSTAT.EXL 1).sysFlag R.PSTAT.EXL = true) ∧
      Sits running false .rti ∧ (Stands { running with dslots := 1, land := .ret } false .nop) :=
  ⟨⟨stands (by decide), by decide⟩, sits (by decide), stands (by decide)⟩

/-- A borrowed core idle in WAITI with PREEMPT pending and interrupts let in. -/
def called : Core := (({ running with run := .waiti }.setSys R.PSTAT.IE 1).setSys R.IPEND.val 1).setSys R.CLAIM.BORROWED 1

theorem witness_InterruptsReturnsAndDoubleFaults_entry :
    (holding called false .nop).Inv ∧ coreOn (holding called false .nop) 5 = true ∧ dueIrq (holding called false .nop) 5 = some 16 ∧
      called.delayed = [] :=
  ⟨⟨by decide, by decide⟩, by decide, by decide, by decide⟩

/-! ### Hypotheses met: vector engine, engine issue, lane rows, DMA -/

/-- A running core with VL at 1, S_1 pointing at the last word of tile memory, and V_2 all zero. -/
def vector : Core := { running.setSys R.VL.COUNT 1 with s := [(1, 0x17FFFC)] }

theorem witness_VectorIntegerResults :
    (Sits vector true (.vec (.int .macs ⟨3, 4, 1, 2, true, 7, true⟩)) ∧ vector.vparity = [] ∧ 3 < 4) ∧
      Sits vector true (.vec (.int .mulqs ⟨1, 4, 1, 2, false, 0, false⟩)) :=
  ⟨⟨sits (by decide), by decide, by decide⟩, sits (by decide)⟩

theorem witness_VectorFloatResults :
    (Sits vector true (.vec (.flt .fma ⟨6, 4, 1, 2, true, 7, true⟩)) ∧ vector.vparity = [] ∧ 4 ≤ 6 ∧ 6 < 7) ∧
      Sits vector true (.vec (.flt .rsqe ⟨4, 4, 1, 2, false, 0, false⟩)) :=
  ⟨⟨sits (by decide), by decide, by decide, by decide⟩, sits (by decide)⟩

/-- The only active element of an access of `vector` without a mask is the first. -/
theorem vector_active {j : Nat} (slot1 : Bool) (op : PilotOp) (n : Nat) (h : Active (core (holding vector slot1 op) 5) n 0 j) : j = 0 := by
  have h1 := h.1.2
  have e : core (holding vector slot1 op) 5 = vector := by cases slot1 <;> rfl
  have v : vector.sysFld R.VL.COUNT = 1 := by decide
  rw [e, v] at h1
  omega

theorem witness_VectorMemoryAccess :
    (Sits vector true (.vec (.ld 4 1 0 0 0 false)) ∧
        ElementsReach (holding vector true (.vec (.ld 4 1 0 0 0 false))) 5 (32 / 2 ^ 0) 0 (wantStrided vector 1 0 (32 / 2 ^ 0))) ∧
      (Sits vector true (.vec (.gather 4 1 8 3 0 true)) ∧
        ElementsReach (holding vector true (.vec (.gather 4 1 8 3 0 true))) 5 (32 / 2 ^ 3) 0 (wantIndexed vector 1 8 (32 / 2 ^ 3))) ∧
      (Sits vector true (.vec (.st 4 1 2 2 0)) ∧
        ElementsReach (holding vector true (.vec (.st 4 1 2 2 0))) 5 (32 / 2 ^ 2) 0 (wantStrided vector 1 2 (32 / 2 ^ 2))) ∧
      (Sits vector true (.vec (.scatter 4 1 8 1 0)) ∧
        ElementsReach (holding vector true (.vec (.scatter 4 1 8 1 0))) 5 (32 / 2 ^ 1) 0 (wantIndexed vector 1 8 (32 / 2 ^ 1))) ∧
      inTileTask (holding vector true (.vec (.ld 4 1 0 0 0 false))) 5 = false := by
  refine ⟨⟨sits (by decide), by decide, ?_⟩, ⟨sits (by decide), by decide, ?_⟩, ⟨sits (by decide), by decide, ?_⟩,
    ⟨sits (by decide), by decide, ?_⟩, by decide⟩ <;>
  · intro j h
    obtain rfl := vector_active true _ _ h
    decide +kernel

theorem witness_ConversionsComparisonsPermutations :
    (Sits vector true (.vec (.cvt 4 1 0 3 true 1)) ∧ (fmtCode 0).isSome ∧ (fmtCode 3).isSome ∧ vcvtBad 0 3 1 = false) ∧
      (Sits vector true (.vec (.cmp 7 1 2 true 6 4)) ∧ 6 < 7) ∧ (Sits vector true (.vec (.perm .bcast 4 0 1 3)) ∧ 3 < 4) ∧
      Sits vector true (.vec (.perm .slideup 4 1 2 0)) ∧ Sits vector true (.vec (.perm .slidedn 4 1 2 1)) ∧
      Sits vector true (.vec (.perm .perm 4 1 2 2)) :=
  ⟨⟨sits (by decide), by decide, by decide, by decide⟩, ⟨sits (by decide), by decide⟩, ⟨sits (by decide), by decide⟩, sits (by decide),
    sits (by decide), sits (by decide)⟩

theorem witness_MasksMovesAndReductions :
    Sits vector true (.vec (.mask .kand 7 1 2 0 0)) ∧ Sits vector true (.vec (.mask .kor 7 1 2 0 0)) ∧
      Sits vector true (.vec (.mask .kxor 7 1 2 0 0)) ∧ Sits vector true (.vec (.mask .kandn 7 1 2 0 0)) ∧
      (Sits vector true (.vec (.mask .stok 7 0 0 1 7)) ∧ 7 < 8) ∧ Sits vector true (.vec (.mask .kpopc 0 1 0 3 0)) ∧
      Sits vector true (.vec (.mask .kfirst 0 1 0 3 0)) ∧ Sits vector true (.vec (.mask .ktos 0 1 0 3 7)) ∧
      (Sits vector true (.vec (.movs 4 3 1 3 false)) ∧ 3 < 4) ∧ Sits vector true (.vec (.movs 4 3 1 0 true)) ∧
      Sits vector true (.vec (.red 3 4 0 3 4)) ∧ Sits vector true (.vec (.red 0 4 7 6 2)) :=
  ⟨sits (by decide), sits (by decide), sits (by decide), sits (by decide), ⟨sits (by decide), by decide⟩, sits (by decide), sits (by decide),
    sits (by decide), ⟨sits (by decide), by decide⟩, sits (by decide), sits (by decide), sits (by decide)⟩

/-- A running core whose S_1 points at 128 bytes of tile memory. -/
def issuing : Core := { running with s := [(1, 0x17FF80), (2, 0x4005)] }

theorem witness_LanePassAndDmaIssue :
    (Sits issuing true (.eng .lrpass 3 1 2 3) ∧ TileBlock (holding issuing true (.eng .lrpass 3 1 2 3)) 5 0x17FF80 128 ∧ issuing.dmas = []) ∧
      (Sits issuing true (.eng .dma 0 1 2 3) ∧ TileBlock (holding issuing true (.eng .dma 0 1 2 3)) 5 0x17FF80 64 ∧
        holdsOwn (holding issuing true (.eng .dma 0 1 2 3)) 5 0x17FF80 64 = false) ∧
      (Sits { issuing with dmas := List.replicate 8 transfer } true (.eng .imload 0 1 2 3) ∧
        holdsOwn (holding { issuing with dmas := List.replicate 8 transfer } true (.eng .imload 0 1 2 3)) 5 0x17FF80 64 = false) ∧
      inTileTask (holding issuing true .nop) 5 = false :=
  ⟨⟨sits (by decide), by unfold TileBlock; decide, by decide⟩, ⟨sits (by decide), by unfold TileBlock; decide, by decide⟩,
    ⟨sits (by decide), by decide⟩, by decide⟩

/-- Core 5 at a QRECV of queue 1023, which it consumes in MODE 2. -/
def receiving : State :=
  setFld (setFld (holding { issuing with s := [(1, 0x17FFC0), (2, 0x13FF)] } true (.eng .qrecv 0 1 2 3)) (R.QCFG.CONSUMER 1023) 5)
    (R.QCFG.MODE 1023) 2

theorem witness_QueueAndSyncOperations_queues :
    (Sits issuing true (.eng .qsend 0 1 2 3) ∧ TileBlock (holding issuing true (.eng .qsend 0 1 2 3)) 5 0x17FF80 64 ∧ bitOf 0x4005 14 = true ∧
        bitOf 0x4005 15 = false) ∧
      fld receiving (R.QCFG.CONSUMER (0x13FF % 1024)) = 5 ∧ fld receiving (R.QCFG.MODE (0x13FF % 1024)) = 2 ∧
      fld receiving (R.QSTAT.COUNT (0x13FF % 1024)) = 0 ∧ TileBlock receiving 5 0x17FFC0 64 ∧
      (core receiving 5).sysFlag R.CLAIM.BORROWED = false ∧ readyB receiving = true ∧ bundleAt receiving 5 = (.nop, .eng .qrecv 0 1 2 3) :=
  ⟨⟨sits (by decide), by unfold TileBlock; decide, by decide, by decide⟩, by decide, by decide, by decide, by unfold TileBlock; decide, by decide,
    by decide, by decide⟩

/-- A sync object that is enabled. -/
def semaphore (v : Nat) (l : List Waiter) : SyncObj := { SyncObj.reset with value := v, en := true, waiters := l }

/-- Core 5 with S_1 naming object 16383 by its own chip, and S_2 a count with a timeout. -/
def waiting (v : Nat) (l : List Waiter) (b : W32) (op : PilotOp) : State :=
  { holding { running with s := [(1, 0x43FFF), (2, b)] } true op with syncs := [(16383, semaphore v l)] }

theorem witness_QueueAndSyncOperations_objects :
    (readyB (waiting 0xFFFFFFFE [] 1 (.eng .ssig 0 1 2 3)) = true ∧ bundleAt (waiting 0xFFFFFFFE [] 1 (.eng .ssig 0 1 2 3)) 5 = (.nop, .eng .ssig 0 1 2 3) ∧
        syncObj (waiting 0xFFFFFFFE [] 1 (.eng .ssig 0 1 2 3)) (0x43FFF % 16384) = semaphore 0xFFFFFFFE [] ∧ bitOf 0x43FFF 18 = true ∧
        0xFFFFFFFE + 1 ≤ 0xFFFFFFFF) ∧
      (readyB (waiting 255 [] 255 (.eng .swait 0 1 2 3)) = true ∧ bundleAt (waiting 255 [] 255 (.eng .swait 0 1 2 3)) 5 = (.nop, .eng .swait 0 1 2 3) ∧
        wantGrant (semaphore 255 []) 255 = some 0) ∧
      (readyB (waiting 0 [] 0xFFFF0001 (.eng .swait 0 1 2 3)) = true ∧
        bundleAt (waiting 0 [] 0xFFFF0001 (.eng .swait 0 1 2 3)) 5 = (.nop, .eng .swait 0 1 2 3) ∧ wantGrant (semaphore 0 []) 1 = none ∧
        bitOf 0xFFFF0001 8 = false ∧ waiterCount (waiting 0 [] 0xFFFF0001 (.eng .swait 0 1 2 3)) < 1024) :=
  ⟨⟨by decide, by decide, by decide, by decide, by decide⟩, ⟨by decide, by decide, by decide⟩, by decide, by decide, by decide, by decide, by decide⟩

/-- A pass of row 3 and one token, in FMT 0 with ACC_CLEAR and ACC_EMIT, of `kw` words. -/
def pass (kw : Nat) : Pass :=
  ⟨bytesLE 4 (8 + 4096 + 8192 + 0x400000 * 0 + 0x100000 * (kw - 1)) ++ List.replicate 124 0, 7, 0, false, [], false⟩

/-- A chip with the lane rows of core 95 as given. -/
def lanes (l : Lanes) : State := { State.reset with cores := [(95, { Core.reset with lanes := l })] }

theorem reset_inv : State.reset.Inv := ⟨by decide, by decide⟩

theorem witness_WeightsReachTheLanes :
    ((lanes { Lanes.reset with running := some (pass 128) }).Inv ∧ (pass 128).started = false ∧ (pass 128).filled = [] ∧ (pass 128).rows = [3] ∧
        TileRange (lanes { Lanes.reset with running := some (pass 128) }) 95 ((pass 128).wtEa 3) 32768) ∧
      (∀ r, r ∈ ({ pass 128 with filled := [3] } : Pass).rows → r ∈ ({ pass 128 with filled := [3] } : Pass).filled) :=
  ⟨⟨⟨by decide, by decide⟩, by decide, by decide, by decide, by decide, by decide +kernel, by decide⟩, by decide⟩

/-- A pass with two words to issue, and one that has left the Avenue. -/
def issued : Pass := { pass 128 with started := true, filled := [3], next := 126 }
def drained : Pass := { pass 1 with started := true, filled := [3], next := 1 }

theorem witness_LanesComputeAndPassesEnd :
    (issued.next + 1 < issued.words ∧ issued.actEa = 0 ∧ issued.zpSub = false ∧
        TileRange (lanes { Lanes.reset with running := some issued }) 95 0 (actBytes issued.fmt)) ∧
      (lanes { Lanes.reset with stop := true }).Inv ∧
      (drained.rows = [3] ∧ drained.tokens = 1 ∧ drained.doneEn = false ∧
        emitErr (lanes { Lanes.reset with drain := some drained }) 95 drained 3 = none ∧
        drained.outEa 3 + (emitToken (lanes { Lanes.reset with drain := some drained }) 95 drained 3 0).1.length ≤ 0x180000 ∧
        drained.tag < 2 ^ 16) ∧
      (pass 1).tag < 2 ^ 16 :=
  ⟨⟨by decide, by decide, by decide, by decide, by decide, by decide⟩, ⟨by decide, by decide⟩,
    ⟨by decide, by decide, by decide, by decide, by decide +kernel, by decide⟩, by decide⟩

/-- A transfer of 64 bytes from offset 0 to offset 64 of the tile memory of core 0, both marked LOCAL. -/
def copyDesc : List Byte :=
  bytesLE 8 (2 ^ 48 + tileAddr 0 0) ++ bytesLE 8 (2 ^ 48 + tileAddr 0 64) ++ bytesLE 8 64 ++ List.replicate 40 0

def copying : State := { State.reset with cores := [(0, { Core.reset with dmas := [⟨copyDesc, 1, false⟩] })] }

theorem witness_DmaCompleteMovesBytes :
    (core copying 0).dmas.head? = some ⟨copyDesc, 1, false⟩ ∧ dmaKind copyDesc = 0 ∧ dmaRows copyDesc = 1 ∧ dmaRowBytes copyDesc = 64 ∧
      dmaSrc copying copyDesc = ownGa copying (tileAddr 0 0) ∧ dmaDst copying copyDesc = ownGa copying (tileAddr 0 64) ∧
      TileRange copying 0 0 64 ∧ df copyDesc 0x20 2 15 15 = 0 :=
  ⟨by decide, by decide, by decide, by decide, by decide, by decide, ⟨by decide, by decide, by decide⟩, by decide⟩

/-! ### Hypotheses met: coherence, the patrol, queues, sync objects -/

/-- The chip at reset with a coherence state. -/
def withCoh (f : Coh → Coh) : State := { State.reset with coh := f State.reset.coh }

/-- The last line of usable LP5X. -/
def lastLine : Nat := lp5xEnd / 128 - 1

/-- A request of chip 15, and one being served that waits for chips 14 and 15. -/
def asked (kind : ReqKind) : HomeReq := ⟨kind, lastLine, 15, 127, []⟩
def servingCoh (kind : ReqKind) (await : List Nat) (q : List HomeReq) (c : Coh) : Coh :=
  { c with serving := [(lastLine, ⟨asked kind, await⟩)], queue := q }

theorem witness_HomeServesRequests :
    (LineOpen State.reset lastLine ∧ 15 ≠ chipId State.reset ∧ LineFree State.reset lastLine ∧ wantSnoops State.reset lastLine 15 .rdS = [] ∧
        wantSnoops State.reset lastLine 15 .wrl = [] ∧ (List.replicate 128 (7 : Byte)).length = 128) ∧
      (LineFree (withCoh (fun c => { c with dir := [(lastLine, .shared [3, 15])] })) lastLine ∧
        wantSnoops (withCoh (fun c => { c with dir := [(lastLine, .shared [3, 15])] })) lastLine 15 .upg = [(3, 0x10)]) ∧
      (¬ LineFree (withCoh (servingCoh .rdS [14] [])) lastLine) ∧
      (¬ LineFree (withCoh (servingCoh .rdS [14] (List.replicate 32 (asked .rdX)))) lastLine ∧
        32 ≤ ((withCoh (servingCoh .rdS [14] (List.replicate 32 (asked .rdX)))).coh.queue.filter (fun q => q.line = lastLine)).length) :=
  ⟨⟨by unfold LineOpen; decide, by decide, by unfold LineFree; decide, by decide, by decide, by simp⟩,
    ⟨by unfold LineFree; decide, by decide⟩, by unfold LineFree; decide, by unfold LineFree; decide +kernel, by decide +kernel⟩

theorem witness_HomeLearnsOfCopies :
    (let s := withCoh (fun c => { c with dir := [(lastLine, .excl 15)] })
     s.Inv ∧ s.posted = [] ∧ 128 * lastLine < lp5xEnd ∧ tabFind s.coh.serving lastLine = none ∧ tabFind s.coh.dir lastLine = some (.excl 15)) ∧
      (tabFind (withCoh (servingCoh .rdX [14, 15] [])).coh.serving lastLine = some ⟨asked .rdX, [14, 15]⟩) ∧
      (tabFind (withCoh (servingCoh .upg [14] [])).coh.serving lastLine = some ⟨asked .upg, [14]⟩ ∧ 15 ≠ chipId State.reset) ∧
      tabFind (withCoh (servingCoh .rdS [14] [])).coh.serving lastLine = some ⟨asked .rdS, [14]⟩ :=
  ⟨⟨⟨by decide, by decide⟩, by decide, by decide, by decide, by decide⟩, by decide, ⟨by decide, by decide⟩, by decide⟩

/-- A line whose home is chip 15. -/
def farLine : Nat := 15 * 2 ^ 37

theorem witness_SquareCacheAnswers :
    (homeOf farLine ≠ chipId State.reset ∧
        ((State.reset.coh.lines.map Prod.fst).filter (fun l => setOf l = setOf farLine ∧ l ≠ farLine)).length < max 1 (min 16 (remoteWays State.reset))) ∧
      (tabFind (withCoh (fun c => { c with wbOut := [(farLine, [])] })).coh.wbOut farLine).isSome ∧
      (withCoh (fun c => { c with await := [⟨.rdS, farLine, 0, 5, []⟩] })).coh.await.any (fun r => r.line = farLine) = true ∧
      tabFind (withCoh (fun c => { c with lines := [(farLine, ⟨.m, List.replicate 128 7, false⟩)] })).coh.lines farLine =
        some ⟨.m, List.replicate 128 7, false⟩ :=
  ⟨⟨by decide, by decide⟩, by decide, by decide, by decide⟩

theorem witness_UncachedAccesses :
    (lp5xEnd - 4 < lp5xEnd ∧ State.reset.events.length < 256) ∧
      (let o := syncObj { State.reset with syncs := [(16383, semaphore 0xFFFFFFFE [])] } 16383
       o.en = true ∧ o.type = 0 ∧ o.waiters = [] ∧ o.value + 1 < 2 ^ 32) ∧
      tabFind State.reset.queues.staging (1024 * (16 + 128 * 15 + 127) + 1023) = none ∧
      ((7, 5) ∈ (withCoh (fun c => { c with ucOut := [(7, 5)] })).coh.ucOut) ∧
      ((128 * farLine, 5) ∉ (withCoh (fun c => { c with await := [⟨.rdS, farLine, 0, 5, []⟩] })).coh.ucOut ∧
        (withCoh (fun c => { c with await := [⟨.rdS, farLine, 0, 5, []⟩] })).coh.await.any
          (fun r => r.line = 128 * farLine / 128 ∧ r.agent = 5) = true) :=
  ⟨⟨by decide, by decide⟩, ⟨by decide, by decide, by decide, by decide⟩, by decide, by decide, by decide, by decide⟩

/-- A chip under power with its patrol at the last granule, a page of which has been retired, and a candidate that its owner has released. -/
def patrolling : State :=
  setFld
    { State.reset with
      marks := { MemMarks.reset with patrol := lp5xEnd - 64, pages := [lp5xEnd / 4096 - 1], candidates := [(0, true)] }
      wdn := { WdnSt.reset with boot := { BootSt.reset with power := true }, candidates := [0] } }
    R.SQ_CTL.PATROL_EN 1

theorem witness_PatrolAndKennel :
    (patrolling.Inv ∧ patrolOn patrolling = true ∧ patrolling.events.length < 256 ∧ patrolling.marks.corrected = [] ∧
        patrolling.marks.patrol < lp5xEnd ∧ patrolling.marks.pages.contains (patrolling.marks.patrol / 4096) = true) ∧
      (0 < lp5xEnd / 4096 ∧ patrolling.marks.candidates.contains (0, true) = true ∧ patrolling.wdn.candidates.contains 0 = true ∧
        patrolling.marks.pages.contains 0 = false ∧ patrolling.marks.pages.length < 512 ∧ Unheard patrolling 5) :=
  ⟨⟨⟨by decide, by decide⟩, by decide, by decide, by decide, by decide, by decide⟩, by decide, by decide, by decide, by decide, by decide,
    by unfold Unheard; decide⟩

/-- A message for queue 1023. -/
def letter (q : Nat) (mc : Option Nat) : Commit := ⟨15, 127, q, mc, List.replicate 64 7⟩

/-- The chip with registers set. -/
def regsSet (l : List (Fld × Nat)) (s : State) : State := l.foldl (fun s p => setFld s p.1 p.2) s

/-- Queue 1023 in a MODE, of 4 entries, with 3 waiting. -/
def queueIn (mode : Nat) (f : Queues → Queues) : State :=
  regsSet [(R.QCFG.MODE 1023, mode), (R.QCFG.DEPTH_LOG2 1023, 2), (R.QSTAT.COUNT 1023, if mode = 0 then 0 else 3),
      (R.QPTR.TAIL 1023, if mode = 0 then 0 else 3)]
    { State.reset with queues := f Queues.reset }

theorem witness_QueueUnitMovesMessages :
    (tabFind State.reset.queues.staging (1024 * 0 + stageSrc State.reset (.pilot 95)) = none) ∧
      (let s := queueIn 1 (fun u => { u with adrIn := [letter 1023 none] })
       s.queues.adrIn = [letter 1023 none] ∧ 2 ≤ fld s (R.QCFG.DEPTH_LOG2 1023) ∧ fld s (R.QCFG.DEPTH_LOG2 1023) ≤ 12 ∧
          fld s (R.QSTAT.COUNT 1023) < 2 ^ fld s (R.QCFG.DEPTH_LOG2 1023) ∧ fld s (R.QCFG.MODE 1023) = 1 ∧ fld s (R.QCFG.QUOTA 1023) = 0 ∧
          64 * fld s (R.QRING_LO.RING_BASE 1023) + 2 ^ 32 * fld s (R.QRING_HI.RING_BASE 1023) + 64 * fld s (R.QPTR.TAIL 1023) + 64 ≤ lp5xEnd ∧ s.posted = []) ∧
      (let s := queueIn 0 (fun u => { u with ringIn := [letter 1023 none] })
       s.queues.ringIn = [letter 1023 none] ∧ fld s (R.QCFG.MODE 1023) = 0 ∧ flag s (R.QSYNC.OVF_EN 1023) = false) ∧
      (let s := regsSet [(R.MSIX.MASK 0, 0)] (queueIn 3 id)
       fld s (R.QCFG.MODE 1023) = 3 ∧ flag s (R.QSYNC.CREDIT_EN 1023) = false ∧ flag s (R.MSIX.MASK (fld s (R.QCFG.CONSUMER 1023))) = false) ∧
      fld State.reset (R.QCFG.MODE 1023) ≠ 3 :=
  ⟨by decide, ⟨by decide, by decide, by decide, by decide, by decide, by decide, by decide, by decide⟩, ⟨by decide, by decide, by decide⟩,
    ⟨by decide, by decide, by decide⟩, by decide⟩

/-- Channel 63 with one message, and enabled or not; it has one member, queue 3 of this chip. -/
def channel (en : Nat) : State :=
  regsSet [(R.MC_CTL.EN 63, en), (R.MC_MEMBER.VALID 63 0, 1), (R.MC_MEMBER.QUEUE 63 0, 3)]
    { State.reset with queues := { Queues.reset with chanIn := [letter 63 none] } }

theorem witness_QueueUnitMovesMessages_multicast :
    (flag (channel 1) (R.MC_CTL.EN 63) = true ∧
        ∀ p, p ∈ mcMembers (channel 1) 63 → p.2 = chipId (channel 1) ∨ (isMember (channel 1) p.2 = true ∧ featOn (channel 1) 1 = true)) ∧
      flag (channel 0) (R.MC_CTL.EN 63) = false :=
  ⟨⟨by decide, by decide +kernel⟩, by decide⟩

/-- Core 95 blocked in an operation, with object 16383 as given. -/
def blocked (r : Run) (o : SyncObj) : State :=
  { State.reset with cores := [(95, { Core.reset with run := r })], syncs := [(16383, o)] }

theorem witness_QueueUnitMovesMessages_timeout :
    (core (blocked (.recv 1023 0 3 (some 0)) SyncObj.reset) 95).run = .recv 1023 0 3 (some 0) ∧
      due (advance (blocked (.recv 1023 0 3 (some 0)) SyncObj.reset) 0) 0 = true :=
  ⟨by decide, by decide⟩

theorem witness_SignalsAndResets :
    (∀ c, Who.pilot 5 = .pilot c → (syncObj (blocked .idle (semaphore 1 [])) 16383).owner = 0xF) ∧
      (let o := syncObj (blocked .idle (semaphore 0xFFFFFFFF [])) 16383
       o.en = true ∧ o.waiters = [] ∧ o.type = 0 ∧ 0xFFFFFFFF < o.value + 1) ∧
      (let s := blocked (.wait 16383 0 2 3 none) (semaphore 1 [.pilot 95 2])
       (syncObj s 16383).waiters = [.pilot 95 2] ∧ (core s 95).run = .wait 16383 (chipId s) 2 3 none ∧ 2 ≤ (syncObj s 16383).value + 1) ∧
      (syncObj State.reset 16383).en = false ∧
      (let s := blocked (.wait 16383 0 2 3 none) { semaphore 1 [.pilot 95 2] with type := 2 }
       (syncObj s 16383).type ≠ 0 ∧ (syncObj s 16383).waiters = [.pilot 95 2] ∧ (core s 95).run = .wait 16383 (chipId s) 2 3 none) :=
  ⟨fun _ _ => by decide, ⟨by decide, by decide, by decide, by decide⟩, ⟨by decide, by decide, by decide⟩, by decide,
    by decide, by decide, by decide⟩

theorem witness_WaitsAcrossChips :
    (wantGrant (syncObj (blocked .idle (semaphore 255 [])) 16383) 255 = some 0) ∧
      (wantGrant (syncObj (blocked .idle (semaphore 0 [])) 16383) 1 = none ∧ 8 % 8 ≠ 5 ∧ waiterCount (blocked .idle (semaphore 0 [])) < 1024) ∧
      (core (blocked (.wait 16383 15 2 3 none) SyncObj.reset) 95).run = .wait 16383 15 2 3 none ∧
      ((core (blocked .running SyncObj.reset) 95).run = .running ∧ 15 ≠ chipId (blocked .running SyncObj.reset)) ∧
      (syncObj (blocked .idle (semaphore 0 [.remote 15 8 1])) 16383).waiters = [.remote 15 8 1] ∧
      (let s := blocked (.wait 16383 0 2 3 (some 0)) (semaphore 1 [.pilot 95 2])
       (core s 95).run = .wait 16383 (chipId s) 2 3 (some 0) ∧ due (advance s 0) 0 = true) ∧
      (let s := { blocked .running (semaphore 0 [.async 95 3 2]) with cores := [(95, { running with asyncs := [⟨3, 16383, 0, 2, some 0⟩] })] }
       (core s 95).asyncs = [⟨3, 16383, chipId s, 2, some 0⟩] ∧ (core s 95).held = none ∧ (syncObj s 16383).waiters = [.async 95 3 2] ∧
          due (advance s 0) 0 = true) :=
  ⟨by decide, ⟨by decide, by decide, by decide⟩, by decide, ⟨by decide, by decide⟩, by decide, ⟨by decide, by decide⟩,
    by decide, by decide, by decide, by decide⟩

/-! ### Hypotheses met: schedulers and claims -/

/-- Radio partition 0 holds Quarter 0, serving partition 1 holds Quarters 1 to 11 and lends to it; every Quarter is clocked at ÷2 and every
core is idle. -/
def site : State :=
  let s := regsSet ((List.range 12).flatMap (fun q => [(R.QCLK.GATED q, 0), (R.QCLK.DIV q, 2)])) State.reset
  let s := regsSet [(R.PART_CFG.EN 0, 1), (R.PART_CFG.RADIO 0, 1), (R.PART_CFG.QMASK 0, 1), (R.PART_CFG.EN 1, 1), (R.PART_CFG.LEND 1, 1),
    (R.PART_CFG.QMASK 1, 0xFFE), (R.PART_LEND.val 0, 2)] s
  { s with cores := (List.range 96).map (fun c => (c, { Core.reset with run := .idle })) }

/-- A task of partition 0, from a descriptor of zeros. -/
def task (f : Task → Task) : Task := f (parseTask 0 0 (List.replicate 64 0))

/-- The site with one task. -/
def siteWith (t : Task) : State := { site with sched := { Sched.reset with tasks := [t] } }

theorem alone_first {s : State} {p : Nat} {t : Task} {ok : Task → Prop} (h : s.sched.tasks = [t]) (hp : t.part = p) (hr : t.st = .ready)
    (ho : ok t) : GoesFirst s p t ok := by
  refine ⟨by simp [h], hp, hr, ho, ?_⟩
  intro u hu _ _ _ hn
  rw [h] at hu
  exact absurd (List.mem_singleton.1 hu) hn

theorem witness_SchedulersRunTasks_submit :
    (let d := List.replicate 64 (0 : Byte)
     let x := parseTask State.reset.sched.nextNum 11 d
     d.length = 64 ∧ tabFind State.reset.queues.staging (1024 + 100) = none ∧ taskCheck State.reset x = none ∧
        fld State.reset (R.PART_STAT.TASKS 11) < 256 ∧ State.reset.sched.fell = [] ∧ x.waitEn = false) ∧
      (let x := parseTask State.reset.sched.nextNum 11 (bytesLE 4 (3 * 2 ^ 16) ++ List.replicate 60 0)
       x.statusGa = 0 ∧ x.cls = 3) :=
  ⟨⟨by decide, by decide, by decide, by decide, by decide, by decide⟩, by decide, by decide⟩

theorem witness_SchedulersRunTasks_dispatch :
    GoesFirst (siteWith (task id)) 0 (task id) (fun _ => True) ∧ coreFree (siteWith (task id)) 0 0 = true ∧
      (∀ d, d < 0 → coreFree (siteWith (task id)) 0 d = false) ∧ NoneWaits (siteWith (task id)) 0 ∧ (core (siteWith (task id)) 0).asyncs = [] :=
  ⟨alone_first rfl rfl rfl trivial, by decide +kernel, by decide, by
    intro p hp
    exact absurd hp List.not_mem_nil, by decide +kernel⟩

/-- The last core, in partition 11, runs a serving task whose status record goes to the top of LP5X. -/
def ending : State :=
  let x := task (fun t => { t with part := 11, cls := 1, statusGa := lp5xEnd - 8, st := .running 95 })
  { State.reset with
    sched := { Sched.reset with tasks := [x] }
    cores := [(95, { running.setSys R.LEASH_CTL.EN 1 with task := some 0, abortCause := some 17 })] }

theorem witness_SchedulersRunTasks_end :
    (let x := task (fun t => { t with part := 11, cls := 1, statusGa := lp5xEnd - 8, st := .running 95 })
     (core ending 95).task = some x.num ∧ taskNum ending x.num = some x ∧ (core ending 95).claim = none ∧ x.cls ≠ 0 ∧ x.doneEn = false ∧
        x.statusGa = ownGa ending (lp5xEnd - 8) ∧ x.statusGa ≠ 0 ∧ (lp5xEnd - 8) % 8 = 0) ∧
      Lp5xFree ending (lp5xEnd - 8) 8 ∧
      ((core ending 95).sysFlag R.LEASH_CTL.EN = true ∧ (core ending 95).sysFlag R.LEASH_CTL.EXPIRED = false ∧
        due (advance ending 0) ((core ending 95).sysFld R.LEASH_DL.val) = true) :=
  ⟨⟨by decide, by decide, by decide, by decide, by decide, by decide, by decide, by decide⟩,
    ⟨by decide, fun _ _ _ => rfl, by decide, by decide⟩, by decide, by decide, by decide⟩

/-- The worked case of "Scheduling and Batching": at 440 microseconds into a slot, a stage of 640 000 cycles and 8 microseconds with its leash
at 600, a margin of 20 and a lead of 60, whose last task becomes ready at slot end. -/
def tarsk : State :=
  onSched (setCounter
    (regsSet [(R.KSLOT_PHASE.val, 500000), (R.PART_LEDGER.MARGIN 0, 20), (R.PART_LEDGER.LEAD 0, 60), (R.PART_LEDGER.DROOP_ALLOW 0, 4)]
      (siteWith (task (fun t => { t with leashEn := true, leash := 600000, costCycles := 640000, costNs := 8000, st := .waiting }))))
    (440000 * 2 ^ 24)) (fun d => { d with begun := [0] })

/-- P is 646.35 microseconds with 8 cores and 577.17 with 16; with 8 the stage is predicted to miss, and with 15. -/
theorem test_ledger_worked_case :
    (let l := stageTasks tarsk 0 0 0
     let own := List.replicate 8 ((0 : Int), divShare 2)
     let lent (n : Nat) := List.replicate n ((12000 : Int), divShare 2)
     (finishAt tarsk 0 l own).map (fun x => (x + 440000 + 5) / 10) = some 64635 ∧
        (finishAt tarsk 0 l (own ++ lent 8)).map (fun x => (x + 440000 + 5) / 10) = some 57717 ∧
        misses tarsk 0 0 0 own = true ∧ misses tarsk 0 0 0 (own ++ lent 8) = false ∧ misses tarsk 0 0 0 (own ++ lent 7) = true) := by
  decide +kernel

theorem witness_ClaimsBorrowCores_ledger :
    (let l := stageTasks tarsk 0 0 0
     ledgerEntries tarsk = [(-440000, 160000, 0, 0, 0)] ∧ ownCores tarsk 0 = List.replicate 8 (0, divShare 2) ∧
        (borrowable tarsk 0).take 8 = [8, 9, 10, 11, 12, 13, 14, 15] ∧ stageStart tarsk l ≤ 1000 * (fld tarsk (R.PART_LEDGER.LEAD 0) : Int)) := by
  decide +kernel

/-- A core that is claimed, and one that has yielded with its rows stopped, for a radio task whose image is 256 units at 0. -/
def borrowed (yielded : Bool) : State :=
  let x := task (fun t => { t with imageUnits := 256 })
  { siteWith x with cores := [(8, { running with
      pc := 0x17FF8, claim := some ⟨0, 0, 0, yielded, false⟩, run := if yielded then .yielded else .running
      lanes := { Lanes.reset with stopped := yielded } })] }

theorem witness_ClaimsBorrowCores_claim :
    ((core (borrowed false) 8).claim = some ⟨0, 0, 0, false, false⟩ ∧ flag (borrowed false) R.PWR_STATE.SHED = false ∧
        (core (borrowed false) 8).pc + 8 < 2 ^ 32) ∧
      ((core (borrowed true) 8).claim = some ⟨0, 0, 0, true, false⟩ ∧ (core (borrowed true) 8).held = none ∧
        (core (borrowed true) 8).lanes.stopped = true) ∧
      GoesFirst (borrowed true) 0 (task (fun t => { t with imageUnits := 256 })) (fun y => y.cls = 0) ∧
      (task (fun t => { t with imageUnits := 256 })).imageGa = ownGa (borrowed true) 0 ∧ Lp5xFree (borrowed true) 0 (128 * 256) :=
  ⟨⟨by decide, by decide +kernel, by decide⟩, ⟨by decide, by decide, by decide⟩, alone_first rfl rfl rfl (by decide), by decide +kernel,
    by decide, fun _ _ _ => rfl, by decide, by decide⟩

/-- The stage of a ready task that every borrowable core together cannot finish in time. -/
def hopeless : State :=
  onSched (siteWith (task (fun t => { t with leashEn := true, leash := 1, costCycles := 640000 }))) (fun d => { d with begun := [0] })

theorem witness_ClaimsBorrowCores_fallback :
    (ledgerEntries hopeless ≠ [] ∧ (∀ n, n ≤ (borrowable hopeless 0).length →
        misses hopeless 0 0 0 (ownCores hopeless 0 ++ ((borrowable hopeless 0).take n).map (fun e => ((12000 : Int), coreShare hopeless e))) = true)) := by
  decide +kernel

/-! ### Hypotheses met: the pool, the radio, the Weave fabric -/

/-- Bytes stored into empty memory. -/
def stored (l : List (Nat × List Byte)) : List Host.Cell :=
  memApply (l.flatMap (fun p => (List.range p.2.length).map (fun j => (p.1 + j, p.2.getD j 0)))) []

/-- Table 63 of one row, its directory at 0x1000 and its heap at 0x2000, with a directory entry; slot 63 is bound by partition 11 at the
generation 1. -/
def pooled (e : Entry) (f : PoolSt → PoolSt) : State :=
  regsSet [(R.TD_CTL.EN 63, 1), (R.TD_ROWS.val 63, 1), (R.TD_DIR.val 63, 1), (R.TD_HEAP.val 63, 256), (R.BIND_CFG.EN 63, 1),
      (R.BIND_CFG.PART 63, 11), (R.BIND.GEN 63, 1), (R.POOL_GEN.val, 1)]
    { State.reset with mem := stored [(0x1000, e.bytes)], pool := f PoolSt.reset, syncs := [(16383, semaphore 0xFFFFFFFE [])] }

/-- An owner's entry whose current version lies in slot 5. -/
def owned : Entry := ⟨5, true, false, 1, false, 1, 0, 0⟩

/-- A range of LP5X in a chip without retired pages and copies. -/
theorem sound_of {s : State} {a n : Nat} (h : a + n ≤ lp5xEnd) (hp : s.marks.pages = []) (hd : s.coh.dir = []) (hs : s.coh.serving = [])
    (ho : poisoned s a n = false) (hq : s.posted = [] := by rfl) : Lp5xSound s a n :=
  ⟨⟨h, fun x _ _ => by rw [hp]; rfl, hd, hs, hq⟩, ho⟩

/-- A LOOKUP of one row by partition 11: indices at 0x3000, output at 0x4000, record at 0x5000. -/
def lookupDesc : List Byte :=
  bytesLE 4 (63 + 2 ^ 8 * 63 + 2 ^ 16) ++ bytesLE 4 1 ++ bytesLE 8 0x3000 ++ bytesLE 8 0x4000 ++ bytesLE 8 0 ++ bytesLE 8 0x5000 ++
    List.replicate 24 0

def lookupBatch : Batch := ⟨0, 11, lookupDesc, none, [], [], [], [], none⟩

theorem witness_LookupsAndBindings_bind :
    (pooled owned id).Inv ∧ (pooled owned id).pool.batches.length ≤ 1 ∧ flag (pooled owned id) (R.BIND_CFG.EN 63) = true ∧
      fld (pooled owned id) (R.BIND_CFG.PART 63) = 11 ∧ 0x5000 % 16 = 0 ∧ Lp5xFree (pooled owned id) 0x5000 16 ∧
      CanSignal (pooled owned id) true 16383 :=
  ⟨⟨by decide, by decide⟩, by decide, by decide, by decide, by decide, (sound_of (by decide) rfl rfl rfl (by decide)).1,
    fun _ => ⟨by decide, by decide, by decide, by decide⟩⟩

theorem witness_LookupsAndBindings_row :
    dirEntry (pooled owned id) 63 0 = owned ∧ owned.role = 1 ∧ owned.select 1 = some 5 ∧ 0 < tdRows (pooled owned id) 63 ∧
      (pooled owned id).pool.unavail.contains (256 * 63 + shardOf (pooled owned id) 63 0) = false ∧
      Lp5xSound (pooled owned id) (dirAddr (pooled owned id) 63 0) 16 ∧
      Lp5xSound (pooled owned id) (slotAddr (pooled owned id) 63 5) (tdRowBytes (pooled owned id) 63) ∧
      flag (pooled owned id) (R.TD_CTL.WATCH 63) = false ∧ (pooled owned id).pool.sample < 15 ∧ (pooled owned id).pool.later = [] ∧
      (pooled owned id).pool.batches = [] :=
  ⟨by decide, by decide, by decide, by decide, by decide, sound_of (by decide) rfl rfl rfl (by decide),
    sound_of (by decide) rfl rfl rfl (by decide), by decide, by decide, by decide, by decide⟩

theorem witness_LookupsAndBindings_lookup :
    lookupDesc.length = 64 ∧ lookupBatch.op = 0 ∧ lookupBatch.refusal (pooled owned id) = none ∧ lookupBatch.count = 1 ∧
      lookupBatch.fmt = 0 ∧ lookupBatch.table = 63 ∧ lookupBatch.idxGa = ownGa (pooled owned id) 0x3000 ∧
      Lp5xSound (pooled owned id) 0x3000 4 ∧ numLE (memBytes (pooled owned id) 0x3000 4) = 0 ∧ lookupBatch.gen = 1 ∧
      lookupBatch.outGa 0 = ownGa (pooled owned id) 0x4000 :=
  ⟨by decide, by decide, by decide, by decide, by decide, by decide, by decide, sound_of (by decide) rfl rfl rfl (by decide), by decide,
    by decide, by decide⟩

/-- That batch with its row asked of another chip, and with both a failed row and the rest done. -/
def sentBatch : Batch := { lookupBatch with idx := some [0], sent := [0] }
def failedBatch : Batch := { lookupBatch with idx := some [0, 0], failed := [(1, 5), (0, 3)] }

theorem witness_LookupsAndBindings_done :
    (sentBatch.sent.contains 0 = true ∧ tabFind sentBatch.got 0 = none ∧ sentBatch.fmt = 0 ∧
        sentBatch.outGa 0 = ownGa (pooled owned (fun p => { p with batches := [sentBatch] })) 0x4000) ∧
      (failedBatch.todo = [] ∧ failedBatch.sent = [] ∧ failedBatch.whole = none ∧
        ((0, 3) ∈ failedBatch.failed ∧ ∀ y, y ∈ failedBatch.failed → y ≠ (0, 3) → 0 < y.1) ∧
        failedBatch.statusGa = ownGa (pooled owned id) 0x5000 ∧ CanSignal (pooled owned id) failedBatch.doneEn failedBatch.doneSync) :=
  ⟨⟨by decide, by decide, by decide, by decide⟩, by decide, by decide, by decide, ⟨by decide, by decide⟩, by decide,
    fun h => absurd h (by decide)⟩

theorem witness_PoolIsKept_skew :
    (2047 < 2048 ∧ (pooled owned id).pool.overload = [] ∧
        ∀ u, u < 64 → flag (pooled owned (fun p => { p with policy := [(63, 4)] })) (R.TD_CTL.EN u) = true →
          skewOff (pooled owned (fun p => { p with policy := [(63, 4)] })) u 2 = true) ∧
      (let s := pooled owned (fun p => { p with policy := [(63, 4)], overload := [(63, 4)] })
       (∀ u, u < 64 → (flag s (R.TD_CTL.EN u) = true ↔ u = 63)) ∧ s.pool.overload = [(63, 4)] ∧ s.pool.seen = [] ∧ skewOff s 63 1 = false ∧
         skewOff s 63 2 = true ∧ 5 * (10 + 0) < 8 * 10 ∧ shardOwner s 63 0 = 0) :=
  ⟨⟨by decide, by decide, by decide +kernel⟩, by decide +kernel, by decide, by decide, by decide, by decide, by decide, by decide⟩

/-- A former owner's entry, a replica's, and one whose previous version is below the floor. -/
def former : Entry := ⟨5, true, false, 0, true, 1, 0, 0⟩
def replica : Entry := ⟨5, true, false, 2, false, 1, 0, 0⟩
def superseded : Entry := ⟨5, true, true, 1, false, 1, 6, 0⟩

theorem witness_PoolIsKept_moves :
    (chipId (pooled owned id) ≠ 15 ∧ dirAddr (pooled owned id) 63 0 + 16 * tdRows (pooled owned id) 63 ≤ lp5xEnd ∧
        featOn (pooled owned id) 3 = true ∧ Lp5xSound (pooled owned id) (dirAddr (pooled owned id) 63 0) 16) ∧
      (chipId (pooled former id) = 0 ∧ dirEntry (pooled former id) 63 0 = former ∧ former.former = true ∧ former.curValid = true ∧
        former.prevValid = false ∧ former.curGen ≤ lowGen (pooled former id)) ∧
      (dirEntry (pooled superseded id) 63 0 = superseded ∧ superseded.curGen ≤ [1].foldl min (lowGen (pooled superseded id)) ∧
        Lp5xSound (pooled superseded id) (dirAddr (pooled superseded id) 63 0) (16 * tdRows (pooled superseded id) 63)) ∧
      (dirEntry (pooled replica id) 63 0 = replica ∧ replica.role = 2 ∧ replica.curValid = true ∧ replica.prevValid = false ∧
        fld (pooled replica id) (R.TD_STATE.STATE 63) ≠ 2 ∧ (pooled replica id).pool.repl = [] ∧ (pooled replica id).pool.recopy = [] ∧
        Lp5xFree (pooled replica id) (slotAddr (pooled replica id) 63 replica.curSlot) (tdRowBytes (pooled replica id) 63)) :=
  ⟨⟨by decide, by decide, by decide, sound_of (by decide) rfl rfl rfl (by decide)⟩,
    ⟨by decide, by decide, by decide, by decide, by decide, by decide +kernel⟩,
    ⟨by decide, by decide +kernel, sound_of (by decide) rfl rfl rfl (by decide)⟩, by decide, by decide, by decide, by decide, by decide,
    by decide, by decide, (sound_of (by decide) rfl rfl rfl (by decide)).1⟩

/-- A chip whose radio links run, with one receive buffer at 0x8000 and one transmit buffer there too, and objects 1 and 2 as given. -/
def radio (free done : Nat) : State :=
  regsSet [(R.KCTL.RX_EN, 1), (R.KCTL.TX_EN, 1), (R.JRX_CTL.EN, 1), (R.JTX_CTL.EN, 1), (R.JRX_CTL.MODE, 3), (R.JRX_STAT.LINK_UP, 1),
      (R.JRX_STAT.LANE_LOCK, 128), (R.RXB_SYNC.FREE_SYNC, 1), (R.RXB_SYNC.SYM_SYNC, 2), (R.TXB_SYNC.FREE_SYNC, 2), (R.TXB_SYNC.READY_SYNC, 1),
      (R.RXB.val 0, 0x8000), (R.TXB.val 0, 0x8000)]
    { State.reset with
      mem := stored [(0x8000, bytesLE 8 (7 + 2 ^ 32 * 13))], syncs := [(1, semaphore free []), (2, semaphore done [])] }

theorem witness_RadioLinksAndSymbols_links :
    (let s := regsSet [(R.JRX_CTL.EN, 1)] State.reset
     linkHeld s 2 0 = false ∧ flag s R.JRX_CTL.EN = true ∧ 0 < (jmode (fld s R.JRX_CTL.MODE)).lanes) ∧
      (bitOf (fld (radio 1 0) R.JRX_STAT.LANE_LOCK) 7 = true ∧ flag (radio 1 0) R.JRX_STAT.LINK_UP = true) ∧
      (let s := regsSet [(R.JRX_CTL.EN, 1), (R.JRX_STAT.LANE_LOCK, 1)] State.reset
       0 < (jmode (fld s R.JRX_CTL.MODE)).lanes ∧ ∀ i, i < (jmode (fld s R.JRX_CTL.MODE)).lanes → bitOf (fld s R.JRX_STAT.LANE_LOCK) i = true) :=
  ⟨by decide, by decide, by decide⟩

theorem witness_RadioLinksAndSymbols_symbols :
    (flag (radio 1 0) R.KCTL.RX_EN = true ∧ flag (radio 1 0) R.JRX_CTL.EN = true ∧ flag (radio 1 0) R.JRX_STAT.LINK_UP = true ∧
        (radio 1 0).radio.bad = [] ∧ 0 < (syncObj (radio 1 0) (fld (radio 1 0) R.RXB_SYNC.FREE_SYNC)).value) ∧
      FreeSemaphore (radio 1 0) (fld (radio 1 0) R.RXB_SYNC.FREE_SYNC) ∧ FreeSemaphore (radio 1 0) (fld (radio 1 0) R.RXB_SYNC.SYM_SYNC) ∧
      rxBuf (radio 1 0) (radio 1 0).radio.rxNext = ownGa (radio 1 0) 0x8000 ∧ 0x8000 % 128 = 0 ∧
      Lp5xSound (radio 1 0) 0x8000 (128 + 2 * blkBytes (fld (radio 1 0) R.KCTL.BW)) ∧
      FreeSemaphore (radio 0 0) (fld (radio 0 0) R.RXB_SYNC.FREE_SYNC) ∧
      (flag (radio 1 0) R.KCTL.TX_EN = true ∧ flag (radio 1 0) R.JTX_CTL.EN = true ∧ 2 < fld (radio 1 0) R.JRX_CTL.MODE ∧
        txBuf (radio 1 0) (radio 1 0).radio.txNext = ownGa (radio 1 0) 0x8000 ∧ numLE (memBytes (radio 1 0) 0x8000 4) = 7 ∧
        numLE (memBytes (radio 1 0) (0x8000 + 4) 4) % 16 = 13) :=
  ⟨by decide, by unfold FreeSemaphore; decide, by unfold FreeSemaphore; decide, by decide, by decide,
    sound_of (by decide) rfl rfl rfl (by decide +kernel), by unfold FreeSemaphore; decide, by decide⟩

/-- A chip at slot 19 (or another) with its clock stopped at a boundary, and a pending uplink map of ID 0 for the frame that begins. -/
def boundary (slot pending : Nat) : State :=
  regsSet [(R.KSLOT_NUM.val, slot), (R.KMAP_PEND.VALID 0, pending), (R.KMAP_PEND.TARGET 0, 1), (R.JSYSREF.PERIODIC, 1)]
    { State.reset with time := { TimeSt.reset with running := true } }

theorem witness_SlotBoundariesAdvance :
    (flag State.reset R.KCTL.RX_EN = false ∧ flag State.reset R.KCTL.TX_EN = false) ∧ flag (radio 1 0) R.KCTL.RX_EN = true ∧
      (let s := advance (boundary 19 1) 0
       due s (fld s R.KSLOT_PHASE.val) = true ∧ QuietBoundary s ∧ flag s (R.KMAP_PEND.VALID 1) = false ∧ flag s (R.KMAP_PEND.VALID 0) = true ∧
         (fld s R.KSLOT_NUM.val + 1) % 20 = 0 ∧ fld s (R.KMAP_PEND.ID 0) = 0) ∧
      due (regsSet [(R.KSLOT_PHASE.val, 500000)] State.reset) 500000 = false :=
  ⟨by decide, by decide,
    ⟨by decide,
      ⟨by decide, by decide, by decide, by decide, by decide, by decide, by decide, by decide, by decide +kernel, by decide +kernel,
        fun _ h => absurd h List.not_mem_nil, by decide +kernel, by decide, by decide⟩,
      by decide, by decide, by decide, by decide⟩, by decide⟩

theorem witness_MapsAndWhispers_maps :
    (radioPageOpen State.reset .warden = true ∧ flag State.reset R.KMAP_RESULT.BUSY = false) ∧
      (mapInUse State.reset 255 = false ∧ Lp5xSound State.reset (mapAddr State.reset 255) 256) ∧
      mapVerified State.reset 255 = false ∧ mapVerified (regsSet [(⟨(R.KMAP_VERIFIED.val 7).off, 31, 31⟩, 1)] State.reset) 255 = true :=
  ⟨by decide, ⟨by decide, sound_of (by decide) rfl rfl rfl (by decide)⟩, by decide, by decide⟩

/-- A chip in WATCH that listens on channel 15 at SF 13, two windows into a search. -/
def listening : State :=
  regsSet [(R.WCTL.EN, 1), (R.JRX_STAT.LINK_UP, 1), (R.WCH.EN 15, 1), (R.WCH.SFMASK 15, 128), (R.PWR_STATE.STATE, 3)]
    { State.reset with radio := { RadioSt.reset with search := [(16 * 15 + 13, ⟨2, 0, 0, 0, 0, 0⟩)] } }

theorem witness_MapsAndWhispers_whispers :
    flag listening R.WCTL.EN = true ∧ flag listening R.JRX_STAT.LINK_UP = true ∧ flag listening (R.WCH.EN 15) = true ∧
      bitOf (fld listening (R.WCH.SFMASK 15)) (13 - 6) = true ∧ outOfBand listening 15 = false ∧ fld listening R.PWR_STATE.STATE = 3 ∧
      (tabFind listening.radio.search (16 * 15 + 13)).isSome = true := by
  decide

theorem witness_DecoderMessagesAndConvergence :
    2 ≤ ([12, -8] : List Int).length ∧ ([20, 20] : List Nat).length = ([12, -8] : List Int).length ∧
      (∀ x, x ∈ ([12, -8] : List Int) → x.natAbs ≤ 127) := by
  decide

/-- The worked message of "The Learned Receiver and the Weave Fabric": (12 × 20 + 8) >> 4 = 15. -/
theorem test_ldpc_message : (checkMsgs [20, 20] [127, 12]).getD 0 0 = 15 := by decide

/-- An instance 1 that holds plane 0 with one configuration (KB-A at lift 16, P 2, one iteration), bound to slot 0. -/
def tiny : List Byte := bytesLE 2 (2 * 2 ^ 5) ++ List.replicate 30 20

/-- A descriptor of one LLR: word 0, and a record at 0x100. -/
def codeword (w0 : Nat) (block : Nat) : CwItem :=
  ⟨none, bytesLE 16 w0 ++ bytesLE 8 1 ++ bytesLE 8 0x40 ++ bytesLE 8 0x100 ++ List.replicate 24 0, block⟩

/-- The chip with that instance as given, the time before the decode deadline of slot 0. -/
def weaving (f : Weave → Weave) : State :=
  regsSet [(R.WV_CTL.EN 1, 1), (R.WV_CTL.SCRUB_EN 1, 1)]
    { State.reset with weave := [(1, f { Weave.reset with planes := [(0, ⟨0, 1, [], [tiny]⟩)], bound := [(0, 0)] })] }

/-- A block of two codewords. -/
def block2 (n : Nat) (segs : List (List Byte)) : WBlock := ⟨0, 2, 0, n, [], false, 0, 0, false, segs⟩

theorem packBits_length (l : Array Int) (n : Nat) : (packBits l n).length = n := by simp [packBits]

theorem witness_WeaveServesCodewords_submit :
    (weavePageOpen (weaving id) .warden = true ∧ weavePowered (weaving id) 1 = true ∧
        tabFind (weaving id).queues.staging (1024 * (3 + 2 * 1) + stageSrc (weaving id) .warden) = none ∧ (weave (weaving id) 1).ctx = none ∧
        (codeword 0 0).desc.length = 64 ∧ (codeword 0 0).cw = 0 ∧ (codeword 0 0).c ≤ 16 ∧ (weave (weaving id) 1).fifo.length < 256) ∧
      ((codeword (2 ^ 11) 0).cw = 0 ∧ 2 ≤ (codeword (2 ^ 11) 0).c ∧
        256 ≤ (weave (weaving (fun v => { v with fifo := List.replicate 256 (codeword 0 0) })) 1).fifo.length) ∧
      (let s := weaving (fun v => { v with ctx := some 0, blocks := [block2 1 []], next := 1 })
       (weave s 1).ctx = some 0 ∧ weaveBlock s 1 0 = some (block2 1 []) ∧ (block2 1 []).c = (codeword (2 ^ 11 + 2 ^ 4) 0).c ∧
         (block2 1 []).next = (codeword (2 ^ 11 + 2 ^ 4) 0).cw ∧ (block2 1 []).slot = (codeword (2 ^ 11 + 2 ^ 4) 0).slot ∧
         (codeword (2 ^ 11 + 2 ^ 4) 0).cw < (codeword (2 ^ 11 + 2 ^ 4) 0).c) := by
  decide +kernel

theorem witness_WeaveServesCodewords_decode :
    (let s := weaving (fun v => { v with fifo := [codeword 0 0] })
     (weave s 1).cur = none ∧ (weave s 1).fifo = [codeword 0 0] ∧ flag s (R.WV_CTL.EN 1) = true ∧ weavePowered s 1 = true ∧
       flag s R.PWR_STATE.SHED = false ∧ (weaveBlock s 1 0).any (fun b => b.skip) = false ∧ (codeword 0 0).llrGa = ownGa s 0 ∧
       codewordCheck s 1 (codeword 0 0) = .inr (0, tiny) ∧ due s ((codeword 0 0).deadline s) = false) ∧
      Lp5xSound (weaving (fun v => { v with fifo := [codeword 0 0] })) 0 (codeword 0 0).e ∧
      ((codeword (2 ^ 11 + 15) 0).cw + 1 ≠ (codeword (2 ^ 11 + 15) 0).c ∧
        codewordCheck (weaving id) 1 (codeword (2 ^ 11 + 15) 0) = .inl 4 ∧ codewordCheck (weaving id) 1 (codeword (2 ^ 11) 0) = .inr (0, tiny)) :=
  ⟨by decide +kernel, sound_of (by decide) rfl rfl rfl (by decide), by decide +kernel⟩

/-- The same with a codeword in progress. -/
def decoding (w0 : Nat) : State :=
  weaving (fun v => { v with
    fifo := [codeword w0 0], cur := some ⟨codeword w0 0, 0, tiny, [7]⟩, blocks := [{ block2 1 [] with c := (codeword w0 0).c }] })

theorem witness_WeaveServesCodewords_end :
    ((weave (decoding 0) 1).cur = some ⟨codeword 0 0, 0, tiny, [7]⟩ ∧ bitOf (fld (decoding 0) (R.WV_PSTAT.FAILED 1)) 0 = false ∧
        (codeword 0 0).outGa = ownGa (decoding 0) 0x40 ∧ (codeword 0 0).cw = 0 ∧ (codeword 0 0).c = 1 ∧
        weaveBlock (decoding 0) 1 0 = some { block2 1 [] with c := 1 } ∧ (codeword 0 0).recGa = ownGa (decoding 0) 0x100 ∧ 0x100 % 16 = 0 ∧
        (codeword 0 0).doneEn = false) ∧
      Lp5xFree (decoding 0) 0x40 (packBits (ldpcRun tiny 0 [7] none).l ((cfgK tiny - 0) / 8)).length ∧ Lp5xFree (decoding 0) 0x100 16 ∧
      (codeword (2 ^ 11) 0).cw + 1 ≠ (codeword (2 ^ 11) 0).c :=
  ⟨by decide +kernel, by rw [packBits_length]; exact (sound_of (by decide) rfl rfl rfl (by decide)).1,
    (sound_of (by decide) rfl rfl rfl (by decide)).1, by decide⟩

/-- A deadline is passed at 1200 microseconds and not before. -/
theorem witness_WeaveServesCodewords_deadline :
    (let s := advance (setCounter (decoding (2 ^ 11)) (2 ^ 24 * 700000)) 0
     due s ((codeword (2 ^ 11) 0).deadline s) = true ∧ (weave s 1).fifo.length ≤ 1) ∧
      due (advance (decoding 0) 0) ((codeword 0 0).deadline (advance (decoding 0) 0)) = false ∧
      (let s := setCounter (weaving (fun v => { v with bound := [], fifo := [codeword (2 ^ 11) 0] })) (2 ^ 24 * 700000)
       (weave s 1).cur = none ∧ slotPlane s 1 (codeword (2 ^ 11) 0).slot = none ∧ due s ((codeword (2 ^ 11) 0).deadline s) = true ∧
         (weaveBlock s 1 0).any (fun b => b.skip) = false) ∧
      (let s := weaving id
       tabFind (weave s 1).planes 0 = some ⟨0, 1, [], [tiny]⟩ ∧ flag s (R.WV_CTL.SCRUB_EN 1) = true ∧
         (let g := cellFrame [] 0
          g ≠ bytesLE 16 (2 ^ 29) ∧ canonFrame g = canonFrame (bytesLE 16 (2 ^ 29)) ∧ canonFrame g ≠ canonFrame (bytesLE 16 1))) ∧
      flag (regsSet [(R.WV_CTL.SCRUB_EN 1, 0)] State.reset) (R.WV_CTL.SCRUB_EN 1) = false := by
  decide +kernel

/-! ### Hypotheses met: time, links, the domain -/

/-- A chip whose clock runs, a little before a wrap, or before HALF rises with a wrap pending. -/
def clocked (l : List (Fld × Nat)) : State := regsSet l { State.reset with time := { TimeSt.reset with running := true } }

theorem witness_ClockIsDisciplined :
    (let s := clocked [(R.TIME_NS.NS, 0xFFFFFFFF)]
     s.time.frac < 2 ^ 24 ∧ s.events.length < 256 ∧ s.time.running = true ∧ s.time.slew = 0 ∧ 0x0410AAAB ≤ s.time.inc ∧ s.time.inc ≤ 0x0412AAAB ∧
       flag s R.TIME_STAT.WRAP_PENDING = false) ∧
      (let s := clocked [(R.TIME_NS.NS, 0x7FFFFFFF), (R.TIME_STAT.WRAP_PENDING, 1)]
       flag s R.TIME_STAT.WRAP_PENDING = true ∧ counter s < 2 ^ 55) ∧
      timeReader .host = true ∧ timeReader (.dma 0) = false ∧ State.reset.flash.refused = none ∧
      (¬ (0x0410AAAB ≤ (0x0412AAAC : BitVec 32).toNat ∧ (0x0412AAAC : BitVec 32).toNat ≤ 0x0412AAAB)) ∧
      (0x0410AAAB ≤ (0x0410AAAB : BitVec 32).toNat ∧ (0x0410AAAB : BitVec 32).toNat ≤ 0x0412AAAB) ∧
      radioOff State.reset = true ∧ radioOff (clocked [(R.KCTL.RX_EN, 1)]) = false ∧ State.reset.time.heldSlew = none := by
  decide

theorem witness_ClockIsChecked_pulses :
    (flag State.reset R.PPS_OUT_CTL.EN = false) ∧
      (let s := advance (clocked [(R.PPS_OUT_CTL.EN, 1), (R.PPS_OUT_PERIOD.PERIOD, 1000000)]) 0
       flag s R.PPS_OUT_CTL.EN = true ∧ due s (fld s R.PPS_OUT_NEXT.val) = true ∧ 1000000 ≤ fld s R.PPS_OUT_PERIOD.PERIOD ∧
         fld s R.PPS_OUT_PERIOD.PERIOD < 2 ^ 31) ∧
      (let s := advance (clocked [(R.PPS_IN_CTL.EN, 1), (R.PPS_IN_CTL.PERIOD_MS, 1), (R.TIME_NS.NS, 1500000)]) 0
       flag s R.PPS_IN_CTL.EN = true ∧ flag s R.PPS_IN_CTL.LOST = false ∧
         3000000 * fld s R.PPS_IN_CTL.PERIOD_MS ≤ 2 * (extTime s - s.time.lastEdge.getD 0)) ∧
      (let s := clocked [(R.PPS_IN_CTL.EN, 1)]
       flag s R.PPS_IN_CTL.EN = true ∧ flag s R.PPS_IN_CTL.FALLING = false ∧ s.time.lastEdge = none) := by
  decide

/-- A chip of a domain of the chips 0 to 2: this is chip `own`, which sees chip 1 - `own` at port 0; chip 2 is out of sight. -/
def member (own : Nat) (l : List (Fld × Nat)) : State :=
  regsSet ([(R.ADR_CHIP.ID, own), (R.ADR_CHIP.SELF_STATE, 2), (R.ADR_MEMBERS.CURRENT, 7), (R.ADR_MEMBERS.CONFIGURED, 7), (R.ADR_LEADER.LEADER, 0),
      (R.ADR_LEADER.LEADER_VALID, 1), (R.ADR_LEADER.QUORUM, 1), (R.ADR_PSTAT.STATE 0, 2), (R.ADR_PSTAT.PEER_VALID 0, 1),
      (R.ADR_PSTAT.PEER_CHIP 0, 1 - own)] ++ l)
    { State.reset with
      domain := { Domain.reset with block := some [], own := own, reach := [(1 - own, 2 ^ own)] }, coh := { Coh.reset with dir := [(7, .excl 2)] } }

theorem witness_ClockIsChecked_checks :
    (let s := advance (member 1 [(R.TCHK_CTL.EN, 1)]) 0
     flag s R.TCHK_CTL.EN = true ∧ selfState s = 2 ∧ isLeader s = false ∧ flag s R.ADR_LEADER.LEADER_VALID = true) ∧
      isLeader (member 0 []) = true ∧
      (let s := member 1 [(R.TCHK_CTL.EN, 1), (R.TIME_NS.NS, 10000000), (R.TIME_STAT.TIME_SUSPECT, 1)]
       s.time.lastCheck + 10000000 ≤ extTime s ∧ flag s R.TIME_STAT.TIME_SUSPECT = true) ∧
      flag (member 1 []) R.TIME_STAT.TIME_SUSPECT = false ∧
      ([(5, 7, 0)] : List (Nat × Nat × Nat)).find? (fun x => x.1 = 5) = some (5, 7, 0) := by
  decide

/-- A third check beyond 1000 ns, and a sixteenth within 500 ns. -/
theorem witness_ClockIsChecked_suspect :
    (3 ≤ (if 1000 < (divHalfEven ((signed 32 (5000000 + 2 ^ 32 - 0) - 0) - signed 32 (0 + 2 ^ 32 - 0)) 2).natAbs then 2 + 1 else 0)) ∧
      (16 ≤ (if (divHalfEven ((signed 32 (220 + 2 ^ 32 - 0) - 0) - signed 32 (140 + 2 ^ 32 - 0)) 2).natAbs ≤ 500 then 15 + 1 else 0)) ∧
      16 ≤ 15 + 1 := by
  decide

/-- A port in a state, with a flit of the replay buffer where asked. -/
def ported (st : Nat) (f : Port → Port) (l : List (Fld × Nat)) : State :=
  regsSet ((R.ADR_PSTAT.STATE 7, st) :: l) { State.reset with ports := [(7, f Port.reset)], domain := { Domain.reset with block := some [] } }

theorem witness_LinksTrain :
    (portState (ported 1 id []) 7 = 1 ∧ putBits (port (ported 1 id []) 7).lanes 3 3 1 ≠ 15 ∧
        putBits (port (ported 1 (fun x => { x with lanes := 7 }) []) 7).lanes 3 3 1 = 15 ∧
        wantWidth 15 (fld (ported 1 id []) (R.ADR_PCTL.WIDTH_MAX 7)) = some 0 ∧ wantWidth (port (ported 1 id []) 7).lanes 0 = none ∧
        wantWidth 1 2 = some 2) ∧
      ((ported 1 id []).domain.block = some [] ∧ ¬ (blockPort [] 0 7 = (15, 7, true) ∧ blockDie [] 15 = 5)) ∧
      (let b := putBytes (List.replicate 0x210 (0 : Byte)) (0x18 + 16 * 0 + 7) (bytesLE 1 (15 + 16 * 7 + 128))
       blockPort b 0 7 = (15, 7, true) ∧ blockDie b 15 = 0) ∧
      (portState (ported 3 (fun x => { x with replay := [(0, 0)] }) []) 7 = 3 ∧ (port (ported 3 (fun x => { x with replay := [(0, 0)] }) []) 7).txq = [] ∧
        ∀ f, f ∈ ([(0, 0)] : List (Nat × Nat)) → bitsOf f.2 239 236 * 2 ^ 236 + bitsOf f.2 223 0 = f.2) ∧
      portState (ported 2 id []) 7 = 2 ∧
      (let s := ported 3 id [(R.TIME_NS.NS, 1000000)]
       (port s 7).since + 1000000 ≤ extTime (advance s 0) ∧ extTime (advance (ported 3 id []) 0) < (port (ported 3 id []) 7).since + 1000000) ∧
      (let s := ported 0 id [(R.ADR_PCTL.EN 7, 1)]
       portState s 7 = 0 ∧ flag s (R.ADR_PCTL.EN 7) = true ∧ linkHeld s 4 7 = false) ∧ flag (ported 0 id []) (R.ADR_PCTL.EN 7) = false := by
  decide +kernel

/-- A HEAD of a packet without DATA from chip 15 to chip 0, with its CRC. -/
def headFlit : Nat :=
  let body := 15 * 2 ^ 4 + 0x31 * 2 ^ 18 + 2 ^ 32 * 0x90000000000 + 2 ^ 96 + 3 * 2 ^ 236 + 2 ^ 238
  body + 2 ^ 240 * flitCrc 0 body

/-- A packet of the fabric from or to chip 15. -/
def packet (dst src ptype : Nat) (port : Option Nat) (seq : Nat) : Packet :=
  ⟨dst, src, seq, ptype, 5, false, 0x90000000000, bytesLE 16 1, [], port, 0⟩

/-- A port in UP with credits, one packet waiting and a route to chip 15 where asked. -/
def fabric (k : Packet) (l : List (Fld × Nat)) : State :=
  { ported 2 (fun x => { x with credits := [1, 1, 1, 1, 1, 1, 1, 1] }) l with
    fabric := { Fabric.reset with waiting := [k] }, syncs := [(0, semaphore 0 [])] }

theorem witness_LinksDeliverPackets :
    (let x := port (ported 2 (fun x => { x with replay := [(255, 0), (0, 0)] }) []) 7
     x.replay = [(255, 0), (0, 0)] ∧ x.txq = [] ∧ (255 + 256 - 255) % 256 + 1 < x.replay.length ∧ x.replay.length < (1 + 256 - 255) % 256 + 1 ∧
       x.replay ≠ [] ∧ x.resends < 8 ∧ ∀ f, f ∈ x.replay → bitsOf f.2 239 236 * 2 ^ 236 + bitsOf f.2 223 0 = f.2) ∧
      (port (ported 2 (fun x => { x with replay := [(0, 0)], resends := 8 }) []) 7).resends = 8 ∧
      (port (fabric (packet 0 15 0x31 none 0) []) 7).credits.length = 8 ∧
      (flitCrc 0 (headFlit % 2 ^ 240) = bitsOf headFlit 255 240 ∧ bitsOf headFlit 239 238 = 1 ∧ bitsOf headFlit 82 80 = 0 ∧ bitOf headFlit 234 = false ∧
        ptypeOk (bitsOf headFlit 23 18) = true ∧ headFlit < 2 ^ 256) ∧
      (flitCrc 0 ((headFlit + 1) % 2 ^ 240) ≠ bitsOf (headFlit + 1) 255 240 ∧ bitsOf (headFlit + 1) 239 238 = 1) := by
  decide +kernel

theorem test_long_wait_goes_first :
    (let k := packet 15 0 0x31 none 0
     let s := fabric k [(R.ADR_ROUTE.MIN_PORTS 15, 2 ^ 7), (R.TIME_NS.NS, 528)]
     let both (q : Packet) : State := { s with fabric := { s.fabric with waiting := [{ k with at_ := 1 }, q] } }
     (outputBusy (both (packet 15 1 0x31 (some 6) 0)) 7 { k with at_ := 1 }, outputBusy (both (packet 15 1 0x10 (some 6) 0)) 7 k)) = (true, false) := by
  decide +kernel

theorem witness_LinksDeliverPackets_forward :
    (let k := packet 0 15 0x31 (some 7) 0
     let s := fabric k []
     s.fabric.waiting[0]? = some k ∧ k.dst = selfName s ∧ k.seq = tabGet s.fabric.expect (4 * k.src + ptypeVc k.ptype) 0 ∧ s.fabric.early = [] ∧
       portState s 7 = 2 ∧ (port s 7).replay.length < 64 ∧ fieldLE k.inl 0 4 = 1 ∧ (syncObj s 0).en = true) ∧
      (let k := packet 0 15 0x31 none 1023
       512 ≤ (k.seq + 1024 - 0) % 1024 ∧ k.ptype ≠ 0x2B) ∧
      (let k := packet 15 0 0x31 none 0
       let s := fabric k [(R.ADR_ROUTE.MIN_PORTS 15, 2 ^ 7)]
       k.dst ≠ selfName s ∧ k.src = selfName s ∧ unackedOf s k.dst (ptypeVc k.ptype) < 256 ∧ fld s (R.ADR_ROUTE.MIN_PORTS k.dst) = 2 ^ 7 ∧
         0 < (port s 7).credits.getD (ptypeVc k.ptype) 0 ∧ isUnacked s k = false ∧ outputBusy s 7 k = false) ∧
      (let k := packet 15 0 0x31 none 0
       let s := fabric k [(R.ADR_ROUTE.MIN_PORTS 15, 2 ^ 7), (R.TIME_NS.NS, 528)]
       let both (q : Packet) : State := { s with fabric := { s.fabric with waiting := [{ k with at_ := 1 }, q] } }
       let ready (q : Packet) : Bool := windowOpen (both q) k && routePort (both q) k = some (7, false) && routePort (both q) q = some (7, false)
       ready (packet 15 1 0x29 (some 6) 0) = true ∧ ready (packet 15 1 0x31 (some 6) 0) = true ∧ ready (packet 15 1 0x10 (some 6) 0) = true ∧
         nowNs s / 33 * 16 = 256 ∧ (nowNs s - 1) / 33 * 16 < 256 ∧ ptypeVc 0x29 = 1 ∧ ptypeVc 0x10 = 2 ∧ ptypeVc 0x31 = 3) ∧
      (let k := packet 15 0 0x31 none 0
       let s := fabric k []
       windowOpen s k = true ∧ routePort s k = none ∧ hasRoute s k.dst = false ∧ ptypeVc k.ptype ≠ 0) ∧
      (let k := packet 15 0 0x31 none 0
       let s := fabric k [(R.ADR_ROUTE.MIN_PORTS 15, 1)]
       routePort s k = none ∧ hasRoute s k.dst = true) ∧
      tabGet ([(61, 3)] : Tab Nat) (4 * 15 + 1) 0 ≠ 0 := by
  decide +kernel

theorem member_stands : SideStands (member 1 []) := ⟨by decide, by decide, by decide, by decide, by decide +kernel, by decide +kernel⟩

theorem member_quiet (own : Nat) (l : List (Fld × Nat)) (h : (member own l).cores = []) (hs : (member own l).syncs = [])
    (hc : (member own l).coh = { Coh.reset with dir := [(7, .excl 2)] }) (hb : (member own l).pool.batches = []) : QuietPeer (member own l) 2 := by
  have hk : ∀ c, core (member own l) c = Core.reset := fun c => by simp [core, h, tabGet, tabFind]
  refine ⟨.inr ⟨7, by rw [hc], by decide⟩, by rw [hc]; decide, by rw [hc]; decide, fun p hp => ?_, fun c a ha => ?_, hb⟩
  · rw [hs] at hp; exact absurd hp List.not_mem_nil
  · rw [hk] at ha
    rcases ha with ha | ⟨x, hx, _⟩
    · exact absurd ha List.not_mem_nil
    · exact absurd hx (by simp [Core.reset])

theorem witness_MembersJoinAndAgree :
    (SideStands (member 1 []) ∧ 1 = (member 1 []).domain.own) ∧
      (2 ≠ (member 1 []).domain.own ∧ tabGet (member 1 []).domain.reach 2 0 ≠ 1) ∧
      SideStands { member 1 [] with domain := { (member 1 []).domain with reach := tabSet (member 1 []).domain.reach 2 1 } } ∧
      (isLeader (member 0 []) = true ∧ bitOf (fld (member 0 []) R.ADR_MEMBERS.CONFIGURED) 2 = true ∧ 2 ≠ (member 0 []).domain.own ∧
        fld (member 0 []) R.ADR_PROTO.OWN / 256 = fld (member 0 []) R.ADR_PROTO.OWN / 256) ∧
      bitOf (fld (member 0 [(R.ADR_MEMBERS.CURRENT, 3)]) R.ADR_MEMBERS.CURRENT) 2 = false ∧ tabFind ([(2, 5)] : Tab Nat) 2 = some 5 ∧
      (selfState (member 1 [(R.ADR_CHIP.SELF_STATE, 1), (R.TIME_STAT.TIME_SUSPECT, 1)]) = 1 ∧
        0 = fld (member 1 [(R.ADR_CHIP.SELF_STATE, 1)]) R.ADR_LEADER.LEADER) ∧
      (bitOf (fld (member 1 []) R.ADR_MEMBERS.CURRENT) 2 = true ∧ isLeader (member 1 []) = false) ∧ QuietPeer (member 1 []) 2 ∧
      SideStands { member 1 [] with domain := { (member 1 []).domain with left := [2] } } ∧
      selfState (advance (member 1 []) 0) = 2 ∧ fld (member 1 []) R.ADR_PROTO.OWN / 256 ≠ 9 ∧ QuietPeer (member 0 []) 2 :=
  ⟨⟨member_stands, by decide⟩, by decide, ⟨by decide, by decide, by decide, by decide, by decide +kernel, by decide +kernel⟩, by decide, by decide, by decide,
    by decide, by decide, member_quiet 1 [] rfl rfl rfl rfl, ⟨by decide, by decide, by decide, by decide, by decide +kernel, by decide +kernel⟩,
    by decide, by decide, member_quiet 0 [] rfl rfl rfl rfl⟩

/-- A joiner of one chip of the block, admitted. -/
theorem witness_MembersJoinAndAgree_commit :
    (let s := { member 1 [(R.ADR_CHIP.SELF_STATE, 1)] with domain := { (member 1 []).domain with admitted := true } }
     selfState s = 1 ∧ s.domain.admitted = true ∧ s.domain.block = some [] ∧ s.domain.own < 16) ∧
      ∀ t, t < 64 → fieldLE ([] : List Byte) (0x200 + 32 * t) 4 % 2 = 0 := by
  decide +kernel

theorem witness_PeersAreLost :
    (bitOf (fld (member 1 []) R.ADR_MEMBERS.CURRENT) 2 = true ∧ 2 ≠ (member 1 []).domain.own ∧ (member 1 []).events.length < 256) ∧
      QuietPeer (member 1 []) 2 ∧ SideStands (member 1 []) ∧ hasRoute (advance (member 1 []) 0) 2 = false ∧
      (hasRoute (member 1 [(R.ADR_ROUTE.MIN_PORTS 2, 1)]) 2 = true ∧
        ¬ (tabGet (member 1 []).domain.hb 2 0 + 5000000 ≤ extTime (member 1 [(R.ADR_ROUTE.MIN_PORTS 2, 1)]))) ∧
      ((mail State.reset (32 + 15)).reqTail + 2 ^ 16 - (mail State.reset (32 + 15)).reqHead) % 2 ^ 16 < 8 :=
  ⟨by decide, member_quiet 1 [] rfl rfl rfl rfl, member_stands, by decide, by decide, by decide⟩


/-! ### Hypotheses met: host port, Ethernet, flash -/

/-- A host copy descriptor of 64 bytes whose record lies in the last 8 bytes of LP5X; DONE_SYNC names the last object. -/
def hostDesc (w0 : Nat) : List Byte :=
  bytesLE 4 w0 ++ bytesLE 4 16383 ++ bytesLE 8 0x123456789A ++ bytesLE 8 (ownGa State.reset 0x1000) ++ bytesLE 8 15 ++
    bytesLE 8 (ownGa State.reset (lp5xEnd - 8)) ++ List.replicate 24 3

/-- A chip whose channel 7 holds that descriptor. -/
def copyingHost (w0 : Nat) : State :=
  regsSet [(R.HIF_STAT.LINK_UP, 1), (R.HDMA_CFG.EN 7, 1)]
    { State.reset with host := { State.reset.host with hdma := [(7, [hostDesc w0])] }, syncs := [(16383, semaphore 0 [])] }

theorem copy_held (w0 : Nat) (hq : hf (hostDesc w0) 0 4 3 3 = 0) (hr : hf (hostDesc w0) 0x20 6 47 0 = ownGa (copyingHost w0) (lp5xEnd - 8))
    (hc : (hf (hostDesc w0) 4 2 13 0 = 16383)) : CopyHeld (copyingHost w0) 7 (hostDesc w0) (lp5xEnd - 8) :=
  ⟨by decide, rfl, hr, by decide, (sound_of (by decide) rfl rfl rfl rfl).1, fun _ => by rw [hc]; exact ⟨rfl, rfl, rfl, show (0 : Nat) < 2 ^ 32 - 1 by decide⟩, hq⟩

theorem witness_HostPortMovesData_copies :
    CopyHeld (copyingHost 4) 7 (hostDesc 4) (lp5xEnd - 8) ∧ CopyHeld (copyingHost 5) 7 (hostDesc 5) (lp5xEnd - 8) ∧
      (∀ b, b < 8 → b ≠ 7 → hdmaHeld (copyingHost 5) b = []) ∧ (copyingHost 5).posted = [] ∧
      flag (copyingHost 5) R.HIF_STAT.LINK_UP = true ∧
      (hf (hostDesc 4) 0 4 0 0 = 0 ∧ hf (hostDesc 4) 0 4 1 1 = 0 ∧ hf (hostDesc 4) 0x10 6 47 0 = ownGa (copyingHost 4) 0x1000 ∧
        Lp5xSound (copyingHost 4) 0x1000 (hLen (hostDesc 4))) ∧
      (hf (hostDesc 5) 0 4 0 0 = 1 ∧ hf (hostDesc 5) 0 4 1 1 = 0 ∧ Lp5xFree (copyingHost 5) 0x1000 16 ∧ 0x1000 + 16 ≤ lp5xEnd - 8 ∧
        hLen (hostDesc 5) = 16 ∧ hdmaBad (copyingHost 5) 7 (hostDesc 5) = false) ∧
      (hf (hostDesc 2) 0 4 0 0 = 0 ∧ hf (hostDesc 2) 0 4 1 1 = 1 ∧ hLen (hostDesc 2) ≤ 16 ∧ CopyHeld (copyingHost 2) 7 (hostDesc 2) (lp5xEnd - 8)) ∧
      (hdmaBad (copyingHost 3) 7 (hostDesc 3) = true ∧ CopyHeld (copyingHost 3) 7 (hostDesc 3) (lp5xEnd - 8)) :=
  ⟨copy_held 4 (by decide) (by decide) (by decide), copy_held 5 (by decide) (by decide) (by decide), by decide, rfl, by decide,
    ⟨by decide, by decide, by decide, sound_of (by decide) rfl rfl rfl rfl⟩,
    ⟨by decide, by decide, (sound_of (by decide) rfl rfl rfl rfl).1, by decide, by decide, by decide⟩,
    ⟨by decide, by decide, by decide, copy_held 2 (by decide) (by decide) (by decide)⟩,
    by decide, copy_held 3 (by decide) (by decide) (by decide)⟩

/-- A descriptor whose data move at 50 ms, and not before. -/
theorem witness_HostPortMovesData_timeout :
    (let s := setCounter (copyingHost 5) (2 ^ 24 * 50000000)
     tabGet (advance s 0).host.hdmaAt 7 0 + 50000000 ≤ extTime (advance s 0)) ∧
      extTime (advance (copyingHost 5) 0) < tabGet (advance (copyingHost 5) 0).host.hdmaAt 7 0 + 50000000 ∧
      CopyHeld (advance (copyingHost 5) 0) 7 (hostDesc 5) (lp5xEnd - 8) ∧ Lp5xFree (advance (copyingHost 5) 0) 0x1000 16 :=
  ⟨by decide, by decide, ⟨by decide, by decide, by decide, by decide, (sound_of (by decide) rfl rfl rfl rfl).1, fun _ => by decide, by decide⟩,
    (sound_of (by decide) rfl rfl rfl rfl).1⟩

/-- A chip in the root role. -/
def rooted : State := regsSet [(R.HIF_STAT.ROLE, 1)] { State.reset with syncs := [(16383, semaphore 0 [])] }

theorem witness_HostPortMovesData_rest :
    (State.reset.Inv ∧ State.reset.events.length < 256) ∧
      (linkHeld State.reset 0 0 = false ∧
        linkHeld { State.reset with wdn := { State.reset.wdn with prbs := [⟨0, 0, 1, 0, true, true, 0, [], 0, 0⟩] } } 0 0 = true) ∧
      (∀ c, c < 8 → hdmaHeld State.reset c = []) ∧
      (bitOf (reg State.reset (R.PBA.PENDING (127 / 32)).off) (127 % 32) = false ∧
        bitOf (reg (regsSet [(⟨(R.PBA.PENDING 3).off, 31, 31⟩, 1)] State.reset) (R.PBA.PENDING (127 / 32)).off) (127 % 32) = true) ∧
      (hdmaOpen State.reset .warden 7 = true ∧ (hostDesc 0).length = 64 ∧
        tabFind State.reset.queues.staging (1024 * 4 + stageSrc State.reset .warden) = none ∧ flag State.reset (R.HDMA_CFG.EN 7) = false ∧
        (hdmaHeld (copyingHost 5) 7).length < 16 ∧ flag (copyingHost 5) (R.HDMA_CFG.EN 7) = true) ∧
      (Lp5xFree State.reset (lp5xEnd - 16) 16 ∧ rootRole State.reset = false ∧ 0xFFFFFFFF < 2 ^ (30 + State.reset.host.barB) ∧
        flag (regsSet [(R.HIF_CTL.BWIN_LOCAL, 1), (R.HIF_STAT.POOL_READY, 1)] State.reset) R.HIF_CTL.BWIN_LOCAL = true ∧
        flag (regsSet [(R.HIF_CTL.BWIN_LOCAL, 1), (R.HIF_STAT.POOL_READY, 1)] State.reset) R.HIF_STAT.POOL_READY = true ∧
        flag State.reset R.HIF_STAT.POOL_READY = false ∧ State.reset.flash.refused = none) ∧
      (rootRole rooted = true ∧ Lp5xFree rooted (lp5xEnd - 16) 16 ∧ FreeSemaphore rooted 16383) ∧
      (0x9FFFFC < 0x1000000 ∧ 0x9FFFFC % 4 = 0 ∧ hostWritable State.reset 0x9FFFFC = false) :=
  ⟨⟨reset_inv, by decide⟩, ⟨by decide, by decide⟩, by decide, ⟨by decide, by decide⟩, ⟨by decide, by decide, by decide, by decide, by decide, by decide⟩,
    ⟨(sound_of (by decide) rfl rfl rfl rfl).1, by decide, by decide, by decide, by decide, by decide, by decide⟩,
    ⟨by decide, (sound_of (by decide) rfl rfl rfl rfl).1, by decide, by decide, by decide, by decide⟩, by decide⟩

/-- A frame of 64 bytes from an address, with an EtherType. -/
def etherFrame (da ty : Nat) : List Byte := bytesBE 6 da ++ bytesLE 6 0 ++ bytesBE 2 ty ++ bytesBE 2 1 ++ bytesBE 2 100 ++ List.replicate 46 0

/-- A transmit descriptor of a frame of `len` bytes at 0x2000, with the bits of word 2 given. -/
def txDesc (len bits : Nat) : List Byte := bytesLE 8 (ownGa State.reset 0x2000) ++ bytesLE 4 (len + bits) ++ List.replicate 20 0

/-- A chip whose port 1 has a ring with one descriptor, at 0x1000, and a filter that matches every frame. -/
def ringed (r : Nat) (d : List Byte) (l : List (Fld × Nat)) : State :=
  regsSet ([(R.ETH_CTL.EN 1, 1), (R.ETH_CTL.EN 2, 1), (R.ETH_CTL.MAXLEN 1, 1518), (R.ETH_CTL.MAXLEN 2, 1518), (R.ETH_STAT.LINK 1, 1), (R.ETH_STAT.LINK 2, 1),
      (R.RING_CFG.SIZE_LOG2 1 r, 8), (R.RING_BASE.val 1 r, 0x80), (R.RING_TAIL.TAIL 1 r, 0), (R.RING_HEAD.HEAD 1 r, 255),
      (R.FILT_CFG.VALID 1 15, 1), (R.FILT_CFG.RING 1 15, 3)] ++ l)
    { State.reset with mem := memApply ((List.range 32).map (fun j => (0x1000 + j + 32 * 255, d.getD j 0))) [] }

/-- A receive buffer of 64 bytes at 0x4000. -/
def rxDesc : List Byte := bytesLE 8 (ownGa State.reset 0x4000) ++ bytesLE 4 64 ++ List.replicate 20 0

theorem witness_EthernetAndFlash_receive :
    (linkHeld State.reset 1 2 = false ∧ flag State.reset (R.ETH_CTL.EN 1) = false ∧ ∀ r, r < 4 → ringHeld State.reset 1 r = 0) ∧
      (let s := ringed 7 rxDesc []
       flag s (R.ETH_CTL.EN 1) = true ∧ (64 ≤ (etherFrame 1 0x0800).length ∧ (etherFrame 1 0x0800).length ≤ fld s (R.ETH_CTL.MAXLEN 1)) ∧
         ¬ (64 ≤ ([] : List Byte).length ∧ ([] : List Byte).length ≤ fld s (R.ETH_CTL.MAXLEN 1)) ∧ isPause (etherFrame 1 0x0800) = false ∧
         filterOf s 1 (etherFrame 1 0x0800) = some 15 ∧ ringHeld s 1 7 ≠ 0 ∧ ringDesc s 1 7 = ownGa s 0x2FE0 ∧ 0x2FE0 % 32 = 0 ∧
         fieldLE (memBytes s 0x2FE0 32) 0 6 = ownGa s 0x4000 ∧
         (etherFrame 1 0x0800).length ≤ bitsOf (fieldLE (memBytes s 0x2FE0 32) 8 4) 13 0 ∧ flag s (R.RING_CFG.NOTIFY_EN 1 7) = false) ∧
      Lp5xSound (ringed 7 rxDesc []) 0x2FE0 32 ∧ Lp5xFree (ringed 7 rxDesc []) 0x4000 64 ∧
      (let s := ringed 7 rxDesc [(R.FILT_CFG.VALID 1 15, 0)]
       filterOf s 1 (etherFrame 1 0x0800) = none ∧ flag s (R.ETH_CTL.PROMISC 1) = false) ∧
      (let s := ringed 7 rxDesc [(R.FILT_CFG.RING 1 15, 0), (R.ETH_CTL.PAUSE_RX 1, 1)]
       ringHeld s 1 (4 + fld s (R.FILT_CFG.RING 1 15)) = 0 ∧ flag s (R.ETH_CTL.PAUSE_RX 1) = true ∧ isPause (etherFrame 0x0180C2000001 0x8808) = true) :=
  ⟨by decide, by decide +kernel, sound_of (by decide) rfl rfl rfl rfl, (sound_of (by decide) rfl rfl rfl rfl).1, by decide +kernel, by decide +kernel⟩

theorem good_transmit {s : State} {d : List Byte} {p : Nat} (h : (64 ≤ bitsOf (fieldLE d 8 4) 13 0 ∧ bitsOf (fieldLE d 8 4) 13 0 ≤ fld s (R.ETH_CTL.MAXLEN p)) ∧
    flag s (R.ETH_STAT.LINK p) = true) (h15 : bitOf (fieldLE d 8 4) 15 = true → p ≠ 2 ∧ bitsOf (fieldLE d 0xC 4) 10 0 = 0 ∧
      bitsOf (fieldLE d 8 4) 26 16 + 8 ≤ bitsOf (fieldLE d 8 4) 13 0 ∧ (egressTime s p + 2 ^ 32 - fieldLE d 0x10 4) % 2 ^ 32 ≠ 2 ^ 31) :
    GoodTransmit s d p := ⟨h.1.1, h.1.2, h.2, h15⟩

/-- A plain frame, and one with one-step timing whose correctionField is its last 8 bytes; port 2 sends Warden's own. -/
theorem witness_EthernetAndFlash_transmit :
    (let s := ringed 3 (txDesc 64 (2 ^ 15 + 2 ^ 16 * 56)) []
     txReady s 1 = true ∧ flag s (R.RING_CFG.NOTIFY_EN 1 3) = false ∧ ringHeld s 1 3 ≠ 0 ∧ ringDesc s 1 3 = ownGa s 0x2FE0 ∧
       fieldLE (memBytes s 0x2FE0 32) 0 6 = ownGa s 0x2000) ∧
      Lp5xSound (ringed 3 (txDesc 64 (2 ^ 15 + 2 ^ 16 * 56)) []) 0x2FE0 32 ∧ Lp5xSound (ringed 3 (txDesc 64 (2 ^ 15 + 2 ^ 16 * 56)) []) 0x2000 64 ∧
      GoodTransmit (ringed 3 (txDesc 64 (2 ^ 15 + 2 ^ 16 * 56)) []) (memBytes (ringed 3 (txDesc 64 (2 ^ 15 + 2 ^ 16 * 56)) []) 0x2FE0 32) 1 ∧
      flag (ringed 3 (txDesc 64 0) [(R.ETH_STAT.LINK 1, 0)]) (R.ETH_STAT.LINK 1) = false ∧
      (txReady (ringed 3 (txDesc 64 0) []) 2 = true ∧ (txDesc 64 0 ++ etherFrame 1 2).length = 32 + bitsOf (fieldLE (txDesc 64 0) 8 4) 13 0 ∧
        GoodTransmit (ringed 3 (txDesc 64 0) []) (txDesc 64 0) 2) :=
  ⟨by decide +kernel, sound_of (by decide) rfl rfl rfl rfl, sound_of (by decide) rfl rfl rfl rfl,
    good_transmit (by decide +kernel) (fun _ => by decide +kernel), by decide, by decide +kernel, by decide,
    good_transmit (by decide +kernel) (fun h => absurd h (by decide))⟩

/-- A chip whose devices run in 8D, of which B is busy with an erase of its last block. -/
def flashing : State :=
  regsSet [(R.XSPI_CTL.MODE_8D, 1), (R.XSPI_STAT.BUSY_B, 1)]
    { State.reset with flash := { State.reset.flash with cmds := [⟨1, 0xDC, 0x3FF0000, []⟩] } }

theorem witness_EthernetAndFlash_rest :
    (let s := { State.reset with eth := { State.reset.eth with done := [(15, (1, 0))] } }
     tabFind (advance s 0).eth.done (8 * 1 + 7) = some (1, 0) ∧ extTime (advance s 0) < 0 + 10000 ∧
       0 + 10000 ≤ extTime (advance (setCounter s (2 ^ 24 * 10000)) 0) ∧
       tabFind (advance (setCounter s (2 ^ 24 * 10000)) 0).eth.done (8 * 1 + 7) = some (1, 0) ∧ (advance (setCounter s (2 ^ 24 * 10000)) 0).posted = []) ∧
      (rootRole State.reset = false ∧ fld (regsSet [(R.RING_CFG.OWNER 1 7, 12)] State.reset) (R.RING_CFG.OWNER 1 7) = 12 ∧
        fld (regsSet [(R.RING_CFG.OWNER 1 7, 11)] State.reset) (R.RING_CFG.OWNER 1 7) ≠ 12) ∧
      (let s := regsSet [(R.RING_CFG.OWNER 1 7, 11), (R.PART_CFG.EN 11, 1), (R.PART_CFG.QMASK 11, 2 ^ 11), (R.QCLK.GATED 11, 0)] State.reset
       activePart s 95 = some (fld s (R.RING_CFG.OWNER 1 7)) ∧ activePart s 0 ≠ some (fld s (R.RING_CFG.OWNER 1 7)) ∧ s.flash.refused = none) ∧
      (flag flashing R.XSPI_CTL.MODE_8D = true ∧ 67108863 < 67108864 ∧ flashBusy flashing 0 = false ∧ tabGet flashing.flash.buf 0 [] = [] ∧
        flashBusy flashing 1 = true) ∧
      (0xDC ∈ flashOps ∧ flashBusy State.reset 1 = false ∧ fld State.reset R.WDN_STAT.IMAGE ≠ 1) ∧
      (0x21 ≠ 0x05 ∧ flashing.flash.cmds = [⟨1, 0xDC, 0x3FF0000, []⟩] ∧ 0x3FF0000 < 0x4000000) := by
  decide

/-! ### Hypotheses met: mailboxes, errors, commands -/

/-- What an outcome's next state is, where it has one. -/
def nextOf : Host.Outcome State Fault Refusal → Option State
  | .next t => some t
  | _ => none

theorem answers_next {o : Host.Outcome State Fault Refusal} (h : (nextOf o).isSome = true) : ∃ t, o = .next t := by
  cases o with
  | next t => exact ⟨t, rfl⟩
  | _ => exact absurd h Bool.false_ne_true

/-- A chip whose firmware runs, in CAPPED, with pairs 0, 14 and 15 and the fabric path of chip 15 identified and READY; `f` sets the rest. -/
def served (l : List (Fld × Nat)) (f : WdnSt → WdnSt) : State :=
  let known : Mail := { Mail.reset 0 with identified := true, vecEn := false }
  let s := regsSet ((R.WDN_STAT.RUNNING, 1) :: l) State.reset
  { s with wdn := f { s.wdn with ready := 0xFFFF, mails := [(0, known), (14, known), (15, known), (47, known)] } }

/-- A request on a pair, from chip 15, with the last SEQ. -/
def request (pair : Nat) (p : List Byte) : Sys2Proof.MailReq := ⟨pair, 15, 65535, 1, p, []⟩

/-- The rings on which it comes. -/
def keyOf (pair : Nat) : Nat := if 4 ≤ pair ∧ pair < 12 then 47 else pair

/-- Such a request is what the statements ask of one. -/
theorem asks_of {s : State} {code groups pair : Nat} {p : List Byte}
    (hg : bitOf groups (if 32 ≤ keyOf pair then 1 else if pair < 4 then 0 else if pair < 14 then 2 else 3) = true)
    (hm : (pair < 16 ∧ (mail s (keyOf pair)).identified = true ∧ (mail s (keyOf pair)).kept = []) ∧
      ((mail s (keyOf pair)).reqTail = (mail s (keyOf pair)).reqHead ∧ (mail s (keyOf pair)).reqHead < 2 ^ 16 ∧
        ((mail s (keyOf pair)).reqHead + 2 ^ 16 - (mail s (keyOf pair)).rspHead) % 2 ^ 16 < 8 ∧ (mail s (keyOf pair)).owed = []))
    (hs : (rootRole s = false ∧ s.wdn.accepted = [] ∧ fld s R.PWR_STATE.STATE < 3 ∧ s.posted = []) ∧
      (flag s R.WDN_STAT.RUNNING = true ∧ flag s R.PWR_STATE.PWRFAIL = false ∧ bitOf s.wdn.ready (pairOf (keyOf pair)) = true)) :
    Asks s code groups p (request pair p) :=
  ⟨⟨hm.1.1, show 15 < 16 by decide, rfl, show 65535 < 2 ^ 16 by decide, rfl⟩, hg, fun _ => hs.1.1, hs.2, .inr hm.1.2.1, hm.2,
    fun k hk => absurd (show k ∈ (mail s (keyOf pair)).kept from hk) (by rw [hm.1.2.2]; exact List.not_mem_nil), hs.1.2⟩

/-- A message of 64 bytes: COMMAND, VERSION, FLAGS, SEQ 5, LENGTH, and a payload byte at 16 + `i`. -/
def message (code ver flags len i : Nat) : List Byte :=
  putBytes (bytesLE 2 code ++ bytesLE 1 ver ++ bytesLE 1 flags ++ bytesLE 2 5 ++ bytesLE 1 len ++ List.replicate 57 0) (16 + i) (bytesLE 1 7)

/-- A chip with that message waiting on pair 3, which stands before a wrap. -/
def asked3 (m : List Byte) (f : Mail → Mail) : State :=
  served [] (fun w => { w with mails := [(3, f { Mail.reset 3 with
    identified := true, req := [(7, m)], reqTail := 0, reqHead := 65535, rspTail := 65535, rspHead := 65535, ticket := 9 })] })

theorem consumable {m : List Byte} {f : Mail → Mail} (h : (flag (asked3 m f) R.WDN_STAT.RUNNING = true ∧ flag (asked3 m f) R.PWR_STATE.PWRFAIL = false ∧
      bitOf (asked3 m f).wdn.ready (pairOf 3) = true) ∧ ((mail (asked3 m f) 3).reqTail ≠ (mail (asked3 m f) 3).reqHead ∧
      ((mail (asked3 m f) 3).reqHead + 2 ^ 16 - (mail (asked3 m f) 3).rspHead) % 2 ^ 16 < 8) ∧ ((mail (asked3 m f) 3).owed = [] ∧ (asked3 m f).posted = []) ∧
      (tabGet (mail (asked3 m f) 3).req ((mail (asked3 m f) 3).reqHead % 8) [] = m ∧ m.length = 64)) : Consumable (asked3 m f) 3 m :=
  ⟨h.1, h.2.1, h.2.2.1, h.2.2.2⟩

theorem witness_MailboxesTakeRequests :
    (rootRole rooted = true ∧ ¬ (3 < 4 ∧ rootRole State.reset = true)) ∧ flag State.reset R.WDN_STAT.RUNNING = false ∧
      (Consumable (asked3 (message 1 1 0 49 0) id) 3 (message 1 1 0 49 0) ∧ 48 < fieldLE (message 1 1 0 49 0) 6 1) ∧
      (Consumable (asked3 (message 1 1 1 48 0) id) 3 (message 1 1 1 48 0) ∧ fieldLE (message 1 1 1 48 0) 6 1 ≤ 48 ∧
        bitOf (fieldLE (message 1 1 1 48 0) 3 1) 0 = true ∧
        fieldLE (message 1 1 1 48 0) 12 4 ≠ crc32c ((message 1 1 1 48 0).take 12 ++ ((message 1 1 1 48 0).drop 16).take 48)) ∧
      (let m := message 1 1 0 2 0
       let x := mail (asked3 m (fun x => { x with kept := [⟨5, message 1 1 0 1 0, 3, none, none⟩] })) 3
       x.kept.find? (fun k => k.seq = fieldLE m 4 2) = some ⟨5, message 1 1 0 1 0, 3, none, none⟩ ∧ (message 1 1 0 1 0).length = 64 ∧
         fieldLE (message 1 1 0 1 0) 6 1 ≠ fieldLE m 6 1) ∧
      (let m := message 1 1 0 1 0
       let rsp := bytesLE 4 0 ++ List.replicate 60 1
       let x := mail (asked3 m (fun x => { x with kept := [⟨5, m, 3, some rsp, none⟩] })) 3
       x.kept.find? (fun k => k.seq = fieldLE m 4 2) = some ⟨5, m, 3, some rsp, none⟩ ∧ rsp = bytesLE 4 0 ++ List.replicate 60 1 ∧
         (bytesLE 4 0).length = 4 ∧ 12 ≤ (List.replicate 60 (1 : Byte)).length ∧ bitOf (fieldLE (bytesLE 4 0) 3 1) 0 = false) ∧
      ((∀ k, k ∈ (mail (asked3 (message 0 1 0 0 0) id) 3).kept → k.seq ≠ 5 ∧ k.ticket ≠ (mail (asked3 (message 0 1 0 0 0) id) 3).ticket) ∧
        cmdSpec 0 = none ∧ fieldLE (message 1 2 0 0 0) 2 1 ≠ 1) ∧
      (cmdSpec 0x0002 = some ⟨15, 1, 32, [(0, 4), (16, 13)]⟩ ∧ fieldLE (message 2 1 0 32 4) 2 1 = 1 ∧
        (mail (asked3 (message 2 1 0 32 4) (fun x => { x with identified := false })) 3).identified = false ∧
        (mail (asked3 (message 2 1 0 32 4) id) 3).identified = true ∧ (asked3 (message 2 1 0 32 4) id).wdn.accepted = [] ∧
        fld (asked3 (message 2 1 0 32 4) id) R.PWR_STATE.STATE < 2 ∧ bitOf 2 0 = false ∧ bitOf 15 0 = true ∧ 31 ≠ 32 ∧
        (message 2 1 0 32 4).getD (16 + 4) 0 ≠ 0 ∧ ∀ f, f ∈ [(0, 4), (16, 13)] → ¬ (f.1 ≤ 4 ∧ 4 < f.1 + f.2)) ∧
      State.reset.wdn.mgmt = none :=
  ⟨by decide, by decide, ⟨consumable (by decide), by decide⟩, ⟨consumable (by decide), by decide, by decide, by decide +kernel⟩, by decide +kernel,
    by decide +kernel, by decide +kernel, by decide +kernel, by decide⟩

theorem numLE_bytesLE (n x : Nat) (h : x < 256 ^ n) : numLE (bytesLE n x) = x := by
  induction n generalizing x with
  | zero => simp at h; subst h; rfl
  | succ n ih =>
    have h2 : x / 256 < 256 ^ n := by rw [Nat.pow_succ] at h; omega
    simp only [bytesLE, numLE, BitVec.toNat_ofNat, ih _ h2]
    omega

theorem bytesLE_length (n x : Nat) : (bytesLE n x).length = n := by
  induction n generalizing x with
  | zero => rfl
  | succ n ih => simp [bytesLE, ih]

/-- A datagram whose HMAC holds, and one that is too short. -/
theorem witness_MailboxesTakeRequests_datagram :
    (let s := served [] (fun w => { w with mgmt := some ⟨1, 32, 2, [5]⟩ })
     s.wdn.mgmt = some ⟨1, 32, 2, [5]⟩ ∧ ((mail s 13).reqTail + 2 ^ 16 - (mail s 13).reqHead) % 2 ^ 16 < 8) ∧
      (let d := List.replicate 64 7 ++ bytesLE 32 (Sys2Proof.Config.hmac [5] (List.replicate 64 7)).toNat
       d.length = 96 ∧ numLE (d.drop 64) = (Sys2Proof.Config.hmac [5] (d.take 64)).toNat) ∧
      ([] : List Byte).length ≠ 96 := by
  refine ⟨by decide, ⟨?_, ?_⟩, by decide⟩
  · rw [List.length_append, bytesLE_length]; rfl
  · rw [List.drop_left' (by rfl), List.take_left' (by rfl), numLE_bytesLE _ _ (BitVec.isLt _)]

/-- An entry of a log, and an event like it within the second. -/
def logged (code severityAt : Nat) : State :=
  served [] (fun w => { w with log := [⟨severityAt, code, 5, 0, 1, []⟩], logNext := 1, ready := 0, noticed := [(code, severityAt)] })

theorem witness_ErrorsAreReportedAndLogged_log :
    Unheard State.reset 1 ∧ (fld (served [] id) R.EVT_LOST.val ≤ (served [] id).wdn.lostSeen ∧ (served [] id).events = []) ∧
      (let e : Event := ⟨0x0102, 5, [], 999999999⟩
       let c : Event := ⟨0x0101, 5, [], 999999999⟩
       let s := { logged 0x0101 0 with events := [c] }
       2 ≤ severity e.code ∧ ¬ (e.code = 0x0504 ∨ e.code = 0x0506 ∨ e.code = 0x0502 ∨ e.code = 0x0503) ∧ severity c.code < 2 ∧
         (served [] id).wdn.log = [] ∧ tabFind (served [] id).wdn.noticed c.code = none ∧
         s.wdn.log = [] ++ [⟨0, 0x0101, 5, chipId s, 1, []⟩] ∧ c.at_ < 0 + 1000000000 ∧ tabFind s.wdn.noticed c.code = some 0 ∧ Unheard s 1) ∧
      (served [(R.EVT_LOST.val, 1)] id).wdn.lostSeen < fld (served [(R.EVT_LOST.val, 1)] id) R.EVT_LOST.val :=
  ⟨by unfold Unheard; decide, by decide, ⟨by decide, by decide, by decide, by decide, by decide, by decide, by decide, by decide, by unfold Unheard; decide⟩, by decide⟩

theorem witness_ErrorsAreReportedAndLogged_units :
    (0x0805 ∈ eventCodes ∧ 0x1FFFF < 0x20000 ∧ 95 < 96) ∧
      tabFind (withCoh (fun c => { c with lines := [(lastLine, ⟨.s, [], false⟩)] })).coh.lines ((lp5xEnd - 1) / 128) = some ⟨.s, [], false⟩ ∧
      (lp5xEnd - 1 < lp5xEnd ∧ homeOf (0xFFFFFFFFFFFF / 128) ≠ chipId State.reset ∧ State.reset.coh.lines = [] ∧
        (∀ st, tabFind (withCoh (fun c => { c with lines := [(0xFFFFFFFFFFFF / 128, ⟨st, [], false⟩)] })).coh.lines (0xFFFFFFFFFFFF / 128) = some ⟨st, [], false⟩) ∧
        LineSt.e ≠ .s) ∧
      (31 < 32 ∧ (core State.reset 95).task = none ∧ (core State.reset 95).held = none) ∧ (syncObj State.reset 16383).waiters = [] ∧
      (lp5xEnd ≤ lp5xEnd ∧ lp5xEnd + 1 ≤ tileAddr 0 0) ∧ State.reset.events.length < 256 ∧
      (flag State.reset R.WDN_STAT.RUNNING = false ∧ flag (served [] id) R.WDN_STAT.RUNNING = true ∧ (served [] id).wdn.jobs = [] ∧
        (served [] id).wdn.prbs = [] ∧ (served [] id).events.length < 256) :=
  ⟨by decide, by decide, ⟨by decide, by decide, by decide, fun st => by cases st <;> decide, by decide⟩, by decide⟩

/-- Class I commands whose hypotheses are no more than a request and what its reference names, in the last bytes of LP5X. -/
theorem witness_ImmediateCommandsAnswer_plain :
    ((served [] id).Inv ∧ (served [] id).events.length < 256) ∧
      (∀ code groups p, bitOf groups 0 = true → Asks (served [] id) code groups p (request 0 p)) ∧
      (let s := served [] (fun w => { w with log := [⟨0, 0x0101, 5, 0, 1, List.replicate 16 0⟩], logNext := 2 ^ 31 + 1 })
       ((s.wdn.log.drop 0).take 1 ≠ [] ∧ ∀ x, x ∈ s.wdn.log → x.arg.length = 16) ∧ 32 * (2 ^ 31 + 1 - 2 ^ 31) ≤ 32 ∧ Lp5xFree s (lp5xEnd - 32) 32) ∧
      (127 < 128 ∧ ((request 0 []).pair < 4 ∨ 127 = 0 ∧ 1 = 0)) ∧
      (let l := [R.DEV_ID.VENDOR.off, R.PWR_CAP.val.off, 0x5FFFFC]
       l ≠ [] ∧ l.length ≤ 11 ∧ readableOff R.PWR_CAP.val.off = true ∧ R.PWR_CAP.val.off ≠ R.TIME_NS.NS.off) ∧
      (served [] id).wdn.power.samples = [] ∧
      (let x : Telem := ⟨48000, 1000, 40000, 60000, [5, 5, 5, 5, 5, 5, 5, 5, 5, 5, 5, 6], [], 0⟩
       x.temps.length = 12 ∧ ∀ j, j < 12 → x.temps.getD j 0 ≤ x.temps.getD 11 0 ∧ (j < 11 → x.temps.getD j 0 < x.temps.getD 11 0)) ∧
      Lp5xFree { served [] id with marks := { (served [] id).marks with rows := [0, 1] } } (lp5xEnd - 32) (16 * 2) ∧
      (lp5xEnd - 1) / 4096 * 4096 < 2 ^ 64 :=
  ⟨⟨⟨by decide, by decide⟩, by decide⟩, fun _ _ _ h => asks_of h (by decide) (by decide), ⟨by decide, by decide, (sound_of (by decide) rfl rfl rfl rfl).1⟩,
    by decide, by decide +kernel, by decide, by decide, (sound_of (by decide) rfl rfl rfl rfl).1, by decide⟩

theorem witness_ImmediateCommandsAnswer_rest :
    (let s := { served [] id with marks := { (served [] id).marks with candidates := [(5, true)] } }
     (5 * 4096 / 4096, true) ∈ s.marks.candidates) ∧
      (∀ d, Asks (served [] id) 0x0603 2 d (request 4 d)) ∧ (∀ d, Asks (served [] id) 0x0901 8 d (request 14 d)) ∧
      Lp5xSound (served [] id) (lp5xEnd - 64) 64 ∧
      (∀ token, (∃ sc, Sys2Proof.Config.tokenScope token 0 [] 0 = some sc) ∨ Sys2Proof.Config.tokenScope token 0 [] 0 = none) ∧
      (radioOff (served [] id) = true ∧ portState (served [] id) 7 = 0 ∧ (served [] id).host.hdma = [] ∧ (served [] id).wdn.prbs = []) ∧
      (∃ u, exec (.pcieLinkDown []) (served [] id) = .next u) ∧
      (let x : Prbs := ⟨4, 7, 15, 4, true, true, 15, [], 1, 0⟩
       let s := served [] (fun w => { w with prbs := [x] })
       s.wdn.prbs = [] ++ [x] ++ [] ∧ 15 < 16 ∧ flag s (R.ADR_PCTL.EN 7) = false) ∧
      ¬ (2 = 2 ∧ bitOf 3 2 = true) ∧ (∃ u, exec (.timeStep 0x7FFFFFFF) (served [] id) = .next u) ∧
      (selfState (served [] id) ≠ 2 ∧ selfState (served [(R.ADR_CHIP.SELF_STATE, 2)] id) = 2 ∧ (served [(R.ADR_CHIP.SELF_STATE, 2)] id).coh.dir = [] ∧
        (served [(R.ADR_CHIP.SELF_STATE, 2)] id).coh.lines = [] ∧ NoVector (served [(R.ADR_CHIP.SELF_STATE, 2)] id) (request 0 [])) :=
  ⟨by decide, fun d => asks_of (by show bitOf 2 1 = true; decide) (by decide) (by decide),
    fun d => asks_of (by show bitOf 8 3 = true; decide) (by decide) (by decide),
    sound_of (by decide) rfl rfl rfl rfl, fun t => by cases Sys2Proof.Config.tokenScope t 0 [] 0 <;> simp, by decide,
    answers_next (by decide +kernel), by decide, by decide, answers_next (by decide +kernel), ⟨by decide, by decide, by decide, by decide, by unfold NoVector; decide⟩⟩

theorem no_partition {s : State} (h : ∀ x, x < 12 → flag s (R.PART_CFG.EN x) = false) {x : Nat} (hx : x < 12) (he : flag s (R.PART_CFG.EN x) = true) : False := by
  rw [h x hx] at he; exact Bool.false_ne_true he

/-- A request that waits for the boundary. -/
theorem witness_BoundaryCommandsTakeEffect_accepted :
    (let s := served [] (fun w => { w with mails := [(0, { Mail.reset 0 with owed := [⟨7, none, none⟩] })] })
     (mail s (ringsOf (request 0 []))).owed = [Owed.mk 7 none none]) ∧
      (∀ code groups p, bitOf groups 0 = true → Asks (served [] id) code groups p (request 0 p)) ∧ (served [] id).Inv ∧
      ((served [] id).wdn.jobs = [] ∧ (served [] id).posted = []) ∧ (served [] id).wdn.removals = [] :=
  ⟨by decide, fun _ _ _ h => asks_of h (by decide) (by decide), ⟨by decide, by decide⟩, by decide, by decide⟩

/-- The last Quarter for the last partition; and its Quarter taken by another. -/
theorem witness_BoundaryCommandsTakeEffect_parts :
    ¬ ((bitOf 10240 13 = true ∧ 10240 % 4096 = 0) ∨
        (bitOf 10240 13 = true ∧ ∃ q x, q < 12 ∧ x < 12 ∧ x ≠ 11 ∧ bitOf 10240 q = true ∧ flag (served [] id) (R.PART_CFG.EN x) = true ∧
          bitOf (fld (served [] id) (R.PART_CFG.QMASK x)) q = true) ∨
        ((bitOf 10240 14 = true ∨ bitOf 10240 16 = true) ∧ bitOf 10240 12 = false) ∨ bitOf 0 11 = true ∨
        (∃ x, x < 12 ∧ x ≠ 11 ∧ bitOf 0 x = true ∧ flag (served [] id) (R.PART_CFG.LEND x) = false) ∨
        (bitOf 10240 14 = false ∧ ∃ x, x < 12 ∧ x ≠ 11 ∧ flag (served [] id) (R.PART_CFG.EN x) = true ∧
          bitOf (reg (served [] id) (R.PART_LEND.val x).off) 11 = true)) ∧
      ((bitOf (2 ^ 13) 13 = true ∧ 2 ^ 13 % 4096 = 0) ∧ 22 ≤ 22 * 2 ^ 16 / 2 ^ 16 % 256) ∧
      (fld (served [] id) R.PWR_STATE.STATE < 2 ∧ (∀ x, x < 12 → flag (served [] id) (R.PART_CFG.EN x) = false) ∧ (served [] id).wdn.ckpt = []) ∧
      Unheard (served [] (fun w => { w with mails := w.mails.map (fun x => (x.1, { x.2 with nclass := 0 })), ready := 1 })) 2 ∧
      ((∀ c, (core (served [] id) c).claim = none ∧ (core (served [] id) c).asyncs = [] ∧ ∀ o ch k rd x, (core (served [] id) c).run ≠ .wait o ch k rd x) ∧
        (∀ x, x ∈ (served [] id).sched.tasks → x.part ≠ 11) ∧ (∀ p, p ∈ (served [] id).syncs → p.2.waiters = []) ∧ (served [] id).marks.candidates = []) ∧
      NoVector (served [] id) (request 0 []) := by
  have hn : ∀ x, x < 12 → flag (served [] id) (R.PART_CFG.EN x) = false := by decide
  have hc : ∀ c, core (served [] id) c = Core.reset := fun _ => rfl
  refine ⟨?_, by decide, ⟨by decide, hn, by decide⟩, by unfold Unheard; decide, ⟨?_, by decide, by decide, by decide⟩, by unfold NoVector; decide⟩
  · rintro (⟨_, h⟩ | ⟨_, q, x, _, hx, _, _, he, _⟩ | ⟨h, _⟩ | h | ⟨x, _, _, h, _⟩ | ⟨_, x, hx, _, he, _⟩)
    · exact absurd h (by decide)
    · exact no_partition hn hx he
    · exact absurd h (by decide)
    · exact absurd h (by decide)
    · exact absurd h (by simp [bitOf])
    · exact no_partition hn hx he
  · intro c; rw [hc]; exact ⟨rfl, rfl, fun _ _ _ _ _ => nofun⟩

/-- What a plan's outcome is, with the rings, the packets and what leaves as before. -/
theorem witness_BoundaryCommandsTakeEffect_power :
    (let s := served [] id
     let told : State := { setFlag s R.PWR_STATE.LEASE_EXPIRED false with
       wdn := { s.wdn with power := { s.wdn.power with budget := some ⟨2 ^ 32 - 1, 0, 1000, 3600, extTime s⟩ } } }
     let capped := setFld (setFld told R.PWR_CAP.val 55000) R.PWR_STATE.STATE 0
     (nextOf (exec .powerPlan capped)).any (fun u => decide (u.out = s.out) && decide (u.fabric = s.fabric) && decide (u.wdn.mails = s.wdn.mails)) = true) ∧
      (let s := served [] id
       (1 = 1 → 12000 ≤ 12000 ∧ 12000 ≤ 55000) ∧ fld s R.PWR_STATE.STATE < 2 ∧ flag s R.PWR_STATE.LEASE_EXPIRED = false ∧
         (nextOf (exec .powerPlan (setFld (setFld s R.PWR_STATE.STATE 1) R.PWR_CAP.val 12000))).isSome = true ∧ selfState s ≠ 2 ∧ nightOk s = false) ∧
      nightOk (served [(R.PART_CFG.EN 11, 1), (R.PART_CFG.RADIO 11, 1), (R.PART_CFG.QMASK 11, 2 ^ 11)] id) = true ∧
      bitOf (fld (served [(R.WV_PSTAT.VALID 1, 2)] id) (R.WV_PSTAT.VALID 1)) 1 = true ∧
      (let l := (List.range 11).filter (bitOf (2 ^ 10))
       (l.flatMap (fun b => bytesLE 2 b ++ bytesLE 2 (setWords b).length ++ bytesLE 4 0 ++ bytesLE 8 0 ++
         (setWords b).flatMap (fun o => bytesLE 4 (devWord (served [] id) .warden o)))).length = 140) ∧
      Lp5xFree (served [] id) (lp5xEnd - 140) 140 :=
  ⟨by decide +kernel, ⟨by decide, by decide, by decide, by decide +kernel, by decide, by decide⟩, by decide, by decide, by decide +kernel,
    (sound_of (by decide) rfl rfl rfl rfl).1⟩

/-- A chip with table 63 in a state, of the last row number; READY_SYNC names the last object. -/
def tabled (st : Nat) (f : PoolSt → PoolSt) : State :=
  let s := served [(R.TD_CTL.EN 63, 1), (R.TD_ROWS.val 63, 2 ^ 24), (R.TD_STATE.STATE 63, st), (R.TD_STATE.READY_SYNC 63, 16383), (R.POOL_GEN.val, 2 ^ 32 - 1),
    (R.TD_DIR.val 63, 2 ^ 16), (R.TD_HEAP.val 63, 2 ^ 16), (R.TD_SLOTS.val 63, 4)] id
  { s with pool := f s.pool, syncs := [(16383, semaphore 0 [])] }

theorem witness_TablesAreManaged :
    ((tabled 1 id).Inv ∧ (tabled 1 id).posted = [] ∧ (tabled 1 id).wdn.jobs = []) ∧ (∀ st code p, st ≤ 1 → Asks (tabled st id) code 1 p (request 0 p)) ∧
      (flag (tabled 1 id) (R.TD_CTL.EN 63) = true ∧ flag (served [] id) (R.TD_CTL.EN 63) = false ∧ bitOf 1 0 = true ∧
        fld (served [(R.POOL_GEN.val, 1)] id) R.POOL_GEN.val ≠ 0) ∧
      FreeSemaphore { served [(R.POOL_GEN.val, 1)] id with syncs := [(0, semaphore 0 [])] }
        (fld { served [(R.POOL_GEN.val, 1)] id with syncs := [(0, semaphore 0 [])] } (R.TD_STATE.READY_SYNC 63)) ∧
      Lp5xSound (tabled 1 id) (lp5xEnd - 128) 128 ∧
      (fld (tabled 0 id) (R.TD_STATE.STATE 63) = 0 ∧ fld (tabled 1 id) (R.TD_STATE.STATE 63) = 1 ∧
        (syncObj (tabled 0 id) (fld (tabled 0 id) (R.TD_STATE.READY_SYNC 63))).type = 0 ∧
        (syncObj (tabled 0 id) (fld (tabled 0 id) (R.TD_STATE.READY_SYNC 63))).waiters = []) ∧
      (FreeSemaphore (tabled 1 id) 16383 ∧ fld (tabled 1 id) R.POOL_GEN.val ≠ 0 ∧ (tabled 1 id).coh.dir = [] ∧ (tabled 1 id).coh.serving = []) := by
  refine ⟨⟨⟨by decide, by decide⟩, by decide⟩, fun st code p h => ?_, by decide, ⟨by decide, by decide, by decide, by decide⟩, sound_of (by decide) rfl rfl rfl rfl, by decide,
    ⟨⟨by decide, by decide, by decide, by decide⟩, by decide, by decide, by decide⟩⟩
  have : st = 0 ∨ st = 1 := by omega
  rcases this with rfl | rfl
  · exact asks_of (by decide) (by decide) (by decide)
  · exact asks_of (by decide) (by decide) (by decide)

/-! #### References of a length too long to write out -/

theorem memBytes_length (s : State) (a n : Nat) : (memBytes s a n).length = n := by simp [memBytes]

theorem memBytes_slice (s : State) (a n i k : Nat) (h : i + k ≤ n) : sliceBytes (memBytes s a n) i k = memBytes s (a + i) k := by
  have hl : ((memBytes s a n).drop i).take k = memBytes s (a + i) k := by
    apply List.ext_getElem
    · simp [memBytes]; omega
    · intro j h1 h2; simp [memBytes, Nat.add_assoc]
  simp only [sliceBytes, hl, memBytes_length, Nat.sub_self, List.replicate_zero, List.append_nil]

theorem memBytes_field (s : State) (a n i k : Nat) (h : i + k ≤ n) : fieldLE (memBytes s a n) i k = numLE (memBytes s (a + i) k) := by
  rw [fieldLE, memBytes_slice s a n i k h]

theorem memRead_absent {m : List Host.Cell} {x : Nat} (h : m.all (fun p => p.1 ≠ x) = true) : memRead m x = 0 := by
  induction m with
  | nil => rfl
  | cons p t ih =>
    simp only [List.all_cons, Bool.and_eq_true, decide_eq_true_eq] at h
    have h1 : ¬ (x = p.1) := fun e => h.1 e.symm
    have := ih h.2
    simp only [memRead, tabGet] at this ⊢
    unfold tabFind
    simp only [h1, if_false]
    split
    · rename_i heq; split at heq
      · cases heq
      · simpa [heq] using this
    · rfl

theorem slice_zero (m i k : Nat) : sliceBytes (List.replicate m 0) i k = List.replicate k 0 := by
  simp only [sliceBytes, List.drop_replicate, List.take_replicate, List.length_replicate, List.replicate_append_replicate]
  congr 1; omega

/-- A chip with bytes in LP5X. -/
def holds (l : List (Nat × List Byte)) : State := { served [] id with mem := stored l }

/-- A Weave image of the least length, without configurations; its signature block names key 0. -/
def weaveHead : List Byte :=
  bytesLE 4 0x31575657 ++ bytesLE 2 1 ++ bytesLE 2 5 ++ bytesLE 4 9 ++ bytesLE 4 0 ++ bytesLE 4 0 ++ bytesLE 4 0x10168 ++ bytesLE 2 0 ++ bytesLE 2 0 ++
    bytesLE 4 0x28 ++ bytesLE 4 0x100 ++ bytesLE 4 0x10100

theorem unpoisoned {s : State} (a n : Nat) (hl : s.marks.poisonLines = []) (hw : s.marks.poisonWords = []) : poisoned s a n = false := by
  simp [poisoned, hl, hw]

theorem witness_JobsStart_weave :
    GoodWeaveImage (holds [(0, weaveHead)]) (memBytes (holds [(0, weaveHead)]) 0 0x10168) ∧ Lp5xSound (holds [(0, weaveHead)]) 0 0x10168 ∧
      (fld (holds [(0, weaveHead)]) R.PWR_STATE.STATE < 2 ∧ planeInUse (holds [(0, weaveHead)]) 1 1 = false) := by
  have f : ∀ i k, i + k ≤ 0x10168 → fieldLE (memBytes (holds [(0, weaveHead)]) 0 0x10168) i k = numLE (memBytes (holds [(0, weaveHead)]) i k) := by
    intro i k h; rw [memBytes_field _ _ _ _ _ h, Nat.zero_add]
  have g1 : fieldLE (memBytes (holds [(0, weaveHead)]) 0 0x10168) 0x24 4 = 0x10100 := by rw [f _ _ (by decide)]; decide
  refine ⟨⟨?_, ?_, ?_, ?_, ⟨?_, ?_⟩, ?_, ?_, ?_⟩, sound_of (by decide) rfl rfl rfl (unpoisoned _ _ rfl rfl), by decide⟩
  · rw [f _ _ (by decide), f _ _ (by decide)]; decide
  · rw [f _ _ (by decide)]; decide
  · rw [memBytes_length, f _ _ (by decide)]; decide
  · rw [memBytes_length, f _ _ (by decide), f _ _ (by decide)]; decide
  · rw [f _ _ (by decide)]; decide
  · intro c hc
    have hz : (memBytes (holds [(0, weaveHead)]) 0 0x10168).drop 0x100 = List.replicate (0x10168 - 0x100) 0 := by
      apply List.ext_getElem
      · rw [List.length_drop, memBytes_length, List.length_replicate]
      · intro j h1 h2
        simp only [memBytes, List.getElem_drop, List.getElem_map, List.getElem_range, List.getElem_replicate, Nat.zero_add]
        apply memRead_absent
        have : ∀ p ∈ (holds [(0, weaveHead)]).mem, p.1 < 0x100 := by decide
        rw [List.all_eq_true]
        intro p hp
        have := this p hp
        exact decide_eq_true (by omega)
    rw [hz, cellFrame, slice_zero]; decide
  · rw [memBytes_length, g1]; decide
  · unfold NamesKey; rw [g1, f _ _ (by decide)]; decide
  · rw [f _ _ (by decide)]; decide

/-- A firmware image of the least length. -/
def firmware : List Byte := bytesLE 4 0x31574657 ++ bytesLE 4 1 ++ bytesLE 4 0 ++ bytesLE 4 0 ++ bytesLE 4 128

/-- A domain of the chips 13 to 15; this is chip 15. -/
def domainBlock (s : State) : List (Nat × List Byte) :=
  [(0, bytesLE 4 0x41445231), (9, bytesLE 1 (fld s R.ADR_PROTO.OWN / 256)), (0xC, bytesLE 2 0xE000), (0x10 + 16 * 13, bytesLE 8 1), (0x10 + 16 * 14, bytesLE 8 2)]

theorem witness_JobsStart_rest :
    (GoodFirmware (holds [(0, firmware)]) (memBytes (holds [(0, firmware)]) 0 128) ∧ Lp5xSound (holds [(0, firmware)]) 0 128 ∧
        1 = 1 - fld (holds [(0, firmware)]) R.WDN_STAT.IMAGE) ∧
      (let s := holds (domainBlock State.reset)
       let b := memBytes s 0 0x4000
       blockOk s b = true ∧ bitOf (fieldLE b 0xC 2) 15 = true ∧ blockDie b 15 = s.domain.die ∧ 3 ≤ (maskList (fieldLE b 0xC 2)).length ∧
         ∀ p, p < 8 → portState s p = 0 ∧ (blockPort b 15 p).2.2 = flag s (R.ADR_PCTL.EN p)) ∧
      Lp5xSound (holds (domainBlock State.reset)) 0 0x4000 ∧
      (radioOff (served [] id) = true ∧ bitsOf (11 * 2 + 11 * 2 ^ 8) 4 1 ≤ 11 ∧ bitsOf (11 * 2 + 11 * 2 ^ 8) 11 8 < 12 ∧ 3 ≤ bitsOf (11 * 2) 4 1 ∧
        bitsOf (11 * 2) 4 1 ≤ 11) ∧
      (let s := tabled 1 (fun p => { p with layout := [(63, (1, 2))] })
       1 + 1 ≤ tdRows (underLayout s 63) 63 ∧ flag s (R.TD_CTL.EN 63) = true ∧ fld s (R.TD_STATE.STATE 63) = 1) ∧
      Lp5xSound (tabled 1 (fun p => { p with layout := [(63, (1, 2))] })) 0 (1 * tdRowBytes (underLayout (tabled 1 (fun p => { p with layout := [(63, (1, 2))] })) 63) 63) ∧
      (fld (tabled 0 id) (R.TD_STATE.STATE 63) = 0 ∧ (∀ i, i < 1 → fieldLE (memBytes (tabled 0 id) (0 + (4 + tdRowBytes (tabled 0 id) 63) * i) 4) 0 4 < tdRows (tabled 0 id) 63)) ∧
      Lp5xSound (tabled 0 id) 0 (1 * (4 + tdRowBytes (tabled 0 id) 63)) ∧
      (TestMay (served [] id) 0 0xFFF ∧ TestMay (served [(R.WV_CTL.EN 0, 0), (R.WV_CTL.EN 1, 0)] id) 3 3 ∧ TestMay (served [] id) 4 3) ∧
      (4 ≤ 4 ∧ 4 ≠ 3 ∧ lp5xEnd - 1024 + 1024 ≤ lp5xEnd) := by
  refine ⟨⟨⟨by decide, by rw [memBytes_length]; decide, by unfold NamesKey; decide +kernel, by decide⟩, sound_of (by decide) rfl rfl rfl rfl, by decide⟩,
    by decide +kernel, sound_of (by decide) rfl rfl rfl rfl, by decide, by decide, sound_of (by decide) rfl rfl rfl rfl, by decide,
    sound_of (by decide) rfl rfl rfl rfl, ⟨by unfold TestMay; decide, by unfold TestMay; decide, by unfold TestMay; decide⟩, by decide⟩

/-- The pairs whose jobs end, the room for the notice, and what each job finds: a live fill of the last row, a staged fill, a plane not in use. -/
theorem witness_JobsEnd :
    (let s := served [] (fun w => { w with jobs := [⟨7, 47, 3, wantMessage 0x0902 0 65535 (bytesLE 4 5 ++ bytesLE 4 4095) 0 0, [], false, none, false⟩] })
     47 < 48 ∧ bitOf s.wdn.ready (pairOf 47) = true ∧ ((mail s 47).ntcTail + 2 ^ 16 - (mail s 47).ntcHead) % 2 ^ 16 < 16 ∧ (mail s 47).vecEn = false) ∧
      0x0402 ∈ [0x0402, 0x0503, 0x0601, 0x0701, 0x0902] ∧
      (flag State.reset R.JRX_STAT.LINK_UP = false ∧ flag (regsSet [(R.JRX_STAT.LINK_UP, 1)] State.reset) R.JRX_STAT.LINK_UP = true) ∧
      (let s := regsSet [(R.TD_CTL.EN 63, 0)] (tabled 0 id)
       shardOwner s 63 (shardOf s 63 (2 ^ 24 - 1)) = chipId s ∧ (List.replicate (tdRowBytes s 63) (3 : Byte)).length = tdRowBytes s 63 ∧
         freeSlot s 63 = some 0 ∧ (dirEntry s 63 (2 ^ 24 - 1)).curValid = false ∧ (dirEntry s 63 (2 ^ 24 - 1)).prevValid = false ∧
         (slotAddr s 63 0 + tdRowBytes s 63 ≤ dirAddr s 63 (2 ^ 24 - 1)) ∧ dirAddr s 63 (2 ^ 24 - 1) % 16 = 0) ∧
      Lp5xSound (regsSet [(R.TD_CTL.EN 63, 0)] (tabled 0 id)) (dirAddr (regsSet [(R.TD_CTL.EN 63, 0)] (tabled 0 id)) 63 (2 ^ 24 - 1)) 16 ∧
      Lp5xFree (regsSet [(R.TD_CTL.EN 63, 0)] (tabled 0 id)) (slotAddr (regsSet [(R.TD_CTL.EN 63, 0)] (tabled 0 id)) 63 0)
        (tdRowBytes (regsSet [(R.TD_CTL.EN 63, 0)] (tabled 0 id)) 63) ∧
      (planeInUse State.reset 1 0 = false ∧
        let s := regsSet [(R.WV_PSTAT.VALID 1, 1), (R.WV_CTL.SEL 1, 0)] State.reset
        planeInUse s 1 1 = false ∧ planeInUse s 1 0 = true) ∧
      ((bytesLE 16 0).length = 16 ∧ 24 ≤ (List.replicate 24 (0 : Byte)).length ∧ (List.replicate 24 (0 : Byte)).length ≤ 0x80000) ∧
      (Lp5xFree State.reset (lp5xEnd - 1024) 1024 ∧ lp5xEnd - 1024 < 2 ^ 44) :=
  ⟨by decide, by decide, by decide, by decide +kernel, sound_of (by decide +kernel) rfl rfl rfl (unpoisoned _ _ rfl rfl),
    (sound_of (by decide +kernel) rfl rfl rfl (unpoisoned _ _ rfl rfl)).1, by decide, by decide, (sound_of (by decide) rfl rfl rfl rfl).1, by decide⟩

/-! ### Hypotheses met: power, start-up, test -/

/-- All Quarters powered in one partition of tile tasks. -/
def planning (l : List (Fld × Nat)) (f : WdnSt → WdnSt) : State :=
  let s := regsSet ((List.range 12).map (fun q => (R.QCLK.GATED q, 0)) ++
    [(R.PART_CFG.EN 0, 1), (R.PART_CFG.MODE 0, 1), (R.PART_CFG.QMASK 0, 0xFFF)] ++ l) State.reset
  { s with wdn := f s.wdn }

theorem fits_bounds {s : State} {cap d n : Nat} (h : PairFits s cap d n) : d < 5 ∧ n < (servingQuarters s).length + 1 := by
  unfold PairFits at h; simp only at h; omega

/-- 12 000 mW keep seven serving Quarters at the slowest divisor, and nothing keeps any at no cap. -/
theorem witness_PowerIsPlanned_pairs :
    PairFits (planning [] id) (fld (planning [] id) R.PWR_CAP.val) 4 7 ∧
      (∀ d n, PairFits (planning [] id) (fld (planning [] id) R.PWR_CAP.val) d n →
        n * wantShare d < 7 * wantShare 4 ∨ (n * wantShare d = 7 * wantShare 4 ∧ d ≤ 4)) ∧
      (∀ d n, ¬ PairFits (planning [(R.PWR_CAP.val, 0)] id) (fld (planning [(R.PWR_CAP.val, 0)] id) R.PWR_CAP.val) d n) := by
  refine ⟨by unfold PairFits; decide, fun d n h => ?_, fun d n h => ?_⟩
  · have hs : (servingQuarters (planning [] id)).length = 12 := by decide
    have hb := fits_bounds h
    rw [hs] at hb
    have all : ∀ d, d < 5 → ∀ n, n < 13 → PairFits (planning [] id) (fld (planning [] id) R.PWR_CAP.val) d n →
        n * wantShare d < 7 * wantShare 4 ∨ (n * wantShare d = 7 * wantShare 4 ∧ d ≤ 4) := by
      unfold PairFits; decide +kernel
    exact all d hb.1 n hb.2 h
  · have hz : fld (planning [(R.PWR_CAP.val, 0)] id) R.PWR_CAP.val = 0 := by decide
    rw [hz] at h
    unfold PairFits at h; simp only at h; omega

theorem witness_PowerIsPlanned_plan :
    (State.reset.events.length + State.reset.radio.crcSec.length + State.reset.wdn.power.stretches.length ≤ 256 ∧ State.reset.Inv) ∧
      ((planning [] id).wdn.power.budget = none ∧ (planning [] id).wdn.power.samples = [] ∧ Unheard (planning [] id) 2 ∧
        (∀ q, q < 12 → flag (planning [] id) (R.QCLK.GATED q) = false ∧ flag (planning [] id) (R.QCLK.DRAINING q) = false) ∧
        fld (planning [] id) R.PWR_STATE.STATE < 2) ∧
      (fld (planning [(R.PWR_STATE.STATE, 2)] id) R.PWR_STATE.STATE = 2 ∧ fld (planning [(R.PWR_STATE.STATE, 3)] id) R.PWR_STATE.STATE = 3) ∧
      (let hot : List Int := [0, 0, 0, 0, 0, 0, 0, 0, 0, 0, 0, 1000]
       hot.length = 12 ∧ (1000 : Int) ∈ hot ∧ ∀ y, y ∈ hot → y ≤ 1000) ∧
      (let s := planning [(R.PWR_STATE.LEASE_EXPIRED, 1)] (fun w => { w with power := { w.power with budget := some ⟨20000, 10000, 0, 10, 0⟩ } })
       s.wdn.power.budget = some ⟨20000, 10000, 0, 10, 0⟩ ∧ flag s R.PWR_STATE.LEASE_EXPIRED = true ∧ fld s R.PWR_STATE.STATE < 2 ∧ s.wdn.power.samples = []) := by
  refine ⟨⟨by decide, reset_inv⟩, ⟨by decide, by decide, by unfold Unheard; decide, by decide, by decide⟩, by decide, by decide, by decide⟩

/-- A chip in WATCH that kept a configuration to come back to. -/
def watching : State :=
  let s := planning [(R.PWR_STATE.STATE, 3), (R.PWR_WAKE.WAKE_ON_WHISPER, 1)] id
  { s with wdn := { s.wdn with power := { s.wdn.power with
    plane := some ⟨0, 1, [], []⟩
    saved := [((R.PART_CFG.QMASK 11).off, 2 ^ 13 + 1), ((R.PART_LEND.val 11).off, 0), ((R.PART_LEDGER.LEAD 11).off, 0), (R.KCTL.RX_EN.off, 1),
      (R.JRX_CTL.EN.off, 1), (R.JTX_CTL.EN.off, 1), ((R.WV_CTL.EN 0).off, 1)] } } }

theorem witness_PowerIsPlanned_rest :
    (flag (planning [(R.QCLK.DRAINING 11, 1)] id) (R.QCLK.DRAINING 11) = true ∧ flag (planning [] id) (R.QCLK.DRAINING 11) = false ∧
        ∀ i, i < 8 → (core (planning [(R.QCLK.DRAINING 11, 1)] id) (8 * 11 + i)).task = none ∧
          (core (planning [(R.QCLK.DRAINING 11, 1)] id) (8 * 11 + i)).claim = none) ∧
      (flag State.reset (R.QCLK.GATED 11) = true ∧ ¬ (flag (planning [] id) (R.QCLK.GATED 11) = true ∨ flag (planning [] id) (R.QCLK.STRETCH 11) = true)) ∧
      (let s := planning [] (fun w => { w with power := { w.power with budget := some ⟨20000, 10000, 0, 10, 0⟩ } })
       let s' := advance (regsSet [(R.TIME_EPOCH.EPOCH, 3)] s) 0
       s'.wdn.power.budget = some ⟨20000, 10000, 0, 10, 0⟩ ∧ 10 ≠ 0 ∧ flag s' R.PWR_STATE.LEASE_EXPIRED = false ∧ 0 + 10 * 1000000000 ≤ extTime s' ∧
         extTime (advance s 0) < 0 + 10 * 1000000000) ∧
      Unheard (advance (planning [] id) 0) 2 ∧ (advance State.reset 0).wdn.power.budget = none ∧
      (110 * 12000 < 100 * 13201 ∧ 72000 < 72001) ∧
      ((fld watching R.PWR_STATE.STATE = 3 ∧ flag watching R.PWR_WAKE.WAKE_ON_WHISPER = true) ∧ watching.wdn.power.plane = some ⟨0, 1, [], []⟩ ∧
        watching.wdn.power.saved = [((R.PART_CFG.QMASK 11).off, (0x2001 : BitVec 32).toNat), ((R.PART_LEND.val 11).off, (0 : BitVec 32).toNat),
          ((R.PART_LEDGER.LEAD 11).off, (0 : BitVec 32).toNat), (R.KCTL.RX_EN.off, (1 : BitVec 32).toNat), (R.JRX_CTL.EN.off, (1 : BitVec 32).toNat),
          (R.JTX_CTL.EN.off, (1 : BitVec 32).toNat), ((R.WV_CTL.EN 0).off, (1 : BitVec 32).toNat)]) ∧
      ¬ (fld State.reset R.PWR_STATE.STATE = 3 ∧ flag State.reset R.PWR_WAKE.WAKE_ON_WHISPER = true) ∧
      (let s := planning [(R.PWR_WAKE.WAKE_ON_WHISPER, 1)] (fun w => { w with power := { w.power with entering := some (3, 0) } })
       s.wdn.power.entering = some (3, 0) ∧ flag s R.PWR_WAKE.WAKE_ON_WHISPER = true ∧ fld s R.PWR_STATE.STATE ≠ 3) :=
  ⟨by decide, by decide, by decide, by unfold Unheard; decide, by decide, by decide, by decide, by decide, by decide⟩

/-- A chip whose guard is as given. -/
def guarding (f : GuardSt → GuardSt) : State := { State.reset with guard := f State.reset.guard }

theorem witness_GuardActs :
    ((∀ n, n < 12 → flag State.reset (R.PART_CFG.EN n) = false) ∧ (∀ c, c < 96 → (core State.reset c).claim = none) ∧ State.reset.wdn.accepted = [] ∧
        selfState State.reset = 0) ∧
      ((guarding (fun g => { g with goodSince := some 0, closed := true, vin := 3500 })).guard.goodSince = some 0 ∧ 0 + 10000 ≤ 10000 ∧
        (guarding (fun g => { g with closed := true })).guard.closed = true ∧ 95 * 3500 ≤ 100 * 3325) ∧
      ¬ (95 * 3500 ≤ 100 * 3324) ∧
      (10000 < 10001 ∧ 3000 < 3001 ∧ 1000 < 1001) ∧
      (guarding (fun g => { g with thermN := true })).guard.tripped = false ∧ State.reset.events.length < 256 ∧ State.reset.guard.thermN = false := by
  decide

/-- A chip that is OFF or DORMANT, or leaves for a reset. -/
def booting (l : List (Fld × Nat)) (f : BootSt → BootSt) : State :=
  let s := regsSet l State.reset
  { s with wdn := { s.wdn with boot := f s.wdn.boot }, guard := { s.guard with closed := true, goodSince := some 0 } }

theorem witness_ChipStartsAndResets :
    (let s := booting [(R.EG_STAT.PWRFAIL_N, 1)] (fun b => { b with power := false })
     s.wdn.boot.power = false ∧ s.guard.closed = true ∧ flag s R.EG_STAT.PWRFAIL_N = true) ∧
      ¬ (State.reset.wdn.boot.power = false ∧ State.reset.guard.closed = true ∧ flag State.reset R.EG_STAT.PWRFAIL_N = true) ∧
      State.reset.wdn.boot.leaving = none ∧
      ((booting [] (fun b => { b with leaving := some (2, 3) })).wdn.boot.leaving = some (2, 3) ∧
        (booting [] (fun b => { b with leaving := some (1, 1) })).wdn.boot.leaving = some (1, 1) ∧
        (booting [] (fun b => { b with leaving := some (1, 1) })).domain.block = none ∧ selfState (booting [] (fun b => { b with leaving := some (1, 1) })) ≠ 4) ∧
      (¬ (flag (booting [(R.CLK_STAT.PLL_LOCK, 0)] (fun b => { b with power := true, dormant := false })) R.CLK_STAT.PLL_LOCK = true) ∧
        selfState (booting [(R.CLK_STAT.PLL_LOCK, 0)] id) = 0) ∧
      (fld (booting [(R.BOOT_STAT.BOOT_ATTEMPTS, 3)] id) R.BOOT_STAT.BOOT_ATTEMPTS = 3 ∧
        fld (booting [(R.BOOT_STAT.BOOT_ATTEMPTS, 3), (R.BOOT_STAT.FAIL_B, 6)] id) R.BOOT_STAT.FAIL_B = 6 ∧
        fld (booting [(R.BOOT_STAT.BOOT_ATTEMPTS, 3)] id) R.BOOT_STAT.FAIL_B ≠ 6 ∧ fld State.reset R.WDN_STAT.IMAGE = 0) ∧
      (let s := booting [] (fun b => { b with dormant := true, brownout := true })
       s.wdn.boot.dormant = true ∧ flag s R.PWR_STATE.PWRFAIL = false ∧ flag s R.WDN_STAT.RUNNING = false ∧ flag s R.CKPT_STAT.COMPLETE = false ∧
         s.wdn.boot.brownout = true ∧ s.guard.goodSince = some 0 ∧ 0 + 1000 * fld s R.PWR_WAKE.RESTART_MS ≤ 1000 * 65535) := by
  decide

/-- Firmware of the least version that raises the floor, after 24 h, in both devices. -/
theorem witness_ChipStartsAndResets_times :
    (let img := [(flashAddr 0 0x10000C, bytesLE 4 64), (flashAddr 1 0x10000C, bytesLE 4 64)]
     let s := { served [(R.TIME_EPOCH.EPOCH, 20117)] id with mem := stored img }
     let s' := advance s 0
     (flag s' R.WDN_STAT.RUNNING = true ∧ s'.wdn.boot.recovery = false ∧ s'.wdn.boot.cleanSince + 86400000000000 ≤ extTime s' ∧ s'.wdn.otp.badFloor = false ∧ s'.wdn.otp.floor < 64 ∧
       fieldLE (memBytes s (flashAddr 0 0x100000) 16) 0xC 4 = 64 ∧ fieldLE (memBytes s (flashAddr 1 0x100000) 16) 0xC 4 = 64 ∧ fld s' R.WDN_STAT.IMAGE = 0) ∧
       s'.wdn.boot.exitAt + 600000000000 ≤ extTime s' ∧ s'.wdn.boot.at_ + 60000000000 ≤ extTime s') ∧
      (extTime (advance State.reset 0) < (advance State.reset 0).wdn.boot.exitAt + 600000000000 ∧ flag (advance State.reset 0) R.WDN_STAT.RUNNING = false) := by
  decide +kernel

/-- A chip with the test port as given and a checker of four lanes on port 7. -/
def tapped (f : TapSt → TapSt) : State :=
  served [] (fun w => { w with tap := f w.tap, prbs := [⟨4, 7, 15, 0, true, true, 8, [], 0, 0⟩] })

theorem witness_TestAndHealth_tap :
    TapQuiet (tapped (fun t => { t with ir := 0xFF })) ∧
      LinksIdle (served [] (fun w => { w with tap := { w.tap with ir := 0xFF } })) ∧
      (let s := tapped (fun t => { t with ir := 0xFF, scope := 5 })
       wantTap s 0x10 ≠ 2 ∧ ¬ (wantTap s 0x10 = 0 ∨ (3 ≤ wantTap s 0x10 ∧ wantTap s 0x10 ≤ 6)) ∧ wantTap s 0x21 = 0x21 ∧ bitOf s.wdn.tap.scope 0 = true ∧
         flag s R.WDN_STAT.RUNNING = true ∧ wantTap s 0x20 = 0x20) ∧
      ((519 < 520 ∧ 4 * 519 = 0x81C) ∧ 4 * 512 = 0x800 ∧ 4 * 515 = 0x80C ∧ 4 * 517 = 0x814) ∧
      ((core { State.reset with cores := [(95, running)] } 95).run = .running ∧
        (core { State.reset with cores := [(95, { running with run := .debug })] } 95).run = .debug) ∧
      (let s := tapped (fun t => { t with ir := 6 })
       { s with wdn := { s.wdn with boot := { s.wdn.boot with power := true } } }.wdn.boot.power = true ∧ s.wdn.tap.ir = 6 ∧ wantTap s 0x99 = 0xFF) ∧
      (let x : Prbs := ⟨4, 7, 15, 0, true, true, 8, [], 0, 0⟩
       (tapped id).wdn.prbs = [] ++ [x] ++ [] ∧ x.chk = true ∧ bitOf x.lanes 3 = true ∧ bitOf x.lock 3 = true ∧ bitOf x.lock 0 = false ∧ 7 < 8) := by
  refine ⟨by unfold TapQuiet; decide, by unfold LinksIdle; decide, by decide, by decide, by decide, by decide, by decide⟩

theorem witness_TestAndHealth_health :
    (let s := { served [] id with guard := { State.reset.guard with vin := 4000, closed := true } }
     (flag s R.WDN_STAT.RUNNING = true ∧ fld s R.PWR_STATE.STATE < 3 ∧ 4000 ≤ s.guard.vin ∧ s.guard.closed = true ∧ flag s R.PWR_STATE.PWRFAIL = false) ∧
       s.events.length < 256) ∧
      Unheard State.reset 6 ∧
      ((1800 * 1000 / 326 - 0) * 98 / 100 < 5517 ∧ ¬ ((1800 * 1000 / 300 - 0) * 98 / 100 < 5517)) ∧
      flag State.reset R.WDN_STAT.RUNNING = false ∧
      (let proj : List (Option (Nat × Nat × Nat)) := [none, none, none, none, none, none, some (100, 50, 200)]
       proj.length = 7 ∧ (List.replicate 12 (3 : Int)).length ≤ 12 ∧ 90 ≤ min 365 (List.replicate 90 0).length) ∧
      Unheard (served [] (fun w => { w with mails := w.mails.map (fun x => (x.1, { x.2 with nclass := 0 })), ready := 1 })) 6 :=
  ⟨by decide, by unfold Unheard; decide, by decide, by decide, by decide, by unfold Unheard; decide⟩

/-! ### The machine -/

/-- A step that ends in a state: the tick, and a command. -/
theorem witness_EveryStepKeepsMemoryCanonical :
    State.reset.Inv ∧ (∃ t, step State.reset = .next t) ∧
      ∃ t, step { State.reset with pending := [.ethLinkUp 2 true true 3] } = .next t :=
  ⟨reset_inv, answers_next (by decide +kernel), answers_next (by decide +kernel)⟩

theorem witness_PilotOpRoundTrip : (PilotOp.nop).fits = true ∧ decodeOp 0xFFFFFFFF = .illegal ∧ decodeOp 0x51136001 ≠ .illegal := by decide
end Sys2Proof.Machine.Tests
end

section
/-!
PROOFS. Every command ends with memory in canonical form and no store waiting (log entries 2 and 5).
-/
namespace Sys2Proof.Machine

/-! ### How a command ends -/

/-- An outcome in which a command can end: `finish` of some state, or a fault. -/
inductive Ended : Host.Outcome State Fault Refusal → Prop
  | done (s : State) : Ended (finish s)
  | absent (r : Fault) : Ended (.fault r)

/-- The state with which a command ends meets the invariant, whatever the command has done. -/
theorem Ended.inv {o : Host.Outcome State Fault Refusal} {t : State} (h : Ended o) (ht : o = .next t) : t.Inv := by
  cases h with
  | done s => exact finish_inv ht
  | absent r => cases ht

theorem Ended.ite {p : Prop} [Decidable p] {a b : Host.Outcome State Fault Refusal} (ha : Ended a) (hb : Ended b) :
    Ended (if p then a else b) := by
  split
  · exact ha
  · exact hb

theorem commandRow_ended (code : Nat) (r : Sys2Proof.MailReq) (s : State) : Ended (commandRow code r s) :=
  .ite (.absent _) (.ite (.done _) (.done _))

theorem issueOp_ended (i : Sys2Proof.Issue) (op : PilotOp) (s : State) : Ended (issueOp i op s) :=
  .ite (.absent _) (.ite (.done _) (.done _))

theorem execInterruptEntry_ended (c : Nat) (s : State) : Ended (execInterruptEntry c s) := by
  unfold execInterruptEntry
  refine .ite (.absent _) ?_
  split
  · exact .ite (.done _) (.done _)
  · exact .done _

theorem execQueueAccept_ended (adr : Bool) (s : State) : Ended (execQueueAccept adr s) := by
  unfold execQueueAccept
  extract_lets u
  -- the room of a ring stays a name: the kernel would run `ringWaits` to reduce the match on it
  obtain ⟨waits, hw⟩ : ∃ f, ringWaits s = f := ⟨_, rfl⟩
  rw [hw]
  split
  · exact .done _
  · split <;> exact .done _

theorem execMcDeliver_ended (ch : Nat) (s : State) : Ended (execMcDeliver ch s) := by
  refine .ite (.absent _) ?_
  split
  · exact .done _
  · exact .ite (.done _) (.done _)

theorem execQrecvTimeout_ended (after c : Nat) (s : State) : Ended (execQrecvTimeout after c s) := by
  refine .ite (.absent _) ?_
  dsimp only
  split
  · exact .ite (.done _) (.done _)
  · exact .done _

theorem execSwaitTimeout_ended (after c : Nat) (slot : Option Nat) (s : State) : Ended (execSwaitTimeout after c slot s) := by
  refine .ite (.absent _) ?_
  cases slot with
  | none =>
    dsimp only
    split
    · exact .ite (.done _) (.done _)
    · exact .done _
  | some j =>
    dsimp only
    split
    · exact .ite (.done _) (.done _)
    · exact .done _

theorem execTaskDispatch_ended (p : Nat) (s : State) : Ended (execTaskDispatch p s) := by
  refine .ite (.absent _) ?_
  dsimp only
  split
  · exact .done _
  · split
    · exact .ite (.done _) (.done _)
    · exact .done _
  · exact .done _

theorem execXipRead_ended (w : Sys2Proof.Who) (dev off n : Nat) (timeout : Bool) (s : State) : Ended (execXipRead w dev off n timeout s) := by
  refine .ite (.absent _) ?_
  split
  · exact .ite (.done _) (.done _)
  · exact .done _
  · exact .done _

theorem execWarmReset_ended (err : Nat) (s : State) : Ended (execWarmReset err s) := by
  unfold execWarmReset
  split <;> exact .done _

theorem execCoreReset_ended (s : State) : Ended (execCoreReset s) := by
  unfold execCoreReset
  split <;> exact .done _

theorem execTapDebug_ended (op : Sys2Proof.DebugOp) (s : State) : Ended (execTapDebug op s) := by
  cases op with
  | select => exact .done _
  | halt c => exact .ite (.absent _) (.done _)
  | resume c => exact .ite (.absent _) (.done _)
  | breakpoint c => exact .ite (.absent _) (.ite (.done _) (.done _))

theorem execRegisterWrite_ended (w : Sys2Proof.Who) (off : Nat) (d : List Byte) (s : State) : Ended (execRegisterWrite w off d s) := by
  unfold execRegisterWrite
  split
  · exact .done _
  · dsimp only
    split <;> exact .done _

/-- Every command ends in a state or in a fault: the rows of Pilot and of the vector engine through the bundle they issue, the mailbox commands
through their message, and the others by the guards on their operands; those that decide by a match have lemmas of their own. -/
theorem exec_ended (i : Instr) (s : State) : Ended (exec i s) := by
  cases i with
  | heel | ifence | fenceFull | fenceRelease | fenceAcquire | fenceDma | rti | trap | waiti | rbrk | add | sub | addu | subu | and | or | xor | sll
  | srl | sra | slt | sltu | min | max | minu | maxu | abs | neg | clz | mul | mulh | mulhu | packh | addi | andi | ori | xori | slli | srli | srai
  | slti | sltiu | mini | maxi | lui | mpy | mac | msu | dmac | ext | ext16 | mulq | aclr | ald | ahi | load | store | mova | movb | movl | movm
  | aaddi | aaddm | mfa | branch | j | jal | jr | jalr | rep | mfs | mts | vadd | vadds | vsub | vsubs | vaddus | vsubus | vmul | vmulh | vmulhu
  | vmulq | vmulqs | vmac | vmacs | vmin | vmax | vminu | vmaxu | vand | vor | vxor | vsll | vsrl | vsra | vsrar | vabs | vabss | vmov | fadd
  | fsub | fmul | fma | fmin | fmax | fabs | fneg | frcpe | frsqe | fmov | vld | vst | vgather | vscatter | vcvt | vcmp | vred | bcast | slideup
  | slidedn | perm | kand | kor | kxor | kandn | kpopc | kfirst | ktos | stok | vmovs | lrpass | dma | imload | qsend | qrecv | ssig | swait =>
    exact issueOp_ended _ _ _
  | rdS | rdX | upg | wrl | dataS | dataE | dataM | wb | evictE | snpInv | snpFwdS | snpFwdX | invAck | fwdAck | wbAck | wbPending | retry | err
  | ucData | ucAck | patrolRead | decisionInstant | lkupData | lookupDone | skewWindow | skewEvaluation | prevReclaim | replicaScrub | linkUp | arm
  | kslotPhase | kmapRegister | kmapSelect | wfalse | whisperWake | wadjAdjust | timeWrap | timeEpochLate | timeEpoch | timeInc | timeSlew
  | timeStep | refTune | heldApply | ppsOut | ppsIn | ppsLost | tchkResp | checkLost | packetForward | e2eAck | commitMember | heartbeatSend | flr
  | perstN | jobDone | eventLog | telemetrySample | powerPlan | leaseExpiry | overcurrent | switchReclose | refclkLoss | powerOn | healthRecord
  | healthFit | extest | samplePreload | idcode | highz | extestPulse | extestTrain | jtagMbox | recover | scanMode | bypass
  | tapInstructionReplaced | kmapOperationEnd | pcieLinkDown | pllLockLoss | inputSwitchClose | railsFall | windowBWrite | inboundMemoryWrite
  | timeCheckSend | clamp =>
    exact .done _
  | trainingTimeout | idle | sequencedFlit | nak | credit | hello | retrain | replayTimeout | retrainTimeout | downRetry | mbox | mboxRsp
  | reachability | join | admitMember | leave | lossBroadcast | heartbeat | peerLost | heartbeatAnswer | weightFill | avenueIssue | passStart
  | passComplete | rowStop | passAbort | dmaComplete | ucRd | ucWr | send | consume | signal | syncReset | qmsg | syncSig | taskEnd | claimYield
  | claimImageLoaded | lookup | bind | unbind | lkupReq | skewCounterRead | shardMove | laneLock | laneLockLoss | multiblock | symbolLand
  | symbolLaunch | whisperWindow | codewordDescriptor | codewordDecode | codewordEnd | decodeDeadline | weaveScrub | tchk | msixUnmask
  | hostCopyDescriptor | hostCopyDone | hostCopyTimeout | ethReceive | ethNotify | xspiCmd | xspiCmdDone | requestConsume | mgmtDatagram
  | eventReport | droopStretch | droopRecover | prbsLock | prbsLockLoss | inboundSyncWrite | e2eAckTimeout =>
    exact .ite (.done _) (.absent _)
  | syncWait | syncGrant | syncWithdraw =>
    exact .ite (.absent _) (.done _)
  | timeNs | watchdogRestart | powerOverrun | pwrfail | wakeN | brownoutRestart | refclkReturn | holdupTest | pcieLinkUp | slotBoundary
  | thermalTrip | overvoltage | checkpointExpiry | rollbackRaise | pwrfailNDeassert | inputRemoved | bootAttemptsClear =>
    exact .ite (.done _) (.done _)
  | nop =>
    exact .ite (.absent _) (issueOp_ended _ _ _)
  | kennelEntry =>
    exact .ite (.absent _) (.ite (.absent _) (.ite (.done _) (.ite (.done _) (.done _))))
  | taskSubmit | leashExpiry | reqTail | quarterGate | ethLinkDown | ethLinkUp =>
    exact .ite (.absent _) (.ite (.done _) (.done _))
  | ringTail | ethTransmit =>
    exact .ite (.absent _) (.ite (.done _) (.ite (.done _) (.done _)))
  | bootFallback =>
    exact .ite (.done _) (.ite (.done _) (.done _))
  | blockLock =>
    exact .ite (.ite (.done _) (.absent _)) (.absent _)
  | thermN =>
    exact .ite (.absent _) (.ite (.ite (.done _) (.done _)) (.ite (.done _) (.done _)))
  | interruptEntry =>
    exact execInterruptEntry_ended ..
  | queueAccept =>
    exact execQueueAccept_ended ..
  | mcDeliver =>
    exact execMcDeliver_ended ..
  | qrecvTimeout =>
    exact execQrecvTimeout_ended ..
  | swaitTimeout =>
    exact execSwaitTimeout_ended ..
  | taskDispatch =>
    exact execTaskDispatch_ended ..
  | xipRead =>
    exact execXipRead_ended ..
  | warmReset =>
    exact execWarmReset_ended ..
  | coreReset =>
    exact execCoreReset_ended ..
  | tapDebug =>
    exact execTapDebug_ended ..
  | registerWrite =>
    exact execRegisterWrite_ended ..
  -- the mailbox commands
  | _ =>
    exact commandRow_ended _ _ _

/-- Every step ends as commands end, the tick of CK_TIME (log entry 1) among them. -/
theorem step_ended (s : State) : Ended (step s) := by
  unfold step
  split
  · exact .done _
  · exact exec_ended _ _

/-- Settles O58: every command and every tick ends in `finish`, which puts the waiting stores into canonical memory, or in a fault. -/
theorem everyStepKeepsMemoryCanonical : Obligations.EveryStepKeepsMemoryCanonical :=
  fun s _ _ ht => (step_ended s).inv ht

end Sys2Proof.Machine
end

section
/-!
PROOFS. Uncached accesses of other chips: where an address of this chip leads, what a packet and a message leave, and the statement (R29,
R221, R238, R421, R425).
-/
namespace Sys2Proof.Machine

/-! ### Addresses of this chip (R24 to R29) -/

theorem chipId_lt (s : State) : chipId s < 16 := Nat.mod_lt _ (by decide)

theorem ownGa_chip (s : State) {a : Nat} (h : a < 2 ^ 44) : ownGa s a / 2 ^ 44 % 16 = chipId s := by
  have hc := chipId_lt s
  unfold ownGa
  omega

theorem ownGa_addr (s : State) {a : Nat} (h : a < 2 ^ 44) : ownGa s a % 2 ^ 44 = a := by
  unfold ownGa
  omega

/-- A global address of this chip leads where its local address leads (R27). -/
theorem resolve_ownGa (s : State) (w : Sys2Proof.Who) {a : Nat} (h : a < 2 ^ 44) : resolve s w (ownGa s a) = localTarget s w a := by
  simp only [resolve, ownGa_chip s h, ownGa_addr s h, if_pos]

/-- The sync-object region (R238): every agent but the host reaches it. -/
theorem localTarget_sync (s : State) (w : Sys2Proof.Who) {n o : Nat} (hn : n < 16384) (ho : o < 64) (hw : w ≠ .host) :
    localTarget s w (0x90000000000 + 64 * n + o) = .sync n o := by
  unfold localTarget lp5xEnd
  rw [if_neg (by omega), if_neg (by omega), if_pos (by omega), if_neg hw]
  congr 1 <;> omega

/-- The doorbell pages (R221). -/
theorem localTarget_bell (s : State) (w : Sys2Proof.Who) {q o : Nat} (hq : q < 1024) (ho : o < 0x4000) :
    localTarget s w (0x90010000000 + 0x4000 * q + o) = .bell q o := by
  unfold localTarget lp5xEnd
  rw [if_neg (by omega), if_neg (by omega), if_neg (by omega), if_pos (by omega)]
  congr 1 <;> omega

/-- An LP5X address leads to LP5X, or nowhere where its page is retired (R180, R208). -/
theorem resolve_lp5x (s : State) (chip : Nat) {a : Nat} (h : a < lp5xEnd) :
    resolve s (.remote chip) (ownGa s a) = .unmapped ∨ resolve s (.remote chip) (ownGa s a) = .lp5x a := by
  rw [resolve_ownGa s _ (by unfold lp5xEnd at h; omega)]
  unfold localTarget
  rw [if_pos h]
  by_cases hp : s.marks.pages.contains (a / 4096) = true
  · exact .inl (if_pos hp)
  · exact .inr (by rw [if_neg hp, if_neg (by simp)])

theorem ownGa_add (s : State) (a o : Nat) : ownGa s a + o = ownGa s (a + o) := Nat.add_assoc ..

theorem resolve_sync (s : State) (chip : Nat) {n o ga : Nat} (hn : n < 16384) (ho : o < 64)
    (hga : ga = ownGa s (0x90000000000 + 64 * n) + o) : resolve s (.remote chip) ga = .sync n o := by
  rw [hga, ownGa_add, resolve_ownGa s _ (by omega), localTarget_sync s _ hn ho (by simp)]

theorem resolve_bell (s : State) (chip : Nat) {q o ga : Nat} (hq : q < 1024) (ho : o < 0x4000)
    (hga : ga = ownGa s (0x90010000000 + 0x4000 * q) + o) : resolve s (.remote chip) ga = .bell q o := by
  rw [hga, ownGa_add, resolve_ownGa s _ (by omega), localTarget_bell s _ hq ho]

/-- A Kennel entry hides an LP5X address of this chip where its page is retired (R208). -/
theorem kennelHit_lp5x (s : State) {a : Nat} (h : a < lp5xEnd) : kennelHit s (ownGa s a) = s.marks.pages.contains (a / 4096) := by
  have h44 : a < 2 ^ 44 := by unfold lp5xEnd at h; omega
  simp only [kennelHit, ownGa_chip s h44, ownGa_addr s h44, if_pos h, decide_true, Bool.true_and]

/-! ### Packets, messages and words -/

/-- A packet joins the packets that wait to leave, and nothing but the fabric changes. -/
theorem sendPkt_sent (s : State) (dst ptype agent ga : Nat) (inl data : List Byte) :
    Sent s (sendPkt s dst ptype agent ga inl data) [(dst, ptype, agent, ga, inl, data)] := by
  unfold sendPkt
  refine ⟨?_, ?_⟩
  · dsimp only
    split <;> rfl
  · dsimp only
    split <;> simp [pktView]

theorem sendPkt_eq (s : State) (dst ptype agent ga : Nat) (inl data : List Byte) :
    sendPkt s dst ptype agent ga inl data = { s with fabric := (sendPkt s dst ptype agent ga inl data).fabric } := rfl

/-- Only the fabric counts for what has been sent. -/
theorem Sent.of_fabric {s u t v : State} {l : List (Nat × Nat × Nat × Nat × List Byte × List Byte)} (h : Sent u v l)
    (hs : u.fabric = s.fabric) (ht : v.fabric = t.fabric) : Sent s t l := by
  unfold Sent at h ⊢
  rwa [← hs, ← ht]

/-- The four bytes of an aligned word are the word. -/
theorem bytesOfWords_word (o : Nat) (f : Nat → Nat) (h : o % 4 = 0) : bytesOfWords o 4 f = bytesLE 4 (f o) := by
  have hw : wordsIn o 4 = [o] := by
    have h0 : 4 * (o / 4) = o := by omega
    simp [wordsIn, List.range_succ, h0]
  simp [bytesOfWords, hw, h, bytesLE, sliceBytes]

theorem numLE_bytesLE (n x : Nat) (h : x < 256 ^ n) : numLE (bytesLE n x) = x := by
  induction n generalizing x with
  | zero => simp [bytesLE, numLE] at h ⊢; exact h.symm
  | succ n ih =>
    have hx : x / 256 < 256 ^ n := Nat.div_lt_of_lt_mul (by rw [Nat.pow_succ, Nat.mul_comm] at h; exact h)
    simp only [bytesLE, numLE, ih _ hx, BitVec.toNat_ofNat]
    omega

@[simp] theorem bytesLE_length (n x : Nat) : (bytesLE n x).length = n := by
  induction n generalizing x with
  | zero => rfl
  | succ n ih => simp [bytesLE, ih]

/-- A message written whole to a SEND window with nothing staged is committed as it is (R222). -/
theorem stage_whole (s : State) (unit src : Nat) (d : List Byte) (hd : d.length = 64) (h : tabFind s.queues.staging (stageKey unit src) = none) :
    stage s unit src 0 d =
      (some d, { s with queues := { s.queues with staging := tabErase s.queues.staging (stageKey unit src) } }) := by
  simp [stage, hd, putBytes, tabGet, h, List.take_of_length_le]

@[simp] theorem syncObj_setSync_same (s : State) (n : Nat) (o : SyncObj) : syncObj (setSync s n o) n = o := by
  simp [syncObj, setSync]

theorem syncObj_setSync_ne (s : State) {n m : Nat} (o : SyncObj) (h : m ≠ n) : syncObj (setSync s n o) m = syncObj s m := by
  simp [syncObj, setSync, tabGet_tabSet_ne _ _ _ h]

/-- A signal of a semaphore that nobody waits for adds to its value (R239). -/
theorem signalLocal_count (s : State) (n k chip agent : Nat) (he : (syncObj s n).en = true) (ht : (syncObj s n).type = 0)
    (hw : (syncObj s n).waiters = []) (hv : (syncObj s n).value + k < 2 ^ 32) :
    signalLocal s n k chip agent = if k = 0 then s else setSync s n { syncObj s n with value := (syncObj s n).value + k } := by
  have hle : ¬ 0xFFFFFFFF < (syncObj s n).value + k := by omega
  simp [signalLocal, he, ht, hle, evalWaiters, hw, grantLoop]

/-- Where nothing is posted nothing is performed. -/
theorem drainPosted_nil (s : State) (h : s.posted = []) : drainPosted s = s := by
  obtain ⟨⟩ := s
  simp only at h
  subst h
  rfl

/-! ### What an uncached access does (R421, R425) -/

theorem ucReadIn_sync (s : State) (chip agent ga n : Nat) {obj o : Nat} (h : resolve s (.remote chip) ga = .sync obj o) :
    ucReadIn s chip agent ga n = sendPkt s chip 0x29 agent ga [] (bytesOfWords o n (syncWord s obj)) := by
  simp only [ucReadIn, h]

theorem ucReadIn_bell (s : State) (chip agent ga n : Nat) {q o : Nat} (h : resolve s (.remote chip) ga = .bell q o) :
    ucReadIn s chip agent ga n = sendPkt s chip 0x29 agent ga [] (bytesOfWords o n (bellWord s q)) := by
  simp only [ucReadIn, h]

/-- An address that is neither a sync object nor a doorbell page is closed to uncached accesses. -/
theorem ucReadIn_closed (s : State) (chip agent ga n : Nat) (hs : ∀ obj o, resolve s (.remote chip) ga ≠ .sync obj o)
    (hb : ∀ q o, resolve s (.remote chip) ga ≠ .bell q o) :
    ucReadIn s chip agent ga n = report (sendPkt s chip 0x28 agent ga [] []) 0x0107 agent [ga, 1, num (kennelHit s ga)] := by
  unfold ucReadIn
  generalize resolve s (.remote chip) ga = r at hs hb ⊢
  cases r with
  | sync obj o => exact absurd rfl (hs obj o)
  | bell q o => exact absurd rfl (hb q o)
  | _ => rfl

/-- A write of SIGNAL acts and is acknowledged (R238). -/
theorem ucWriteIn_signal (s : State) (chip agent ga : Nat) (d : List Byte) {obj : Nat} (h : resolve s (.remote chip) ga = .sync obj 8)
    (hd : d.length = 4) : ucWriteIn s chip agent ga d = sendPkt (signalLocal s obj (numLE d) chip agent) chip 0x2A agent ga [] [] := by
  simp only [ucWriteIn, h, hd, and_self, if_true]

/-- A message written whole to a SEND window joins the messages from Adruoth and is acknowledged (R221, R222). -/
theorem ucWriteIn_send (s : State) (chip agent ga : Nat) {q : Nat} (d : List Byte) (h : resolve s (.remote chip) ga = .bell q 0)
    (hd : d.length = 64) (hn : tabFind s.queues.staging (stageKey 0 (farSrc chip agent)) = none) :
    ucWriteIn s chip agent ga d =
      sendPkt { s with queues := { s.queues with
          staging := tabErase s.queues.staging (stageKey 0 (farSrc chip agent)), adrIn := s.queues.adrIn ++ [⟨chip, agent, q, none, d⟩] } }
        chip 0x2A agent ga [] [] := by
  simp [ucWriteIn, h, stage_whole s 0 _ d hd hn, enqueue, onQueues]

theorem ucAnswer_waiting (s : State) (a agent : Nat) (d : List Byte) (h : (a, agent) ∈ s.coh.ucOut) :
    ucAnswer s a agent d =
      { s with coh := { s.coh with ucOut := s.coh.ucOut.erase (a, agent), ucGot := s.coh.ucGot ++ [((a, agent), some d)] } } := by
  simp [ucAnswer, h, onCoh]

theorem errArrives_waiting (s : State) (a agent : Nat) (h : (a, agent) ∈ s.coh.ucOut) :
    errArrives s a agent =
      { s with coh := { s.coh with ucOut := s.coh.ucOut.erase (a, agent), ucGot := s.coh.ucGot ++ [((a, agent), none)] } } := by
  simp [errArrives, h, onCoh]

/-- An ERR that ends a request for a line (R425). -/
theorem errArrives_line (s : State) (a agent : Nat) (h : (a, agent) ∉ s.coh.ucOut) (hp : s.posted = [])
    (hl : s.coh.await.any (fun r => r.line = a / 128 ∧ r.agent = agent) = true) :
    errArrives s a agent =
      { s with coh := { s.coh with
        await := s.coh.await.filter (fun r => !(r.line = a / 128 ∧ r.agent = agent)), errs := setAdd s.coh.errs (128 * (a / 128)) } } := by
  unfold errArrives
  rw [if_neg (by simpa using h)]
  dsimp only
  rw [if_pos hl]
  exact drainPosted_nil _ hp

theorem exec_ucRd (s : State) {chip : Nat} (agent ga n : Nat) (h : chip < 16) :
    exec (.ucRd chip agent ga n) s = finish (ucReadIn s chip agent ga n) := if_pos h

theorem exec_ucWr (s : State) {chip : Nat} (agent ga : Nat) (d : List Byte) (h : chip < 16) :
    exec (.ucWr chip agent ga d) s = finish (ucWriteIn s chip agent ga d) := if_pos h

/-- A command that sends one packet and stores nothing. -/
theorem finish_sendPkt (s : State) (h : s.Inv) (dst ptype agent ga : Nat) (inl data : List Byte) :
    finish (sendPkt s dst ptype agent ga inl data) = .next (sendPkt s dst ptype agent ga inl data) :=
  finish_of_inv _ h

/-- What a report changes while the FIFO has room (R554). -/
theorem report_eq (s : State) (code agent : Nat) (args : List Nat) (h : s.events.length < 256) :
    report s code agent args = { s with events := s.events ++ [⟨code, agent, args, extTime s⟩] } := if_pos h

/-- Settles O23, clause by clause from what the access does. -/
theorem uncachedAccesses : Obligations.UncachedAccesses := by
  intro s chip agent obj q k a d hs hchip hobj hq
  refine ⟨?_, ?_, ?_, ?_, ?_, ?_, ?_⟩
  · have hr := resolve_sync s chip hobj (o := 0) (by decide) (Nat.add_zero _).symm
    refine ⟨_, (exec_ucRd s _ _ _ hchip).trans ?_, sendPkt_eq .., sendPkt_sent ..⟩
    rw [← finish_sendPkt s hs]
    exact congrArg finish ((ucReadIn_sync s chip agent _ 4 hr).trans (by rw [bytesOfWords_word _ _ rfl]; rfl))
  · have hr := resolve_bell s chip hq (o := 0x40) (by decide) rfl
    refine ⟨_, (exec_ucRd s _ _ _ hchip).trans ?_, sendPkt_eq .., sendPkt_sent ..⟩
    rw [← finish_sendPkt s hs]
    exact congrArg finish ((ucReadIn_bell s chip agent _ 4 hr).trans (by rw [bytesOfWords_word _ _ rfl]; rfl))
  · intro ha hev
    have hu : ucReadIn s chip agent (ownGa s a) 4 = _ :=
      ucReadIn_closed s chip agent (ownGa s a) 4
        (fun obj o h => by rcases resolve_lp5x s chip ha with hr | hr <;> rw [hr] at h <;> cases h)
        (fun q o h => by rcases resolve_lp5x s chip ha with hr | hr <;> rw [hr] at h <;> cases h)
    rw [kennelHit_lp5x s ha, report_eq (sendPkt s chip _ agent _ _ _) _ _ _ hev] at hu
    exact ⟨_, (exec_ucRd s _ _ _ hchip).trans ((congrArg finish hu).trans (finish_of_inv _ hs)), rfl,
      (sendPkt_sent s ..).of_fabric rfl rfl, rfl⟩
  · intro he ht hw hk hv
    have hr := resolve_sync s chip hobj (o := 8) (by decide) rfl
    have hsig := signalLocal_count s obj k chip agent he ht hw hv
    rw [exec_ucWr s _ _ _ hchip, ucWriteIn_signal s chip agent _ _ hr (by simp), numLE_bytesLE 4 k hk, hsig]
    by_cases h0 : k = 0
    · rw [if_pos h0, finish_sendPkt s hs]
      refine ⟨_, rfl, sendPkt_eq .., fun m => ?_, sendPkt_sent ..⟩
      split
      · next h => subst h; subst h0; rfl
      · rfl
    · rw [if_neg h0]
      refine ⟨_, finish_of_inv _ hs, rfl, fun m => ?_, (sendPkt_sent ..).of_fabric rfl rfl⟩
      split
      · next h => subst h; exact syncObj_setSync_same s m _
      · next h => exact syncObj_setSync_ne s _ h
  · intro hd hn
    have hr := resolve_bell s chip hq (o := 0) (by decide) (Nat.add_zero _).symm
    have hw := ucWriteIn_send s chip agent _ d hr hd (by simpa [stageKey, farSrc] using hn)
    refine ⟨_, (exec_ucWr s _ _ _ hchip).trans ((congrArg finish hw).trans (finish_of_inv _ hs)), rfl, ?_,
      (sendPkt_sent ..).of_fabric rfl rfl⟩
    simp only [sendPkt_frame, stageKey, farSrc, Nat.mul_zero, Nat.zero_add]
  · intro hm
    have hf : ∀ c : Coh, finish { s with coh := c } = .next { s with coh := c } := fun c => finish_of_inv _ hs
    refine ⟨⟨_, ?_, rfl⟩, ⟨_, ?_, rfl⟩, ⟨_, ?_, rfl⟩⟩
    · exact (congrArg finish (ucAnswer_waiting s a agent d hm)).trans (hf _)
    · exact (congrArg finish (ucAnswer_waiting s a agent [] hm)).trans (hf _)
    · exact (congrArg finish (errArrives_waiting s a agent hm)).trans (hf _)
  · intro hm hp hl
    exact ⟨_, (congrArg finish (errArrives_line s a agent hm hp hl)).trans (finish_of_inv _ hs), rfl⟩

end Sys2Proof.Machine
end

section
/-!
PROOFS. WHISPER_WAKE reloads Weave 0, and the reload also sets WV_FIFO to the number of descriptors that Weave 0 holds (R513).
-/
namespace Sys2Proof.Machine

/-- The end of a command changes no register. -/
theorem finish_reg {s t : State} (h : finish s = .next t) (off : Nat) : reg t off = reg s off := by
  cases h
  rfl

/-- A chip in WATCH that wakes on a whisper and kept a plane and a configuration to come back to. Its Weave 0 holds no descriptor, while
WV_FIFO reads 1. -/
def wakingWithFifo : State :=
  { State.reset with
    regs := [((R.WV_FIFO.val 0).off, 1), (R.PWR_STATE.STATE.off, 3), (R.PWR_WAKE.WAKE_ON_WHISPER.off, 1)]
    wdn := { State.reset.wdn with power := { State.reset.wdn.power with
      plane := some ⟨0, 1, [], []⟩
      saved := [((R.PART_CFG.QMASK 0).off, 0), ((R.PART_LEND.val 0).off, 0), ((R.PART_LEDGER.LEAD 0).off, 0), (R.KCTL.RX_EN.off, 0),
        (R.JRX_CTL.EN.off, 0), (R.JTX_CTL.EN.off, 0), ((R.WV_CTL.EN 0).off, 0)] } } }

theorem wakingWithFifo_inv : wakingWithFifo.Inv := ⟨rfl, rfl⟩

/-- The wake leaves WV_FIFO at the number of descriptors held. -/
theorem whisperWake_wvFifo : reg (whisperWake wakingWithFifo) (R.WV_FIFO.val 0).off = 0 := by decide +kernel

/-- Refutes O52: the registers that WHISPER_WAKE may change do not include WV_FIFO, and no hypothesis ties WV_FIFO to the descriptors held.
The reload of Weave 0 writes their number, so a state in which WV_FIFO reads another number sees it change. (Entry to WATCH clears both, so
the statement lacks a hypothesis rather than the model a rule.) -/
theorem not_powerIsPlanned : ¬ Obligations.PowerIsPlanned := by
  intro h
  obtain ⟨-, -, -, -, -, -, -, -, -, hwake⟩ := h wakingWithFifo wakingWithFifo_inv
  obtain ⟨t, ht, -, -, -, hregs, -⟩ := hwake 0 0 0 0 0 0 0 0 ⟨0, 1, [], []⟩ (by decide) (by decide) rfl rfl
  have hkept : reg t (R.WV_FIFO.val 0).off = reg wakingWithFifo (R.WV_FIFO.val 0).off := hregs _ (by decide)
  have hset : reg t (R.WV_FIFO.val 0).off = 0 := (finish_reg ht _).trans whisperWake_wvFifo
  exact absurd (hset.symm.trans hkept) (by decide)

end Sys2Proof.Machine
end
